-- ==== Sys2Proof/Word.lean ====
section
/-! DEFINITION. The word types of the FX-768: CSR words, 64-bit values and bytes (R2, R6, R7). -/

namespace Sys2Proof

/-- One CSR word (R6). -/
abbrev Word := BitVec 32
/-- A 64-bit value such as an address or a timestamp (R7, R9). -/
abbrev Dword := BitVec 64
/-- One byte of a host-visible structure (R2). -/
abbrev Byte := BitVec 8

end Sys2Proof
end

