-- ==== Sys2Proof/Syntax.lean ====
section
/-! DEFINITION. The commands of the FX-768 block: one constructor of `Instr` for each row of spec/opcode_table.json, and
the operand types that its constructors carry. Operands are what arrives from outside a unit with the command: bus
contents, partner messages, sensor readings and verdicts of cryptographic engines. -/

namespace Sys2Proof

/-! ## Numbering (Table 0.4) -/

/-- A die, 0 to 3. -/
abbrev Die := Fin 4
/-- A region, die * 2 + local. -/
abbrev Region := Fin 8
/-- A global cluster, die * 6 + local. -/
abbrev Clu := Fin 24
/-- A global port unit or slot channel, cluster * 2 + k. -/
abbrev Pu := Fin 48
/-- A logical port, port unit * 4 + sub. -/
abbrev Lport := Fin 192
/-- A directory slice, cluster * 2 + k. -/
abbrev DSlice := Fin 48
/-- A host ID, which is also its VCS and its LD. -/
abbrev Host := Fin 128
/-- A backend device of XLT.BEDEV_b. -/
abbrev Dev := Fin 128
/-- A tenant slice (R283). -/
abbrev Slc := Fin 4096
/-- A work ring of the package: slice * 4 + index in the slice (R310). -/
abbrev RingId := Fin 16384
/-- A GnokuLink link endpoint, die * 9 + local; local 8 is the -P port. -/
abbrev Ep := Fin 36
/-- A mirror session (R125). -/
abbrev Sess := Fin 8
/-- A migration slot of a die (R165). -/
abbrev MigSlot := Fin 16
/-- A router, row * 8 + column. -/
abbrev Router := Fin 32

/-- The management paths that keep a latch of their own (R509). -/
inductive Path
  | fcf (h : Host)
  | mctp (v : Host) (eid : Fin 256)
  | i3c (d : Die)
  | ranger (d : Die)
  | perf (d : Die)
deriving DecidableEq, Repr

/-! ## Requests (Tables 7.1 and 8.1) -/

/-- What a request asks for. -/
inductive ReqKind
  | memRd | memSpecRd | memWr | memInv | memClnEvct
  | cacheRd | cacheWr
  | ioRd | ioWr | ioWrNp | ioAtomic | ioCfg
  | biSnp
deriving DecidableEq, Repr

/-- Where routing sends a request (R258). -/
inductive Target
  | ld (n : Host)
  | pt (lp : Lport) (ldId : Fin 16)
  | host (v : Host)
  | none
deriving DecidableEq, Repr

/-- MetaValue of a CXL.mem request (Table 6.3). -/
inductive Meta
  | i | s | a
deriving DecidableEq, Repr

/-- A configuration access of a host to a function of its VCS that the switch itself answers: the DPC control of a vPPB with CA_SEL and
NF_TRIG (R94) and its software trigger (Table 2.8), a read of a vPPB's link and slot status, `clr` writing 1 to Presence Detect Changed
(R60, R66, R90), the viral enable (R93), the AER status of a function (0 the upstream port, 1 + k vPPB k), `clr` clearing it (R92), and
a word of a BAR of the Fresen Control Function, read or written (R72, R74). -/
inductive CfgOp
  | dpcCtl (k : Fin 32) (ca nf : Bool)
  | dpcTrig (k : Fin 32)
  | slotSts (k : Fin 32) (clr : Bool)
  | viralCtl (en : Bool)
  | aerSts (fn : Fin 33) (clr : Bool)
  | fcfBar (i : Fin 6) (v : Option Word)
deriving DecidableEq, Repr

/-- A request as it arrives at an ingress logical port; `uio` marks a UIO request and a TLP of a selective IDE stream, which
pass on passthrough paths only (Table 2.1, R79). `acc` is what a configuration request to the switch's own functions carries;
`poison` marks the data of a write as poisoned (R91). -/
structure Req where
  id    : Nat
  lport : Lport
  kind  : ReqKind
  tgt   : Target
  addr  : Nat
  len   : Nat
  pasid : Option (Fin 1048576)
  mval  : Meta
  uio   : Bool
  acc   : Option CfgOp
  poison : Bool
deriving DecidableEq, Repr

/-- DevLoad levels of an S2M response, lowest first (R122). -/
inductive DevLoad
  | light | optimal | moderate | severe
deriving DecidableEq, Repr

/-- How a requester is answered (Tables 2.9, 6.4 and 7.2); `cplPoison` is a CXL.io or CXL.cache answer whose data is poisoned, and
the S and E forms of data carry Cmp-S and Cmp-E. -/
inductive RespKind
  | memData | memDataS | memDataE | memDataPoison | memDataPoisonS | memDataPoisonE | cplPoison | cmp | cmpS | cmpE | cpl | ur | ca | goErr | cacheFail | biRspI
deriving DecidableEq, Repr

/-! ## Image, amendment and start (spec/15) -/

/-- A signature block (Table 15.6) with the verdicts of the two signature engines. -/
structure SigBlock where
  edIdx  : Nat
  mlIdx  : Nat
  edHash : Nat
  mlHash : Nat
  edOk   : Bool
  mlOk   : Bool
deriving DecidableEq, Repr

/-- A section table entry. -/
structure Sect where
  ty  : Nat
  off : Nat
  len : Nat
deriving DecidableEq, Repr

/-- A register record: a CSR offset and the words written from it on (R453). -/
structure RegRec where
  off   : Nat
  words : List Word
deriving DecidableEq, Repr

/-- The POLICY section: entries of subtables 0x01 and 0x02 (Table 15.7). -/
structure Policy where
  bind   : List Word
  hotAdd : List Word
deriving DecidableEq, Repr

/-- A Marxo image as its slot holds it (Tables 15.4 to 15.7). -/
structure Image where
  headerGood : Bool
  verMajor : Nat
  verMinor : Nat
  bodyLen  : Nat
  seq      : Nat
  svn      : Nat
  pkgMask  : Nat
  sects    : List Sect
  regs     : List RegRec
  policy   : Policy
  digest   : Nat
  fwDigest : Nat
  sig      : SigBlock
deriving DecidableEq, Repr

/-- An amendment as submitted (Table 15.8, R455). -/
structure Amendment where
  size     : Nat
  magic    : Nat
  seq      : Nat
  base     : Nat
  nsect    : Nat
  bodyLen  : Nat
  sects    : List Sect
  resv0    : Bool
  regs     : List RegRec
  policy   : Policy
  revoke   : List Word
  drain    : List Word
  svnRaise : List Word
  digest   : Nat
  sig      : SigBlock
deriving DecidableEq, Repr

/-- The body of an amendment-log record (Table 15.3). -/
inductive LogBody
  | base (slotB : Bool) (digest : Nat)
  | amd (a : Amendment)
  | void (seq : Nat)
deriving DecidableEq, Repr

/-- An amendment-log record; `torn` when its commit word or CRC is wrong (R449). -/
structure LogRec where
  torn : Bool
  body : LogBody
deriving DecidableEq, Repr

/-- What a die's flash answers and holds at start (R443, Table 15.2). -/
structure FlashIn where
  answers  : Bool
  octal    : Bool
  erase4k  : Bool
  log2Mbit : Nat
  slotA    : Image
  slotB    : Image
  log      : List LogRec
deriving DecidableEq, Repr

/-- OTP contents (R452, R471): key hashes, revocation fuses, SVN_MIN and region set points. -/
structure Otp where
  edHash : List Nat
  mlHash : List Nat
  edSet  : Nat
  mlSet  : Nat
  edRev  : Nat
  mlRev  : Nat
  svnMin : Nat
  vset   : List Nat
  roBase : List Nat
deriving DecidableEq, Repr

/-- What power-on finds: straps, OTP and the flash of each die. -/
structure PowerEnv where
  pkgId : Fin 8
  otp   : Otp
  flash : List FlashIn
deriving DecidableEq, Repr

/-! ## Coherence (spec/06) -/

/-- A shared request's operation (Table 6.4). -/
inductive SOp
  | rdS | rdA | rdI | inv | wrI | wrS | wrA | evct
deriving DecidableEq, Repr

/-- A shared request at its home slice (R236, R243, R246). -/
structure SReq where
  id     : Nat
  host   : Host
  key    : Nat
  op     : SOp
  src    : Fin 52
  token  : Nat
  oldest : Bool
deriving DecidableEq, Repr

/-- The header of a MemWr from a port unit of another package: host, line, MetaValue, its GnokuLink-P port as the source, and the time the
port unit first sent it (R240, R243, R244). -/
structure FarWb where
  host  : Host
  key   : Nat
  mval  : Meta
  src   : Fin 52
  token : Nat
deriving DecidableEq, Repr

/-- A MemWr header at a home slice: the transaction, and what it says where its port unit is on another package (R240). -/
structure WbHdr where
  id  : Nat
  far : Option FarWb
deriving DecidableEq, Repr

/-- A grant from a slice of another package: the transaction, the state granted (0 none, 1 S, 2 E), and whether its data comes forwarded or
as poison (R236, R239, R251). -/
structure FarGrant where
  id     : Nat
  st     : Fin 3
  fwd    : Bool
  poison : Bool
deriving DecidableEq, Repr

/-- WB_GO from a slice of another package: the host and transaction it names, and the state its owner keeps (0 none, 1 S, 2 E) (R240). -/
structure FarGo where
  named : Option (Host × Nat)
  st    : Fin 3
deriving DecidableEq, Repr

/-- BIRsp forms (Table 6.3). -/
inductive BiRsp
  | i | s | e
deriving DecidableEq, Repr

/-- BISnp forms the switch issues (Table 6.3). -/
inductive BiSnp
  | cur | data | inv
deriving DecidableEq, Repr

/-- A BISnp from a slice of another package: its form and, where a request caused it, that request's host and transaction (R239). -/
structure FarSnoop where
  kind : BiSnp
  req  : Option (Host × Nat)
deriving DecidableEq, Repr

/-- Where the data of a grant comes from (Table 6.4). -/
inductive DataSrc
  | memory | forwarded | poison | nodata
deriving DecidableEq, Repr

/-! ## Work rings (spec/09) -/

/-- A page-read or structure-read outcome from host memory: its bytes in address order (R2). -/
structure HostRead where
  ok    : Bool
  bytes : List (Fin 256)
deriving DecidableEq, Repr

/-- The data mover chunk whose writes complete (R337): block of a migration slot's pass, or the chunk a ring entry is at. -/
inductive ChunkOf
  | mig (die : Die) (slot : MigSlot) (blk : Fin 512)
  | ring (n : RingId) (idx : Nat)
deriving DecidableEq, Repr

/-! ## Maintenance (spec/16) -/

/-- An activity asking the arbiter: its Table 16.4 code and its scope (R482 to R484). -/
structure ActReq where
  code     : Fin 10
  pus      : List Nat
  regions  : List Nat
  ep       : Nat
  strukt   : Nat
  emerg    : Bool
  lostLink : Bool
deriving DecidableEq, Repr

/-- Readings of a re-planning cycle (Table 16.1). -/
structure Monitors where
  roShift  : List Nat
  slack    : List Nat
  cxl      : List (Nat × Nat × Nat)
  eyes     : List (Nat × Nat × Nat × Nat)
deriving DecidableEq, Repr

/-- The structures of Table 16.3. -/
inductive CtrlKind
  | dirEntry | xltEntry | queueDesc | routeWord | gateRule | ringState | cfgWord
  | migWindow | hotEntry | qosState | allocSram
deriving DecidableEq, Repr

/-- One word a sweep or an access found in error. -/
structure EccHit where
  kind  : CtrlKind
  inst  : Nat
  index : Nat
  ue    : Bool
deriving DecidableEq, Repr

/-- Where a packet is admitted from: a logical port's staging or a cluster's ejection staging, with its class (R96 to
R98). -/
inductive AdmitFrom
  | port (lp : Lport) (cls : Fin 8)
  | net (cl : Clu) (cls : Fin 8)
deriving DecidableEq, Repr

/-- The kinds of device of Table 2.3. -/
inductive DevKind
  | pcie | type1 | type2 | sld | mld
deriving DecidableEq, Repr

/-- A link partner as training finds it (R68, Table 2.4): version 0 PCIe only, 1 CXL 1.1, 2 CXL 2.0, 3 CXL 3.x; highest speed
and trained width by the codes of Table 2.11 and LSTS; latency-optimised flits; link IDE, and whether the partner's CXL.cachemem IDE
can run in containment mode beside skid mode (R78); for a host whether it has enabled viral; for a device its kind, its LDs with their
capacities in bytes (R182), and the largest write payload it accepts in bytes (R128). -/
structure Partner where
  ver   : Fin 4
  speed : Fin 6
  width : Fin 6
  lopt  : Bool
  ide   : Bool
  ideCont : Bool
  viral : Bool
  kind  : DevKind
  lds   : List (Nat × Nat)
  maxPay : Nat
deriving DecidableEq, Repr

/-! ## GnokuLink (spec/11, spec/12) -/

/-- What a message of another package carries here (R396): a request for a backend device of this package, the response to a
request of this package, or a message whose effect is a command of its own. -/
inductive GMsg
  | req (flow : Nat) (kind : ReqKind) (dev : Dev) (addr len : Nat) (host : Host) (poison : Bool)
  | rsp (flow : Nat) (k : RespKind) (dl : DevLoad)
  | other
deriving DecidableEq, Repr

/-- A message header slot (Table 12.4). -/
structure GHdr where
  mkind  : Fin 256
  dslots : Fin 32
  pkg    : Fin 8
  rtr    : Router
  spkg   : Fin 8
  srtr   : Router
  slice  : Option Slc
  weight : Fin 256
  msg    : GMsg
deriving DecidableEq, Repr

/-- A slot of a data flit: a header slot or a data slot; the class's reassembly state says which is meant (R377). -/
inductive GSlot
  | hdr (h : GHdr)
  | data
deriving DecidableEq, Repr

/-- A data flit as received after the FEC (Tables 12.1 and 12.2): the number of its window on the stream since the end block (R374), the
bytes of the window that the FEC corrected and whether the CRC holds (R376). -/
structure GFlit where
  seq   : Fin 4096
  ack   : Fin 4096
  tc    : Fin 8
  cg    : Bool
  col   : Fin 4
  ep    : Bool
  byp   : Word
  slots : List GSlot
  win   : Nat
  corr  : List (Fin 256)
  crcOk : Bool
deriving DecidableEq, Repr

/-! ## Slots, sensors and supply -/

/-- What a slot channel measures on a sample: input and output in 50 mV steps, sense voltage in 0.1 mV steps, and the gate above
the output in 50 mV steps (R414, R429). -/
structure SlotMeas where
  vin   : Fin 1024
  vout  : Fin 1024
  sense : Fin 65536
  gate  : Fin 1024
deriving DecidableEq, Repr

/-- IDE_KM messages of a host to the responder of its upstream port (R77): QUERY, KEY_PROG with the key and whether the host can run
containment mode, K_SET_GO and K_SET_STOP. -/
inductive IdeKm
  | query | keyProg (key : Nat) (cont : Bool) | setGo | setStop
deriving DecidableEq, Repr

/-- SPDM requests (Table 15.11): those supported, an IDE_KM message among the vendor-defined ones, and any other. -/
inductive SpdmReq
  | getVersion | getCapabilities | negotiateAlgorithms | getDigests | getCertificate | challenge | getMeasurements
  | keyExchange | finish | heartbeat | keyUpdate | endSession | chunkGet | vendorDefined | ideKm (m : IdeKm) | other
deriving DecidableEq, Repr

/-- What the Ranger's trace command does (Table 18.5). -/
inductive TraceOp
  | arm (lp : Lport)
  | off
  | dump
deriving DecidableEq, Repr

/-! ## Power and links -/

/-- A block's answer to REQUEST(state) (Table 13.2). -/
inductive PwrAns
  | accept | refuse | delay (us : Nat)
deriving DecidableEq, Repr

/-- A unit that gates its own clock: the kinds of Table 1.2 but the slot channels, which never leave ACTIVE, and a cluster's buffer
(R13, R16, R404, R405); a translation bank is die * 4 + bank. -/
inductive GateUnit
  | pu (p : Pu) | slice (n : DSlice) | buf (c : Clu) | router (r : Router) | bank (b : Fin 16)
  | ring (k : Die) | mover (k : Die) | shard (k : Die) | mgmt (k : Die) | nvm (k : Die) | link (n : Ep)
deriving DecidableEq, Repr

/-- The commands: one constructor for each row of spec/opcode_table.json, in its order but for those without operands, which stand last
(compiled code numbers at most 244 constructors that hold operands); an operand is what arrives with the command, as the meaning of
the same name says. -/
inductive Instr
  /-- REGISTER_WRITE (R4). -/
  | registerWrite (p : Path) (addr size : Nat) (v : Word)
  /-- HIGH_WORD_LATCH_READ (R7). -/
  | highWordLatchRead (p : Path) (addr size : Nat)
  /-- READ_CLEAR (R3). -/
  | readClear (p : Path) (addr size : Nat)
  /-- ALIAS_ACCESS (R10). -/
  | aliasAccess (p : Path) (off size : Nat) (v : Option Word)
  /-- POWER_ON (R441). -/
  | powerOn (env : PowerEnv)
  /-- RECOVERY_IMAGE_TRANSFER (R446). -/
  | recoveryImageTransfer (m : Image)
  /-- DEVICE_READY (R441). -/
  | deviceReady (devs : List (Lport × Partner))
  /-- PLL_UNLOCK (R39). -/
  | pllUnlock (r : Region)
  /-- RELOCK_ATTEMPT_END (R39). -/
  | relockAttemptEnd (r : Region) (ok : Bool)
  /-- PRESENCE_DETECT (R81). -/
  | presenceDetect (lp : Lport) (prsnt rx : Bool)
  /-- LINK_UP (R68). -/
  | linkUp (lp : Lport) (p : Partner)
  /-- L0P_WIDTH_CHANGE (R114). -/
  | l0pWidthChange (lp : Lport) (lanes : Fin 17)
  /-- FCF_BAR_ACCESS (R72). -/
  | fcfBarAccess (h : Host) (bar : Fin 6) (off : Nat) (v : Option Word) (sel : Bool)
  /-- BAR2_READ (R506). -/
  | bar2Read (h : Host) (off : Nat)
  /-- IDE_FAIL (R80). -/
  | ideFail (lp : Lport)
  /-- VCS_RESET (R93). -/
  | vcsReset (v : Host)
  /-- LINK_LOSS (R84). -/
  | linkLoss (lp : Lport) (gone : Bool)
  /-- SW_TRIG (R84). -/
  | swTrig (lp : Lport)
  /-- DPC_TRIG_RELEASE (R87). -/
  | dpcTrigRelease (lp : Lport)
  /-- VPPB_DPC_RELEASE (R87). -/
  | vppbDpcRelease (v : Host) (k : Fin 32)
  /-- LINK_DOWN (R89). -/
  | linkDown (lp : Lport)
  /-- M2S_REQUEST (R31). -/
  | m2sRequest (hits : List EccHit) (r : Req)
  /-- PLACEMENT_READ_DONE (R544). -/
  | placementReadDone (die : Die) (ld : Host) (page : Nat) (poison rewriteOk : Bool)
  /-- PT_REWRITE_RETRY (R147). -/
  | ptRewriteRetry (ld : Host) (page : Nat) (ok : Bool)
  /-- ADMIT (R96). -/
  | admitPacket (ws : List (AdmitFrom × Bool))
  /-- EGRESS_TRANSMIT (R116). -/
  | egressTransmit (cl : Clu) (egr : Fin 40) (cr : Fin 256) (replay : Fin 3) (parityOk : Bool)
  /-- WRITE_COUNT_UPDATE (R129). -/
  | writeCountUpdate (i : Sess)
  /-- MIRROR_ENABLE (R131). -/
  | mirrorEnable (i : Sess) (en : Bool)
  /-- S2M_RESPONSE (R122). -/
  | s2mResponse (id : Nat) (who : Fin 2192) (k : RespKind) (poison : Bool) (dl : DevLoad)
  /-- FELLING_NOTICE (R108). -/
  | fellingNotice (die : Die) (tag : Nat)
  /-- SHOOTDOWN (R150). -/
  | shootdown (die : Die) (rid : Nat)
  /-- SHOOTDOWN_ANSWER (R150). -/
  | shootdownAnswer (rid : Nat) (who : Fin 12)
  /-- TWIN_REBUILD_START (R157). -/
  | twinRebuildStart (ld : Host) (page : Nat)
  /-- MIGRATION_ASSIGN (R176). -/
  | migrationAssign (die : Die) (slot : MigSlot)
  /-- WATCH_SET (R166). -/
  | watchSet (die : Die) (slot : MigSlot) (who : Fin 12)
  /-- CHUNK_DONE (R337). -/
  | chunkDone (w : ChunkOf) (poison err : Bool)
  /-- HOLD_ANSWER (R171). -/
  | holdAnswer (mdie : Die) (slot : MigSlot) (who : Fin 12)
  /-- HOLD_TIMEOUT (R173). -/
  | holdTimeout (die : Die) (slot : MigSlot)
  /-- ALLOC (R320). -/
  | alloc (n : RingId) (idx : Nat)
  /-- GRANT_PIECE (R202). -/
  | grantPiece (k : Fin 9)
  /-- ADD_DC_RESPONSE (R203). -/
  | addDcResponse (h : Host) (tag : Nat) (accept : Bool)
  /-- ACK_TIMEOUT (R203). -/
  | ackTimeout (h : Host) (tag : Nat)
  /-- RELEASE (R205). -/
  | release (n : RingId) (idx : Nat)
  /-- RELEASE_DYNAMIC_CAPACITY (R205). -/
  | releaseDynamicCapacity (h : Host) (ev : Option (Nat × Nat)) (base pages : Nat)
  /-- ZEROING_DONE (R186). -/
  | zeroingDone (dev : Dev) (page n : Nat)
  /-- INITIAL_GRANT (R208). -/
  | initialGrant (ld : Host) (region : Fin 8)
  /-- GRACE_EXPIRY (R210). -/
  | graceExpiry (h : Host)
  /-- RECLAIM_EXPIRY (R548). -/
  | reclaimExpiry (h : Host)
  /-- QUAR_RESTORE (R214). -/
  | quarRestore (p : Path) (h : Host)
  /-- QUAR_RECLAIM (R214). -/
  | quarReclaim (p : Path) (h : Host)
  /-- DRAIN_COMPLETE (R217). -/
  | drainComplete (dev : Dev)
  /-- JOURNAL_RECORD (R218). -/
  | journalRecord (jid : Nat) (at0 : Fin 12)
  /-- JOURNAL_ACK (R218). -/
  | journalAck (jid : Nat) (src : Fin 12)
  /-- SHARED_REQUEST (R236). -/
  | sharedRequest (hits : List EccHit) (sl : DSlice) (wbs : List WbHdr) (qs : List SReq)
  /-- BIRSP (R238). -/
  | birsp (h : Host) (key : Nat) (a : BiRsp) (blk : Bool) (far : Option Bool)
  /-- GRANT (R236). -/
  | grant (sl : DSlice) (key : Nat) (far : Option FarGrant)
  /-- DONE (R236). -/
  | done (sl : DSlice) (key : Nat) (h : Host)
  /-- SNOOP_WRITEBACK (R239). -/
  | snoopWriteback (id : Nat)
  /-- ORDINARY_WRITEBACK (R240). -/
  | ordinaryWriteback (w : WbHdr)
  /-- WB_GO (R240). -/
  | wbGo (id : Nat) (far : Option FarGo)
  /-- WB_DONE (R241). -/
  | wbDone (sl : DSlice) (key : Nat) (h : Host)
  /-- RETRY (R246). -/
  | retry (sl : DSlice) (q : SReq)
  /-- WAKE (R246). -/
  | wake (sl : DSlice) (pkg : Option (Fin 8)) (src : Fin 52)
  /-- BICONFLICT (R234). -/
  | biconflict (h : Host) (key : Nat)
  /-- BISNP_TIMEOUT (R250). -/
  | bisnpTimeout (h : Host) (key : Nat)
  /-- GEN_INSTALLED (R273). -/
  | genInstalled (die : Die)
  /-- SYNC_DONE (R276). -/
  | syncDone (id : Nat)
  /-- VLOG_ADVANCE (R281). -/
  | vlogAdvance (die : Die) (n : Nat)
  /-- RDB (R330). -/
  | rdb (h : Host) (sl : Slc) (k : Fin 4)
  /-- RESDB (R332). -/
  | resdb (h : Host) (sl : Slc)
  /-- CONTROL_BLOCK_READ (R315). -/
  | controlBlockRead (sl : Slc) (which : Fin 5) (x : HostRead)
  /-- POLL (R330). -/
  | poll (n : RingId)
  /-- ENTRY_FETCH (R330). -/
  | entryFetch (n : RingId) (idx : Nat) (x : HostRead)
  /-- STALE_REREAD (R330). -/
  | staleReread (n : RingId) (idx : Nat) (x : HostRead)
  /-- DISPATCH (R331). -/
  | dispatch (die : Die)
  /-- NOP (R329). -/
  | nop (n : RingId) (idx : Nat)
  /-- COPY (R321). -/
  | copy (n : RingId) (idx : Nat)
  /-- FILL (R321). -/
  | fill (n : RingId) (idx : Nat)
  /-- HINT (R324). -/
  | hint (n : RingId) (idx : Nat)
  /-- MIGRATE (R325). -/
  | migrate (n : RingId) (idx : Nat)
  /-- FENCE (R326). -/
  | fence (n : RingId) (idx : Nat)
  /-- QUERY (R327). -/
  | query (n : RingId) (idx : Nat)
  /-- PERF_READ (R327). -/
  | perfRead (n : RingId) (idx : Nat)
  /-- AMEND (R328). -/
  | amend (n : RingId) (idx : Nat) (a : Option Amendment)
  /-- RESULT_RETRY (R332). -/
  | resultRetry (sl : Slc)
  /-- RESULT_HELD (R332). -/
  | resultHeld (n : RingId)
  /-- CB_WRITE (R316). -/
  | cbWrite (sl : Slc) (which : Fin 5)
  /-- ENABLE (R312). -/
  | enable (h : Host) (sl : Slc) (which : Fin 5)
  /-- DISABLE (R334). -/
  | disable (h : Host) (sl : Slc) (which : Fin 5)
  /-- RESUME_SKIP (R334). -/
  | resumeSkip (h : Host) (sl : Slc) (k : Fin 4)
  /-- RESUME_RETRY (R334). -/
  | resumeRetry (h : Host) (sl : Slc) (k : Fin 4)
  /-- PACKET_FORWARD (R347). -/
  | packetForward (nid : Nat) (credit parityOk : Bool)
  /-- SPAN_CLOSE_REQUEST (R351). -/
  | spanCloseRequest (e : Fin 60)
  /-- FENCE_MSG (R351). -/
  | fenceMsg (ni : Router) (e : Fin 60)
  /-- FENCE_MARK (R351). -/
  | fenceMark (ni : Router)
  /-- UNFENCE (R351). -/
  | unfence (e : Fin 60)
  /-- BANK_LOAD_DONE (R353). -/
  | bankLoadDone (order : Fin 16) (words : List (Nat × Nat))
  /-- DRAINED (R353). -/
  | drained (plane : Fin 4)
  /-- LINK_LOST (R357). -/
  | linkLost (r : Router) (dir : Fin 4)
  /-- RESEND_TIMEOUT (R358). -/
  | resendTimeout (xid : Nat)
  /-- PHY_ENABLE (R364). -/
  | phyEnable (n : Ep)
  /-- PHY_DISABLE (R368). -/
  | phyDisable (n : Ep)
  /-- END_BLOCK (R365). -/
  | endBlock (n : Ep)
  /-- TRAIN_TIMEOUT (R367). -/
  | trainTimeout (n : Ep)
  /-- TRAIN_BACKOFF (R367). -/
  | trainBackoff (n : Ep)
  /-- LPBK_CTL_WRITE (R369). -/
  | lpbkCtlWrite (n : Ep) (mode : Fin 4)
  /-- LPBK_EXIT (R369). -/
  | lpbkExit (n : Ep)
  /-- EXIT_BURST (R370). -/
  | exitBurst (n : Ep)
  /-- WAKE_PATTERN (R370). -/
  | wakePattern (n : Ep)
  /-- WAKE_UNANSWERED (R370). -/
  | wakeUnanswered (n : Ep)
  /-- SWAP_GO (R371). -/
  | swapGo (n : Ep) (grp pos : Fin 16)
  /-- SWAP_READY (R371). -/
  | swapReady (n : Ep) (grp pos : Fin 16)
  /-- SWAP_COMPARE_DONE (R371). -/
  | swapCompareDone (n : Ep) (same : Bool)
  /-- SWAP_DONE (R371). -/
  | swapDone (n : Ep) (grp pos : Fin 16)
  /-- SWAP_FAIL (R371). -/
  | swapFail (n : Ep) (grp pos : Fin 16)
  /-- LANE_FAILED (R372). -/
  | laneFailed (n : Ep) (lane : Fin 180)
  /-- DATA_FLIT (R383). -/
  | dataFlit (n : Ep) (f : GFlit)
  /-- SHORT_FLIT (R374). -/
  | shortFlit (n : Ep) (ack : Fin 4096) (words : List Word) (crcOk : Bool)
  /-- REPLAY_TIMEOUT (R386). -/
  | replayTimeout (n : Ep)
  /-- NAK (R389). -/
  | nak (n : Ep) (first : Fin 4096) (count : Fin 65)
  /-- NAK_REPEAT (R388). -/
  | nakRepeat (n : Ep)
  /-- REQ_SEL (R388). -/
  | reqSel (n : Ep)
  /-- ACK_SEL (R388). -/
  | ackSel (n : Ep)
  /-- REQ_GBN (R390). -/
  | reqGbn (n : Ep)
  /-- ACK_GBN (R390). -/
  | ackGbn (n : Ep)
  /-- SELECTIVE_QUIET (R390). -/
  | selectiveQuiet (n : Ep)
  /-- MODE_REPEAT (R390). -/
  | modeRepeat (n : Ep)
  /-- CREDIT (R380). -/
  | credit (n : Ep) (tc : Fin 8) (h dc : Fin 4096)
  /-- CREDIT_REFRESH (R381). -/
  | creditRefresh (n : Ep)
  /-- CAP (R392). -/
  | cap (n : Ep) (major minor : Fin 16) (kind : Fin 4) (pkg : Fin 8)
  /-- INIT_TIMEOUT (R392). -/
  | initTimeout (n : Ep)
  /-- DOWN (R393). -/
  | down (n : Ep) (why : Fin 16)
  /-- IDLE_TIMER (R394). -/
  | idleTimer (n : Ep)
  /-- IDLE_REQ (R394). -/
  | idleReq (n : Ep)
  /-- IDLE_ACK (R394). -/
  | idleAck (n : Ep)
  /-- IDLE_NAK (R394). -/
  | idleNak (n : Ep)
  /-- HELLO (R397). -/
  | hello (die : Die) (pkg : Fin 8) (sysid : Word) (digestOk fresh : Bool) (vcs : List Host)
  /-- BEAT (R398). -/
  | beat (src : Option (Fin 8))
  /-- PKG_LOST (R398). -/
  | pkgLost (pkg : Fin 8) (hosts : List Host)
  /-- CLOCK_GATE (R405). -/
  | clockGate (u : GateUnit)
  /-- POWER_REQUEST (R405). -/
  | powerRequest (dom : Fin 92) (clear : Bool)
  /-- POWER_ANSWER (R406). -/
  | powerAnswer (dom : Fin 92) (blk : Nat) (a : PwrAns)
  /-- DELAY_RETRY (R406). -/
  | delayRetry (dom : Fin 92)
  /-- ANSWER_TIMEOUT (R406). -/
  | answerTimeout (dom : Fin 92)
  /-- ENTRY_REFUSED (R406). -/
  | entryRefused (dom : Fin 92)
  /-- WAKE_SOURCE (R411). -/
  | wakeSource (dom : Fin 92) (code : Fin 16)
  /-- RETURN_STEP_READY (R411). -/
  | returnStepReady (dom : Fin 92) (ue : Bool)
  /-- READY_LATE (R412). -/
  | readyLate (dom : Fin 92)
  /-- PRESENT (R417). -/
  | present (n : Pu)
  /-- REMOVED (R417). -/
  | removed (n : Pu)
  /-- INPUT_WINDOW (R419). -/
  | inputWindow (n : Pu) (m : SlotMeas)
  /-- INSERTION_DELAY (R418). -/
  | insertionDelay (n : Pu) (m : SlotMeas)
  /-- LIMIT_ENGAGE (R422). -/
  | limitEngage (n : Pu) (m : SlotMeas)
  /-- LIMIT_RELEASE (R422). -/
  | limitRelease (n : Pu) (m : SlotMeas)
  /-- FAST_TRIP (R423). -/
  | fastTrip (n : Pu) (m : SlotMeas)
  /-- FAULT_TIMER (R422). -/
  | faultTimer (n : Pu) (m : SlotMeas)
  /-- OFF_TIME (R425). -/
  | offTime (n : Pu) (m : SlotMeas)
  /-- POWER_GOOD (R429). -/
  | powerGood (n : Pu) (m : SlotMeas)
  /-- PG_DROP (R430). -/
  | pgDrop (n : Pu) (m : SlotMeas)
  /-- SEQUENCE_END (R426). -/
  | sequenceEnd (n : Pu)
  /-- DISCHARGE_ARM (R427). -/
  | dischargeArm (n : Pu)
  /-- FET_SHORT (R427). -/
  | fetShort (n : Pu) (m : SlotMeas)
  /-- CYCLE (R435). -/
  | cycle (n : Pu)
  /-- CLEAR (R428). -/
  | clear (n : Pu) (m : SlotMeas)
  /-- PERST_RELEASE (R536). -/
  | perstRelease (n : Pu)
  /-- AMEND_SUBMIT (R456). -/
  | amendSubmit (p : Path) (a : Amendment)
  /-- IMG_XFER_START (R517). -/
  | imgXferStart (p : Path)
  /-- IMG_XFER_DATA (R517). -/
  | imgXferData (p : Path) (off len : Nat)
  /-- IMG_XFER_END (R462). -/
  | imgXferEnd (p : Path) (m : Image)
  /-- ACTIVATE (R463). -/
  | activate (p : Path)
  /-- DIE_FW_RELOAD (R463). -/
  | dieFwReload (k : Die)
  /-- SAG_ENTER (R465). -/
  | sagEnter (vin : Fin 1024) (railLow : Bool)
  /-- SPDM_REQUEST (R467). -/
  | spdmRequest (h : Host) (q : SpdmReq) (param : Fin 256) (sign : Bool)
  /-- GET_HYBRID_SIG (R468). -/
  | getHybridSig (h : Host)
  /-- GET_HYBRID_CERT (R468). -/
  | getHybridCert (h : Host)
  /-- REPLAN (R473). -/
  | replan (m : Monitors)
  /-- AV_STEP (R474). -/
  | avStep (r : Region)
  /-- AV_STEP_COMPLETE (R474). -/
  | avStepComplete (r : Region) (slack : Fin 64)
  /-- AV_EMERGENCY (R475). -/
  | avEmergency (r : Region) (slack : Fin 64)
  /-- REEQUALISATION (R476). -/
  | reequalisation (lp : Lport)
  /-- REEQ_DONE (R476). -/
  | reeqDone (lp : Lport)
  /-- REEQ_TIMEOUT (R476). -/
  | reeqTimeout (lp : Lport)
  /-- SCRUB_SWEEP (R478). -/
  | scrubSweep (strukt : Fin 112) (hits : List EccHit)
  /-- SLICE_SPARING (R481). -/
  | sliceSparing (sl : DSlice) (set : Fin 16384)
  /-- ARBITER_REQUEST (R484). -/
  | arbiterRequest (qs : List ActReq)
  /-- ARBITER_RELEASE (R484). -/
  | arbiterRelease (id : Nat)
  /-- ARB_ABANDON (R485). -/
  | arbAbandon (id : Nat)
  /-- HEARTBEAT (R488). -/
  | heartbeat (fresh : Bool) (ans : List Die)
  /-- LEAD_FAILOVER (R489). -/
  | leadFailover (agree : Die)
  /-- MGMT_RELOAD (R491). -/
  | mgmtReload (k : Die)
  /-- SEL_WRITE (R497). -/
  | selWrite (die : Die) (i : Fin 1024) (w : Word)
  /-- CLR (R499). -/
  | clr (die : Die) (all : Bool) (i : Fin 1024)
  /-- SLC_CLR (R505). -/
  | slcClr (sl : Slc)
  /-- FREEZE (R500). -/
  | freeze (on : Bool)
  /-- COUNTER_SAMPLE (R501). -/
  | counterSample (p : Path) (die : Die) (i : Fin 1024)
  /-- TD_READ (R504). -/
  | tdRead (p : Path) (die : Die) (u : Fin 12)
  /-- GET_VERSION (R516). -/
  | getVersion (p : Path) (cmax : Fin 65536)
  /-- IDENTIFY (R517). -/
  | identify (p : Path)
  /-- CSR_READ (R517). -/
  | csrRead (p : Path) (addr n : Nat) (peek : Bool)
  /-- CSR_WRITE (R511). -/
  | csrWrite (p : Path) (addr : Nat) (vals : List Word)
  /-- EVENT_READ (R514). -/
  | eventRead (p : Path) (t : Dword) (flash : Bool)
  /-- IDENTIFY_SWITCH_DEVICE (R515). -/
  | identifySwitchDevice (p : Path)
  /-- GET_PHYSICAL_PORT_STATE (R515). -/
  | getPhysicalPortState (p : Path) (lp : Lport)
  /-- GET_VIRTUAL_CXL_SWITCH_INFO (R515). -/
  | getVirtualCxlSwitchInfo (p : Path) (v : Host)
  /-- FM_UNSUPPORTED (R515). -/
  | fmUnsupported (p : Path) (op : Fin 65536)
  /-- HELP (R521). -/
  | help (die : Die) (topic : Option (Fin 10))
  /-- ID (R521). -/
  | id (die : Die)
  /-- PORTS (R521). -/
  | ports (die : Die) (lp : Option Lport)
  /-- SLOT (R521). -/
  | slot (die : Die) (ch : Option (Fin 12))
  /-- COUNTERS (R521). -/
  | counters (die : Die) (i : Fin 1024) (n : Option (Fin 65))
  /-- LOG (R521). -/
  | log (die : Die) (n : Option Nat)
  /-- MARGIN (R521). -/
  | margin (die : Die) (lp : Option Lport) (ep : Option Ep)
  /-- RD (R521). -/
  | rd (die : Die) (addr : Nat) (n : Fin 65)
  /-- WR (R525). -/
  | wr (die : Die) (addr : Nat) (vals : List Word)
  /-- TRACE (R522). -/
  | trace (die : Die) (op : TraceOp)
  /-- GO (R523). -/
  | go (die : Die) (sigs : Bool)
  /-- LOCK (R524). -/
  | lock (die : Die)
  /-- UNLOCK_EXPIRY (R524). -/
  | unlockExpiry (die : Die)
  /-- LOCKOUT_EXPIRY (R524). -/
  | lockoutExpiry (die : Die)
  /-- COLD_RST (R533). -/
  | coldRst (low : Nat)
  /-- COLD_RST_RELEASE (R533). -/
  | coldRstRelease (pkg : Fin 8)
  /-- SENSOR_READ (R541). -/
  | sensorRead (t : List (Fin 256)) (aon : List (Fin 256)) (vin iin : Fin 65536)
  /-- TIMESTAMP_TICK (R34). -/
  | timestampTick (cyc : List (Fin 64))
  /-- L1_ENTRY (R71). -/
  | l1Entry (lp : Lport)
  /-- L1_EXIT (R71). -/
  | l1Exit (lp : Lport)
  /-- UNCORRECTABLE_ERROR (R84). -/
  | uncorrectableError (lp : Lport) (fatal : Bool)
  /-- SNOOP_RECORD (R239). -/
  | snoopRecord (h : Host) (key : Nat) (far : Option FarSnoop)
  /-- TRAINING_BLOCK (R365). -/
  | trainingBlock (n : Ep) (lane : Fin 180) (var : Fin 16) (locked lpbk : Bool) (id : Fin 256) (chk inv : Bool)
  /-- RECEIVER_LOCKED (R365). -/
  | receiverLocked (n : Ep)
  /-- EARLY_WARNING (R432). -/
  | earlyWarning (n : Pu) (m : SlotMeas)
  /-- PLACEMENT_WRITE_DONE (R139). -/
  | placementWriteDone (wid : Nat)
  /-- HOLD_REQUEST (R171). -/
  | holdRequest (die mdie : Die) (slot : MigSlot)
  /-- HOLD_RELEASE (R173). -/
  | holdRelease (die : Die) (ld : Host) (page : Nat)
  /-- CONTROL_WORD_REWRITE (R479). -/
  | controlWordRewrite (x : EccHit)
  /-- CLEAR_EVENT_RECORDS (R160). -/
  | clearEventRecords (ld : Host) (n : Nat)
  /-- I3C_DYNAMIC_ADDRESS (R513). -/
  | i3cDynamicAddress (die : Die) (a : Option (Fin 128))
  /-- LEAD_ELECTION (R444). -/
  | leadElection
  /-- IMAGE_LOAD (R445). -/
  | imageLoad
  /-- IMAGE_VERIFY (R451). -/
  | imageVerify
  /-- REGISTER_RECORDS (R453). -/
  | registerRecords
  /-- AMENDMENT_REPLAY (R461). -/
  | amendmentReplay
  /-- FIRMWARE_START (R441). -/
  | firmwareStart
  /-- LINK_ENABLE (R441). -/
  | linkEnable
  /-- SECOND_COPY_BUILD (R140). -/
  | secondCopyBuild
  /-- EPOCH_END (R162). -/
  | epochEnd
  /-- ALLOC_ACCEPT (R199). -/
  | allocAccept
  /-- POOL_READY (R207). -/
  | poolReady
  /-- STANDBY_RESYNC (R220). -/
  | standbyResync
  /-- WALK_DONE (R251). -/
  | walkDone
  /-- SYNC_REQ (R276). -/
  | syncReq
  /-- SYNC_SLOW (R278). -/
  | syncSlow
  /-- REFILL (R307). -/
  | refill
  /-- SPAN_CLOSED (R351). -/
  | spanClosed
  /-- RECONFIG_GRANT (R353). -/
  | reconfigGrant
  /-- SWITCH_TIME (R353). -/
  | switchTime
  /-- NVM_RECORD_WRITE (R449). -/
  | nvmRecordWrite
  /-- AMENDMENT_APPLY (R457). -/
  | amendmentApply
  /-- STANDBY_FW_START (R463). -/
  | standbyFwStart
  /-- LEAD_HANDOVER (R463). -/
  | leadHandover
  /-- SAG_EXIT (R465). -/
  | sagExit (vin : Fin 1024)
  /-- PLAN_DONE (R473). -/
  | planDone
  /-- LEAD_WITHDRAW (R488). -/
  | leadWithdraw
  /-- EVENT_LOG_WRITE (R492). -/
  | eventLogWrite
  /-- POWER_LOSS (R534). -/
  | powerLoss
  /-- ALLOCATOR_REBUILT (R490). -/
  | allocatorRebuilt
deriving DecidableEq, Repr

end Sys2Proof
end

