-- ==== Sys2Proof/Decode.lean ====
section
/-! DEFINITION. The commands that a word spells. spec/opcode_table.json gives no row of this block any bits (its commands are events and
accesses, not instruction words), so no word spells a command. -/

namespace Sys2Proof

/-- The command that `nbits` bits `w` spell by the table's bits: none, for the table gives its rows no bits. -/
def decodeTableWord (_nbits _w : Nat) : Option Instr := none

end Sys2Proof
end

