-- ==== Sys2Proof/Config.lean ====
section
/-! DEFINITION. The values the spec leaves open: opaque constants, so no proof can lean on one (assumption 1). -/

namespace Sys2Proof

/-- Free word number `n`: what the machine yields where the spec states no value; applied to a counter of the state
(assumption 1). -/
opaque Config.freeWord : Nat → BitVec 32

/-- Free number: an unstated value of no fixed width (an order or a choice the spec leaves open), applied to a counter of
the state (assumption 1). -/
opaque Config.freeNat : Nat → Nat

/-- The set function of the translation cache (R144 gives the sets and ways, no hash): page key to set, reduced modulo
the number of sets by the caller (assumption 1). -/
opaque Config.xltSet : Nat → Nat

/-- Records an LD's event log holds before the CXL overflow rules apply (R160 gives no size; assumption 26). -/
opaque Config.ldLogSlots : Nat

/-- The endpoint numbers of DEP at an NI, which Table 12.4 does not list: from a number of the model for the unit (assumption 158). -/
opaque Config.endpointNo : Nat → Nat

/-- The FEC bytes of a data flit: R375 gives no field polynomial and no generator; from the variant, the bytes covered and the index of the
parity byte (assumption 158). -/
opaque Config.rsParity : Bool → List Nat → Nat → Nat

/-- The SHA-384 hash of the boot ROM, measurement 1 (R469; the spec gives no value). -/
opaque Config.romHash : Nat

/-- The first 64 bits of the SHA-384 digest of the system table, from its words (R397); the table's byte layout is not stated (assumption
158). -/
opaque Config.sysDigest : List Nat → BitVec 64

end Sys2Proof
end

