-- ==== Sys2Proof/Machine/Bits.lean ====
section
/-! DEFINITION. Bit fields and small arithmetic over Nat that the register and record layouts use. -/

namespace Sys2Proof
namespace Machine

/-- Bits `[lo + w - 1 : lo]` of a number. -/
def bits (x lo w : Nat) : Nat := x / 2 ^ lo % 2 ^ w

/-- One bit of a number. -/
def bitAt (x k : Nat) : Bool := x / 2 ^ k % 2 == 1

/-- A number with one bit set. -/
def bitSet (x k : Nat) : Nat := if bitAt x k then x else x + 2 ^ k

/-- A number with one bit clear. -/
def bitClr (x k : Nat) : Nat := if bitAt x k then x - 2 ^ k else x

/-- How many of the low `n` bits are 1. -/
def popCount (x : Nat) : Nat → Nat
  | 0 => 0
  | n + 1 => popCount x n + (x / 2 ^ n % 2)

/-- A Bool as a bit. -/
def b2n (b : Bool) : Nat := if b then 1 else 0

/-- Addition that stops at `2 ^ w - 1`: the saturating counters of the register tables. -/
def satAdd (w x n : Nat) : Nat := min (x + n) (2 ^ w - 1)

/-- The first index below `n` that passes a test, counting up from `k`. -/
def firstFrom (p : Nat → Bool) : Nat → Nat → Option Nat
  | _, 0 => none
  | k, n + 1 => if p k then some k else firstFrom p (k + 1) n

/-- A number held between two bounds: a field outside its range acts as the nearest bound. -/
def clamp (lo hi x : Nat) : Nat := max lo (min hi x)

/-- A list without its first element equal to `x`. -/
def dropOne {α : Type} [DecidableEq α] (x : α) : List α → List α
  | [] => []
  | y :: t => if y = x then t else y :: dropOne x t

/-- A list with `f` applied to the elements that pass a test. -/
def mapIf {α : Type} (p : α → Bool) (f : α → α) (l : List α) : List α :=
  l.map fun x => if p x then f x else x

/-- Fold a state change over a list, left to right. -/
def forAll {α σ : Type} (l : List α) (f : α → σ → σ) (s : σ) : σ := l.foldl (fun s x => f x s) s

/-- Apply a state change when a condition holds. -/
def doIf {σ : Type} (b : Bool) (f : σ → σ) (s : σ) : σ := if b then f s else s

/-- Bytes of a number, least significant first (R2). -/
def leBytes : Nat → Nat → List Nat
  | 0, _ => []
  | n + 1, x => x % 256 :: leBytes n (x / 256)

/-- The number whose least significant first bytes are given (R2). -/
def ofLeBytes : List Nat → Nat
  | [] => 0
  | b :: t => b % 256 + 256 * ofLeBytes t

/-- The 32-bit words of a structure's bytes, least significant byte first; a last part of fewer than four bytes is dropped (R2). -/
def leWords : List Nat → List Nat
  | b0 :: b1 :: b2 :: b3 :: t => ofLeBytes [b0, b1, b2, b3] :: leWords t
  | _ => []

/-- The bytes of a structure given as 32-bit words, in address order (R2). -/
def wordBytes (l : List Nat) : List Nat := l.flatMap (leBytes 4)

end Machine
end Sys2Proof
end

