-- ==== Sys2Proof/Machine/Arr.lean ====
section
/-! DEFINITION. `Arr`: sparse data in one canonical form, a list of key and value cells with strictly rising keys and no
cell equal to what an unlisted key reads as. -/

namespace Sys2Proof
namespace Machine

/-- A sparse array: cells sorted by key. The value of an unlisted key is the default its reader names. -/
structure Arr (α : Type) where
  cells : List (Nat × α)
deriving DecidableEq, Repr

/-- The array that lists nothing. -/
def arrEmpty {α : Type} : Arr α := ⟨[]⟩

/-- The value listed for a key. -/
def cellsFind {α : Type} (k : Nat) : List (Nat × α) → Option α
  | [] => none
  | c :: t => if c.1 = k then some c.2 else cellsFind k t

/-- The cells without those of a key. -/
def cellsDrop {α : Type} (k : Nat) : List (Nat × α) → List (Nat × α)
  | [] => []
  | c :: t => if c.1 = k then cellsDrop k t else c :: cellsDrop k t

/-- A cell put before the first larger key. -/
def cellsPut {α : Type} (k : Nat) (v : α) : List (Nat × α) → List (Nat × α)
  | [] => [(k, v)]
  | c :: t => if k < c.1 then (k, v) :: c :: t else c :: cellsPut k v t

/-- Read key `k`; an unlisted key reads as `d`. -/
def aget {α : Type} (d : α) (a : Arr α) (k : Nat) : α := (cellsFind k a.cells).getD d

/-- Write `v` at key `k`; writing what an unlisted key reads as removes the cell. -/
def aset {α : Type} [DecidableEq α] (d : α) (a : Arr α) (k : Nat) (v : α) : Arr α :=
  if v = d then ⟨cellsDrop k a.cells⟩ else ⟨cellsPut k v (cellsDrop k a.cells)⟩

/-- Remove the cell of a key. -/
def adel {α : Type} (a : Arr α) (k : Nat) : Arr α := ⟨cellsDrop k a.cells⟩

/-- Keep the cells that satisfy a test of key and value. -/
def akeep {α : Type} (p : Nat → α → Bool) (a : Arr α) : Arr α := ⟨a.cells.filter fun c => p c.1 c.2⟩

/-- The strictly rising keys of a cell list, all above `lo`. -/
def cellsSorted {α : Type} (lo : Nat) : List (Nat × α) → Bool
  | [] => true
  | c :: t => decide (lo ≤ c.1) && cellsSorted (c.1 + 1) t

/-- The canonical form: keys strictly rising and no cell that equals the default. -/
def awf {α : Type} [DecidableEq α] (d : Nat → α) (a : Arr α) : Bool :=
  cellsSorted 0 a.cells && a.cells.all fun c => decide (c.2 ≠ d c.1)

end Machine
end Sys2Proof
end

