-- ==== Sys2Proof/Machine/Parts.lean ====
section
/-! DEFINITION. The pieces of the machine's state, one structure for each part of the spec, and the messages the switch
sends out. Registers are not here: they live in the two register files of `State`. -/

namespace Sys2Proof
namespace Machine

/-! ## Events and messages out -/

/-- One event record (R12, R492, R493): timestamp of the die, code, die, and the owning chapter's fields. -/
structure Ev where
  ts   : Nat
  code : Nat
  die  : Nat
  args : List Nat
deriving DecidableEq, Repr

/-- A lane, clock or pin level that the switch drives; a gate turned off with 1 A (`fast`) or 20 mA (R419, R422, R423). -/
inductive Pin
  | perst (pu : Nat) (low : Bool)
  | gate (slot : Nat) (on fast : Bool)
  | slotPg (slot : Nat) (on : Bool)
  | therm (low : Bool)
  | thermtrip (low : Bool)
  | lanes (lp : Nat) (on : Bool)
deriving DecidableEq, Repr

/-- A message handed to a link endpoint (Table 12.4): class, data slots, MKIND, the CG, COL and EP of its flit, ROUTE, source package and
router, DEP, slice and weight (R377, R378, R396). -/
structure GTx where
  tc     : Nat
  ds     : Nat
  mkind  : Nat
  cg     : Bool
  col    : Nat
  ep     : Nat
  route  : Nat
  spkg   : Nat
  srtr   : Nat
  dep    : Nat
  slice  : Option Nat
  weight : Nat
deriving DecidableEq, Repr

/-- A data flit as sent (Tables 12.1 and 12.2): SEQ, TC, CG, COL, EP, its slots, each a message's header or data, and where its free bytes
begin; ACK, BYP, CRC and FEC are made each time it leaves (R386). -/
structure TxFlit where
  seq   : Nat
  tc    : Nat
  cg    : Bool
  col   : Nat
  ep    : Nat
  slots : List (Option GTx)
  base  : Nat
deriving DecidableEq, Repr

/-- What the switch sends out of a unit: to a link partner, to a host, to another unit, die or package. Each message to
another unit is delivered by the receiver's own command (assumption 6). -/
inductive Out
  | resp (req lp : Nat) (k : RespKind) (dl : DevLoad)
  | credit (lp cls : Nat)
  | devReq (lp ldId : Nat) (flow : Nat) (k : ReqKind) (addr len : Nat) (poison : Bool)
  | hostReq (lp : Nat) (flow : Nat) (k : ReqKind) (addr len : Nat) (poison : Bool)
  | biSnp (lp : Nat) (key : Nat) (k : BiSnp)
  | biConflictAck (lp : Nat) (key : Nat)
  | toHome (slice : Nat) (q : SReq)
  | toPu (host : Nat) (tag key : Nat) (args : List Nat)
  | toSlice (slice : Nat) (tag key : Nat) (args : List Nat)
  | copyWr (dev bpage off : Nat) (tag : Nat) (poison : Bool)
  | zeroWr (dev bpage n : Nat)
  | ptWrite (wid ld lo n : Nat)
  | ptRead (die dev ld page : Nat)
  | shootReq (rid ld lo n : Nat) (entry : Nat)
  | shootAns (rid who : Nat)
  | watchReq (die slot ld page : Nat)
  | watchAns (die slot who : Nat)
  | holdReq (die slot ld page : Nat)
  | holdAns (die slot who : Nat)
  | holdRel (die slot : Nat)
  | fellNotice (die tag : Nat)
  | mirrorWr (sess addr : Nat) (bytes : List Nat)
  | mirrorCount (sess addr count : Nat)
  | hostWr (host addr : Nat) (bytes : List Nat)
  | hostData (host addr len : Nat) (poison : Bool)
  | hostRd (host addr len : Nat)
  | dcEvent (host kind base pages tag : Nat)
  | irq (host vec : Nat)
  | hotPlug (vcs vppb : Nat)
  | dpcMsi (vcs vppb : Nat)
  | viral (vcs : Nat)
  | viralDev (vcs lp : Nat)
  | aer (vcs fn code : Nat)
  | cfgData (vcs : Nat) (words : List Nat)
  | fcfUr (vcs : Nat)
  | ideKm (lp what key : Nat)
  | csrData (p : Path) (words : List Nat)
  | cmdResp (p : Path) (op rc detail : Nat) (words : List Nat)
  | ranger (die : Nat) (text : String) (words : List Nat)
  | journal (id dst : Nat)
  | journalAck (id src : Nat)
  | mapWr (dev blk bits : Nat) (copy : Nat)
  | arbGrant (id code : Nat)
  | pwrReq (dom st : Nat)
  | pwrStep (dom step : Nat)
  | supply (dom mv wlud rbb : Nat)
  | fence (ep : Nat)
  | fenceMark (ep ni : Nat)
  | unfence (ep : Nat)
  | closed (ep : Nat)
  | netFlit (id rt : Nat)
  | netDrop (id : Nat)
  | resend (xid : Nat)
  | gklWord (ep w copies : Nat)
  | gklFlit (ep : Nat) (f : TxFlit) (resent : Bool)
  | gklWire (ep win : Nat) (lanes : List (Nat × List Int))
  | gklPhy (ep : Nat) (what a b : Nat)
  | gklLane (ep : Nat) (lanes : List (Nat × List Int))
  | sys (link what : Nat) (args : List Nat)
  | wake (unit : Nat)
  | copyRd (dev addr len tag : Nat)
  | heartbeat (die : Nat) (seen : Bool)
  | flashWr (die area idx : Nat)
  | spdm (lp code : Nat) (args : List Nat)
  | pin (p : Pin)
deriving DecidableEq, Repr

/-! ## Packets and cluster buffers (spec/03) -/

/-- What a packet carries: a request with its address at the device and the device's LD-ID, a response, a copy or zero write of a data mover,
a mirror record with its header words, captured bytes and length, a translated request to another package, a BISnp toward a
host, the answer of a management command, or another message for another package. -/
inductive Body
  | req (r : Req) (addr ldId : Nat)
  | rsp (flow : Nat) (k : RespKind) (dl : DevLoad)
  | copy (die slot blk dev line : Nat) (poison : Bool)
  | zero (dev bpage : Nat)
  | mirror (sess seq : Nat) (words : List Nat) (cap recLen : Nat)
  | remote (r : Req) (m : GTx)
  | far (m : GTx)
  | snp (host key : Nat) (k : BiSnp)
  | mgmt (p : Path) (op rc detail : Nat) (words : List Nat)
deriving DecidableEq, Repr

/-- A packet and its queue descriptor: class, size, ingress (below 192 a logical port, 192 + d the data mover of die d,
196 + d the GnokuLink-P port of die d, 200 the switch), destination (below 192 a logical port, 192 + d the -P port of
die d), slice, weight, colour and the rate of its ingress (R100, R113, R286, R303). -/
structure Pkt where
  flow   : Nat
  cls    : Nat
  bytes  : Nat
  src    : Nat
  dst    : Nat
  host   : Option Nat
  slice  : Option Nat
  weight : Nat
  color  : Nat
  charge : Nat
  rate   : Nat
  local1 : Bool
  body   : Body
deriving DecidableEq, Repr

/-- A packet in ingress staging; a forbidden one waits its turn with its answer; `orig` marks a packet that came from the
link partner, whose credit returns and which mirror sessions see (R97, R125, R291). -/
structure Staged where
  pkt  : Pkt
  deny : Option RespKind
  orig : Bool
deriving DecidableEq, Repr

/-- A packet in a cluster buffer: its cells still held, its egress (0 to 7 a logical port of the cluster, 8 + r the
virtual output queue of router r), how far its transmission is, and the time by which its last byte has arrived (R96, R104, R111,
R114). -/
structure BufPkt where
  pkt   : Pkt
  cells : Nat
  egr   : Nat
  ct    : Bool
  sent  : Nat
  till  : Nat
deriving DecidableEq, Repr

/-- The scheduler of one egress (R116, R303, R304): the queue whose turn it is at each level, deficits per queue,
ready-but-unserved slots of levels 1 and 2, slots since Q5 and Q6 were served, and which of the two goes next. -/
structure Egr where
  turn0  : Nat
  turn1  : Nat
  turn2  : Nat
  defi   : Arr Nat
  starv1 : Nat
  starv2 : Nat
  lowGap : Nat
  low6   : Bool
deriving DecidableEq, Repr

/-- The forwarding core: staging per logical port and class (key lport * 8 + class), ejection staging per cluster and
class, and the cluster buffers in arrival order, with the schedulers (key cluster * 64 + egress) (R96, R97,
R302). -/
structure FwdSt where
  stag   : Arr (List Staged)
  eject  : Arr (List Pkt)
  buf    : Arr (List BufPkt)
  egr    : Arr Egr
deriving DecidableEq, Repr

/-- A mirror session's own state (R127 to R130). -/
structure MirSess where
  seq     : Nat
  picked  : Nat
  written : Nat
  told    : Nat
  lastAt  : Nat
deriving DecidableEq, Repr

/-- A request in flight: the generation it was checked under, its ingress die, and, once translated, its page and the
devices that owe it an answer (a backend device, 1000 + the logical port of a passthrough device, 2000 + a host's logical
port, 3000 + a package); for a shared line its home slice (`homeNo`) and key and the grant: 1 none, 2 S, 3 E, and from 9 on the write
of a writeback, whose owner keeps nothing, S or E; for a request of another package the exit die
of the route back to it, or 4 for none, + 8 * (its package + 8 * its router), and whether its response carries the congestion bit (R124, R166, R235, R274, R275, R301, R396). -/
structure Flight where
  req    : Req
  die    : Nat
  gen    : Nat
  slice  : Option Nat
  color  : Nat
  page   : Option (Nat × Nat)
  devs   : List Nat
  poison : Bool
  devLoad : DevLoad
  home   : Option (Nat × Nat)
  grant  : Nat
  addr   : Nat
  via    : Option Nat
  cg     : Bool
deriving DecidableEq, Repr

/-! ## Gates and slices (spec/07, spec/08) -/

/-- Gate generations: the newest made, the one in force on each die, the register files of older generations still
needed, the requests in flight, and the timers of R278 and R282. Generations count up here; registers show them modulo
2^16. -/
structure GateSt where
  newest   : Nat
  inForce  : List Nat
  snaps    : List (Nat × Arr Nat)
  told     : Nat
  target   : Nat
  syncAt   : Nat
  warned   : Bool
  badTold  : Nat
  lastViol : List Nat
deriving DecidableEq, Repr

/-- Shapers and policers: bucket levels above what registers show, red periods, the last refilled µs, the register
file in force until the next refill, and the RED_DL in force (R297, R301, R307, R308). -/
structure QosSt where
  tc     : Arr Nat
  tp     : Arr Nat
  red    : Arr Nat
  lastUs : Nat
  old    : Option (Arr Nat)
  redDl  : Nat
deriving DecidableEq, Repr

/-! ## Translation and placement (spec/04) -/

/-- A placement entry (Table 4.2); STATE is 0 UNMAPPED, 1 MAPPED, 2 MIGRATING, 3 QUARANTINED (Table 4.3). -/
structure PtEnt where
  state  : Nat
  poison : Bool
  tier   : Nat
  run    : Nat
  hint   : Nat
  dev    : Nat
  bpage  : Nat
  twin   : Nat
deriving DecidableEq, Repr

/-- A twin table entry (Table 4.4). -/
structure TwEnt where
  v     : Bool
  dev   : Nat
  bpage : Nat
deriving DecidableEq, Repr

/-- A translation cache entry: LD, run size (log2 of pages), run-aligned page and the placement fields (R144). -/
structure CEnt where
  ld   : Nat
  k    : Nat
  page : Nat
  ent  : PtEnt
  ptw  : TwEnt
deriving DecidableEq, Repr

/-- An outstanding miss of a die, into which every request that waits for the page merges: the device last read, whether that was the
second read of R139, and how many older reads are still to return and be discarded (R145, R150). -/
structure Miss where
  die   : Nat
  ld    : Nat
  page  : Nat
  dev   : Nat
  second : Bool
  stale : Nat
deriving DecidableEq, Repr

/-- A hotness table entry (R161). -/
structure Hot where
  ld    : Nat
  page  : Nat
  count : Nat
deriving DecidableEq, Repr

/-- The working state of a migration slot beside its registers (R165 to R173): its arbiter grant, source and destination,
the window (bit per 4 KiB block), the blocks left in the pass, those to issue again, the chunk in flight, the blocks of the
last sweep, who has answered, and what it serves. -/
structure MigSt where
  act      : Nat
  srcDev   : Nat
  srcPage  : Nat
  dstDev   : Nat
  dstPage  : Nat
  window   : Nat
  todo     : Nat
  again    : Nat
  busy     : Option Nat
  found    : Nat
  ack      : Nat
  abandons : Nat
  holdAt   : Nat
  swept    : Bool
  drain    : Bool
  ring     : Option (Nat × Nat)
deriving DecidableEq, Repr

/-- What follows a placement write, a remap or a journal acknowledgement (R139, R150, R218). -/
inductive Cont
  | nothing
  | migFlip (die slot : Nat)
  | grant (ctx : Nat)
  | release (eid : Nat) (base pages : Nat)
  | poison (dev reason : Nat)
  | quarantine (host : Nat)
  | restore (host : Nat) (eid : Nat)
  | offer (host : Nat) (eid : Nat)
  | result (ring idx status : Nat) (data : List Nat)
  | twinSet (die slot : Nat)
  | freePage (dev page n : Nat)
  | grantReserved (ctx : Nat)
  | grantWritten (ctx : Nat)
deriving DecidableEq, Repr

/-- A placement write on its way to both copies; `each` when its remap is followed by one shootdown for each run or single page (R139,
R199). -/
structure PWrite where
  wid   : Nat
  ld    : Nat
  lo    : Nat
  n     : Nat
  remap : Bool
  each  : Bool
  cont  : Cont
deriving DecidableEq, Repr

/-- A shootdown: who must answer it, who has, at which dies of this package it has run, and the group of shootdowns that one write is
followed by (R150, R151, R199); dies are bits 0 to 3, packages bits 4 to 11. -/
structure Shoot where
  rid  : Nat
  ld   : Nat
  lo   : Nat
  n    : Nat
  need : Nat
  got  : Nat
  ran  : Nat
  grp  : Nat
  cont : Cont
deriving DecidableEq, Repr

/-- Translation state: placement table and twin table (held in backend memory), caches, the requests that wait for their translation in
order of arrival, misses, held requests, hotness, migration slots, writes and shootdowns on their way, the LDs' event logs (handle and 128
bytes of each record, the next handle, and the number, first and last time of records lost to an overflow; R160), the reason each poisoned page was poisoned
for (R160, R327), and the counters and
timers the rules name. -/
structure XltSt where
  pt      : Arr PtEnt
  tw      : Arr TwEnt
  cache   : Arr (List CEnt)
  xwait   : List Nat
  miss    : List Miss
  hold    : List (Nat × Nat)
  heldPg  : List (Nat × Nat × Nat)
  hot     : Arr (List Hot)
  sample  : Arr Nat
  mig     : Arr MigSt
  pws     : List PWrite
  shoots  : List Shoot
  nextId  : Nat
  epoch   : Nat
  epochAt : Nat
  startAt : Nat
  backoff : Arr Nat
  scan    : Nat
  unmapAt : Arr Nat
  rewrite : Arr Nat
  degraded : List (Nat × Nat)
  ldLog   : Arr (List (Nat × List Nat))
  ldNext  : Arr Nat
  why     : Arr Nat
  ldOver  : Arr (Nat × Nat × Nat)
deriving DecidableEq, Repr

/-! ## Capacity (spec/05) -/

/-- A block of the pool (Table 5.1): RESERVED or not, withdrawn for a second copy while it still holds pages (R140), the pages not yet
zeroed, the pages in use. An unlisted block of a joined device has every page still to zero (R186). -/
structure Blk where
  resv : Bool
  leave : Bool
  dirty : Nat
  used : Nat
deriving DecidableEq, Repr

/-- A granted range (R197); `quar` while QUARANTINED, `going` while its release runs. -/
structure Ext where
  eid     : Nat
  ld      : Nat
  base    : Nat
  pages   : Nat
  slice   : Option Nat
  tag     : Nat
  took    : Bool
  byAt    : Nat
  quar    : Bool
  shared  : Bool
  going   : Bool
deriving DecidableEq, Repr

/-- One placed run of a grant: LD page, pages of the run, device and page, twin index and twin (R194, R199). -/
structure Place where
  lo    : Nat
  n     : Nat
  dev   : Nat
  bpage : Nat
  twin  : Nat
  tdev  : Nat
  tpage : Nat
deriving DecidableEq, Repr

/-- A grant context (R199, R202): its request, its reserved range, the placed runs of the pieces still to do, its step,
when it was accepted, the region's policy at acceptance and the LD ranges it writes (R188, R209). -/
structure Ctx where
  busy   : Bool
  ring   : Nat
  idx    : Nat
  slice  : Nat
  host   : Nat
  region : Nat
  base   : Nat
  pages  : Nat
  done   : Nat
  runs   : List Place
  step   : Nat
  tag    : Nat
  at0    : Nat
  pol    : List Nat
  targets : List (Nat × Nat)
deriving DecidableEq, Repr

/-- An ALLOC waiting in admission (R198): slice, ring, entry index, region, size in bytes. -/
structure AllocReq where
  slice  : Nat
  ring   : Nat
  idx    : Nat
  region : Nat
  size   : Nat
deriving DecidableEq, Repr

/-- What is left of a pending Release Capacity event (R205): host, the range the event named, the part not settled, slice. -/
structure RelEv where
  host  : Nat
  ev    : Nat × Nat
  base  : Nat
  pages : Nat
  slice : Nat
deriving DecidableEq, Repr

/-- A binding entry (R221, R222): logical port, LD-ID, VCS and vPPB; `present` while a device is bound through it. -/
structure Bnd where
  lport   : Nat
  ldId    : Nat
  vcs     : Nat
  vppb    : Nat
  present : Bool
deriving DecidableEq, Repr

/-- Allocator state (R182 to R224): blocks of devices and segments, admission, contexts (8 is the initial grant) and those
between two pieces, extents, release events, host state times, the binding table, drains, the journal (each record with those that have
still to acknowledge it: the standby die, 4 + a package; R218), initial grants asked
for and done, the block a joining device has come to, and devices that joined by hot add. -/
structure AllocSt where
  nblk    : Arr Nat
  nseg    : Arr Nat
  joined  : List Nat
  blks    : Arr Blk
  queue   : List AllocReq
  lastSlc : Nat
  ctxs    : Arr Ctx
  exts    : List Ext
  nextTag : Nat
  nextEid : Nat
  relEvs  : List RelEv
  hostAt  : Arr Nat
  bnds    : List Bnd
  drains  : List Nat
  journal : List (Nat × List Nat × Cont)
  inits   : List (Nat × Nat)
  inited  : List (Nat × Nat)
  rebuild : Bool
  lowTold : Bool
  moveCopy : Option Nat
  bindLater : List (Nat × Nat × Nat)
  paused  : List Ctx
  front   : Arr Nat
  hotAdd  : List Nat
deriving DecidableEq, Repr

/-! ## Coherence (spec/06) -/

/-- A directory way (Table 6.1, R231): STATE 0 I, 1 S, 2 O; tag; coarse or not; holders as host IDs or as group bits. -/
structure DirWay where
  way    : Nat
  state  : Nat
  tag    : Nat
  crs    : Bool
  ptrs   : List Nat
  grp    : Nat
  bad    : Bool
deriving DecidableEq, Repr

/-- An open line at its home slice (R235 to R248): the request being handled, or an eviction; the snoops still unanswered with
the time each was sent; the strongest BIRsp so far (0 I, 1 S, 2 E); whether the owner's data is forwarded or poison; phase 0
waiting for a way, 1 for answers or data, 2 granted; whether it holds its source's reserved tracker entry; and the requests
chained behind it, each with that mark. -/
structure OpenLine where
  key    : Nat
  q      : Option SReq
  evict  : Bool
  snoops : List (Nat × Nat)
  ans    : Nat
  fwd    : Bool
  poison : Bool
  phase  : Nat
  rsv    : Bool
  chain  : List (SReq × Bool)
deriving DecidableEq, Repr

/-- An open writeback at a slice (R240, R241): line, host, its transaction, whether its write to memory has begun, the host and
transaction that WB_GO names, whether it came as a header and so fills the writeback buffer of R244, and the state its owner keeps. -/
structure WbRec where
  key  : Nat
  host : Nat
  id   : Nat
  gone : Bool
  named : Option (Nat × Nat)
  hdr  : Bool
  st   : Nat
deriving DecidableEq, Repr

/-- A home slice: sets of ways in LRU order (most recent first), open lines, open writebacks, owed sources in order, the
eviction table, the arbiter's pointer over sources, and the sets moved to spares; an owed source stands once for each RETRY it was given (R241 to R249, R481). -/
structure DirSt where
  sets   : Arr (List DirWay)
  opens  : List OpenLine
  wbs    : List WbRec
  owed   : List Nat
  evTab  : List Nat
  ptr    : Nat
  spared : List Nat
deriving DecidableEq, Repr

/-- A snoop record at the owner's port unit (R239): line, host, the requester's host and transaction, and the owner's writeback once it
has come. -/
structure SnoopRec where
  host  : Nat
  key   : Nat
  req   : Option (Nat × Nat)
  wrote : Option Nat
deriving DecidableEq, Repr

/-- Coherence at the port units: snoop records, requests refused with RETRY by slice, shared requests kept by slice in order
of arrival with the time each was first sent, hosts whose failure walk is to run, and the rate of line poison events per host (R237, R239, R246, R251). -/
structure CohSt where
  dirs     : Arr DirSt
  recs     : List SnoopRec
  retried  : List (Nat × SReq)
  shared   : List (Nat × SReq)
  walks    : List Nat
  poisonAt : Arr (Nat × Nat)
deriving DecidableEq, Repr

/-! ## Ports (spec/02) -/

/-- The CXL.cachemem IDE of a link (R77, R78): containment mode or skid mode, the number of its key (each link has its own), whether its
host is the IDE_KM requester, and whether the stream runs. -/
structure IdeLink where
  cont : Bool
  key  : Nat
  host : Bool
  on   : Bool
deriving DecidableEq, Repr

/-- Port state beyond registers: the VCSs created and the upstream port each has (R58), viral per VCS and the hosts that enabled it, links whose CXL.cachemem IDE
stream is insecure, L0p active widths in lanes and a width asked for and held back (R114), links in L1, ports held in link-down for a
failed host, times of link loss, the reason in each vPPB's DPC status (key vcs * 32 + vppb), the settings a host wrote to each vPPB's
DPC control (4 + 2 * CA_SEL + NF_TRIG, the same key; R94), the partner of each trained downstream port, ports held in reset by
their slot channel, the IDE of each link, ports with an analysis binding, vPPBs with Presence Detect Changed set and those whose host
is still to be told (R90), AER status (key vcs * 33 + function, bit c for code c; R92), the BARs and mailbox words of each Fresen Control
Function (keys host * 8 + word and host * 2048 + word; R72), the poisoned packets each port forwarded (R91), the ports whose device was there at
start behind a slot channel and has still to train (R221), the LDs present but not trained that an amendment has bound (R223), and the slots
offered and not yet classed, with the fraction kept, in parts of a slot (`slotDen`; R550). -/
structure PortSt where
  vcs      : List Nat
  vcsPort  : Arr Nat
  viral    : List Nat
  viralEn  : List Nat
  insecure : List Nat
  l0p      : Arr Nat
  l0pWish  : Arr Nat
  l1       : List Nat
  heldDown : List Nat
  lossAt   : Arr Nat
  dpcAt    : Arr Nat
  dpcCtl   : Arr Nat
  device   : Arr Partner
  inReset  : List Nat
  ide      : Arr IdeLink
  ana      : List Nat
  pdc      : List Nat
  pdcOwed  : List Nat
  aer      : Arr Nat
  bar      : Arr Nat
  mbox     : Arr Nat
  poisCnt  : Arr Nat
  startLp  : List Nat
  owedBind : List (Nat × Nat)
  slotAcc  : Arr Nat
deriving DecidableEq, Repr

/-! ## On-package network (spec/10) -/

/-- A packet in the network (R342, R343): plane, router it is at, destination router, epoch bit, dimension order, direction
and hops left in each dimension, the virtual channel of each dimension, and the input it came by: twice the direction of its last hop plus
the virtual channel of that link, 8 for the interface (R341). -/
structure NetPkt where
  nid   : Nat
  pkt   : Pkt
  plane : Nat
  rtr   : Nat
  dst   : Nat
  epoch : Nat
  order : Nat
  cdir  : Nat
  rdir  : Nat
  chops : Nat
  rhops : Nat
  vcC   : Nat
  vcR   : Nat
  inp   : Nat
deriving DecidableEq, Repr

/-- A packet waiting at its network interface for its route word or its plane's drain (R354, Table 16.3). -/
structure NiWait where
  src   : Nat
  plane : Nat
  dst   : Nat
  pkt   : Pkt
deriving DecidableEq, Repr

/-- One bank of route words: whether it holds valid words, the ORDER of each plane, and the words that differ from the
shortest path (key router * 128 + plane * 32 + destination) (R342, R344, R345). -/
structure Bank where
  used  : Bool
  order : Nat
  ovr   : Arr Nat
deriving DecidableEq, Repr

/-- An exchange that expects an answer (R358): tag, when it was last sent, how often it was resent. -/
structure Xch where
  xid  : Nat
  at0  : Nat
  sent : Nat
  told : Bool
deriving DecidableEq, Repr

/-- The network: packets in transit in order, packets waiting at interfaces, the two banks, the running reconfiguration,
lost links still to leave service, fence bits per interface, the span closure, and exchanges waiting for an answer (R340, R344, R350 to R352,
R355, R358). -/
structure NocSt where
  net     : List NetPkt
  wait    : List NiWait
  nextNid : Nat
  bank0   : Bank
  bank1   : Bank
  act     : Option Nat
  loadAt  : Nat
  swAt    : Option Nat
  pend    : List (Nat × Nat)
  niFence : Arr Nat
  niSent  : Arr Nat
  spanQ   : List Nat
  reopen  : List Nat
  xchs    : List Xch
  refAt   : Arr Nat
  badWord : List (Nat × Nat)
  answered : List (Nat × Nat)
deriving DecidableEq, Repr

/-! ## Work rings (spec/09) -/

/-- What the data mover does for a COPY or FILL (R321 to R323, R336, R337): its gate generation, the next chunk, the channels
it holds (0 while it waits for one), a chunk in flight, and what was seen and written so far. -/
structure Job where
  gen     : Nat
  next    : Nat
  ch      : Nat
  flying  : Bool
  redo    : Bool
  stalled : Bool
  pois    : Bool
  unm     : Bool
  wrote   : Nat
  nowPois : Bool
  nowLen  : Nat
deriving DecidableEq, Repr

/-- A dispatched entry (R331): its index and slots, its words and extension, and how it ended; `mute` for an entry that
RESUME_SKIP completes without effect. -/
structure RingEnt where
  idx     : Nat
  slots   : Nat
  w       : List Nat
  ext     : List Nat
  started : Bool
  done    : Bool
  mute    : Bool
  status  : Nat
  detail  : Nat
  data    : List Nat
  job     : Option Job
deriving DecidableEq, Repr

/-- A fetched slot kept for dispatch: its words, none when the read failed, and for a FENCE of scope 1 the entries it waits
for (R326, R330). -/
structure Fetched where
  idx   : Nat
  w     : Option (List Nat)
  waits : List (Nat × Nat)
deriving DecidableEq, Repr

/-- A work ring: its doorbell-page registers, indices, fetched slots, dispatched entries in index order, stale slots with the
number and time of re-reads, and the timers of R316, R330 and R332. -/
structure Ring where
  state   : Nat
  why     : Nat
  err     : Nat
  ridx    : Nat
  rbase   : Nat
  rcba    : Nat
  irqMode : Nat
  vec     : Nat
  log2    : Nat
  ver     : Nat
  poll    : Nat
  tail    : Nat
  head    : Nat
  disp    : Nat
  host    : Nat
  die     : Nat
  fetched : List Fetched
  ents    : List RingEnt
  stale   : List (Nat × Nat × Nat)
  cbBusy  : Bool
  cbAgain : Bool
  taking  : Bool
  cbAt    : Nat
  cbDirty : Bool
  heldAt  : Option Nat
  heldTold : Bool
  errPend : Bool
  pollAt  : Nat
deriving DecidableEq, Repr

/-- A slice's result ring (R316, R332). -/
structure ResRing where
  on      : Bool
  host    : Nat
  closing : Bool
  rbase   : Nat
  rcba    : Nat
  irqMode : Nat
  vec     : Nat
  log2    : Nat
  prod    : Nat
  cons    : Nat
  cbBusy  : Bool
  taking  : Bool
  cbAt    : Nat
  cbDirty : Bool
  retryAt : Nat
deriving DecidableEq, Repr

/-- Rings by package-wide number, result rings by slice, and the ring served last on each die (R310, R313, R332). -/
structure RingSt where
  rings : Arr Ring
  res   : Arr ResRing
  rot   : Arr Nat
deriving DecidableEq, Repr

/-! ## Maintenance (spec/16) -/

/-- An activity known to the arbiter (R482): its request, when it arrived, and what it serves. -/
structure Act where
  id    : Nat
  q     : ActReq
  at0   : Nat
  tag   : Nat
deriving DecidableEq, Repr

/-- A plan record (R472): the readings of a cycle, the set point of every region and the actions asked for. -/
structure PlanRec where
  mon   : Monitors
  vset  : List Nat
  acts  : List ActReq
deriving DecidableEq, Repr

/-- A migration the allocator assigned (R162, R163, R157, R217): its arbiter request, die, page, destination page, and whether it is a twin rebuild, a drain or a ring's MIGRATE (ring and entry). -/
structure Assign where
  act     : Nat
  die     : Nat
  ld      : Nat
  page    : Nat
  dstDev  : Nat
  dstPage : Nat
  rebuild : Bool
  drain   : Bool
  ring    : Option (Nat × Nat)
deriving DecidableEq, Repr

/-- Maintenance: the arbiter, the re-planning cycle with its requests and the lane swaps it has
still to ask for, baselines, the sets found in error by the last sweep (slice * 16384 + set),
heartbeat (time of the lead's last word, of its firmware's last refresh and of a follower's last answer), control words waiting for a
rewrite, voltage steps and re-equalisations under way, the flash event log with its rate, and requests that wait for a gate rule to be rewritten (R479). -/
structure HlthSt where
  running  : List Act
  waiting  : List Act
  nextAct  : Nat
  assigns  : List Assign
  planAt   : Nat
  planOpen : Bool
  planActs : List Nat
  planSwaps : List (Nat × Nat × Nat)
  avSteps  : Arr Nat
  plans    : List PlanRec
  based    : Bool
  laneBase : Arr Nat
  ceSeen   : List Nat
  hbLead   : Nat
  hbWord   : Nat
  hbAns    : Nat
  withdrawn : List Nat
  down     : List Nat
  fixes    : List EccHit
  avRun    : List (Nat × Nat × Nat)
  reeq     : List (Nat × Nat × Nat)
  scrubs   : Arr Nat
  elog     : List Ev
  elogTok  : Nat
  elogAt   : Nat
  lossAt   : Nat
  held     : List Out
  gateWait : List Req
deriving DecidableEq, Repr

end Machine
end Sys2Proof
end

