-- ==== Sys2Proof/Machine/Parts2.lean ====
section
/-! DEFINITION. More pieces of the machine's state: start and trust, GnokuLink, power, slot channels, counters, management,
Ranger and the supply. -/

namespace Sys2Proof
namespace Machine

/-! ## Start and trust (spec/15) -/

/-- Where an amendment came from: a management path, an AMEND entry of a ring. -/
inductive AmdSrc
  | path (p : Path)
  | ring (n idx : Nat)
deriving DecidableEq, Repr

/-- An amendment being handled (R456 to R459): waiting (0), asked of the arbiter (1), granted and its record being written (2),
committed (3); its arbiter request. -/
structure AmdRun where
  amd   : Amendment
  src   : AmdSrc
  phase : Nat
  act   : Nat
deriving DecidableEq, Repr

/-- A record on its way to flash (R447, R449): a log record, an event of a slot of the event log, a plan record. -/
inductive NvRec
  | log (b : LogBody)
  | ev (e : Ev)
  | plan (p : PlanRec)
deriving DecidableEq, Repr

/-- An image transfer in progress: the slot (true is B) and how far it has been written without a gap (R517). -/
structure Xfer where
  slotB : Bool
  upto  : Nat
deriving DecidableEq, Repr

/-- A firmware activation (R462 to R464): the path that asked, arbiter request, the image, its slot, the step of R463 it has come to, the old lead,
the dies still to reload. -/
structure FwRun where
  path  : Path
  act   : Nat
  img   : Image
  slotB : Bool
  step  : Nat
  lead0 : Nat
  todo  : List Nat
deriving DecidableEq, Repr

/-- Start and trust: OTP, the flash of each die, the slot tried and read, policy tables, running image, amendments waiting and
the one in hand, records on their way to flash and how many of them have begun, image transfer, staged image, activation, the
digests of measurement 4, the last signed SPDM response, supply-sag timers, and ports' SPDM transcripts (R443 to R469). -/
structure StartSt where
  otp     : Otp
  flash   : List FlashIn
  tryB    : Bool
  tried   : Bool
  badRecs : Bool
  cand    : Option Image
  image   : Option Image
  pol     : Policy
  amdq    : List AmdRun
  amd     : Option AmdRun
  nvq     : List NvRec
  nvBegun : Bool
  nseq    : Nat
  xfer    : Option Xfer
  staged  : Option (Image × Bool)
  fw      : Option FwRun
  chain   : List Nat
  signed  : List Nat
  goodAt  : Nat
  started : Nat
  elogAt  : Nat
deriving DecidableEq, Repr

/-! ## GnokuLink (spec/11, spec/12) -/

/-- A lane swap on its way: group, position, emergency or planned, SWAP_READY sent or not, arbiter request (R371, R372). -/
structure Swap where
  grp   : Nat
  pos   : Nat
  emerg : Bool
  told  : Bool
  act   : Nat
deriving DecidableEq, Repr

/-- A message's reassembly at the receiver: its header and the data slots still to come (R377); CG, COL and EP of its flit
(R378). -/
structure Reasm where
  hdr  : GHdr
  left : Nat
  cg   : Bool
  col  : Nat
deriving DecidableEq, Repr

/-- A GnokuLink endpoint beside its registers. Physical layer: failed attempts, when the attempt or the back-off began, own
lanes locked, per received lane the LOCKED blocks and the bad blocks in a row and the lane ID found, the partner's LPBK bit,
the last retrain for a failed group, whether this is the looping side, wake patterns sent and when, failed lanes, symbol
corrections per lane in the millisecond, the swap under way, the lane being compared as receiver. Link layer: flits not acknowledged, flits held ahead, reassembly
per class, freed and received credits (header key tc, data key 8 + tc), the partner's counts and own spend, classes whose CREDIT
has come, times of the state, of replay events, timer, expiries in a row and their flit, MODE request, NAK, one-way latency,
idle request sent, last data flit, last CREDIT round, messages waiting for credit. Stream sent: its bytes when it last started or stopped and that time, which
with the seed of R363 are the state of every lane's scrambler, the next window not yet used, and per lane group 1 + the position for which the
transmitter's spare stands in, 0 for none (R362, R363, R370, R374); PRBS-31 bit errors counted per lane (R369). -/
structure GklEp where
  tries   : Nat
  trainAt : Nat
  backAt  : Option Nat
  locked  : Bool
  goodBlk : Arr Nat
  badBlk  : Arr Nat
  ids     : Arr Nat
  lpbkRx  : Bool
  failAt  : Option Nat
  looping : Bool
  cold    : Bool
  wakes   : Nat
  wakeAt  : Nat
  lost    : List Nat
  corr    : Arr Nat
  corrAt  : Nat
  swap    : Option Swap
  cmp     : Option (Nat × Nat)
  replay  : List TxFlit
  held    : List GFlit
  reasm   : Arr (Option Reasm)
  freed   : Arr Nat
  recvd   : Arr Nat
  limit   : Arr Nat
  spent   : Arr Nat
  crdSeen : Nat
  initAt  : Nat
  events  : List Nat
  lastEv  : Nat
  timer   : Nat
  exps    : Nat
  expSeq  : Nat
  mode    : Option (Nat × Nat)
  nak     : Option (Nat × Nat × Nat)
  lat     : Nat
  idle    : Bool
  lastTx  : Nat
  crdAt   : Nat
  txq     : List GTx
  strmByte : Nat
  strmAt  : Nat
  txWin   : Nat
  txSpare : Arr Nat
  errs    : Arr Nat
deriving DecidableEq, Repr

/-- Federation (R395 to R399): the packages that have joined, when each member's BEAT came last, when this package sent its own, and what
HELLO made of each die's GnokuLink-P link since it came UP: 0 none yet, 1 it has joined, 2 refused. -/
structure SysSt where
  joined : List Nat
  beatAt : Arr Nat
  sentAt : Nat
  hello  : Arr Nat
deriving DecidableEq, Repr

/-! ## Power (spec/13) -/

/-- A power domain beside DOM_STS: target of the attempt, rounds of DELAY, blocks that accepted, largest DELAY and whether any
block delayed, when REQUEST was sent, when requests began to be refused, whether that was told, the steps of entry or return
done, the state it returns from, the run of the return, when the step began and when the wake came, and the time of its last
work (R404 to R412). -/
structure PwrDom where
  target  : Nat
  rounds  : Nat
  accepts : List Nat
  delayed : List Nat
  delay   : Nat
  reqAt   : Nat
  refAt   : Option Nat
  told    : Bool
  step    : Nat
  from0   : Nat
  run     : Nat
  stepAt  : Nat
  wakeAt  : Nat
  workAt  : Nat
deriving DecidableEq, Repr

/-! ## Slot channels (spec/14) -/

/-- A slot channel beside its registers: gate on, since when and when it was last turned off; the off time after a trip; start
level; since when the input is inside the window (none: outside); since when the limit is engaged; since when ON without the
limit; FET_SHORT watch armed; arbiter request of a CYCLE and whether it runs; sag event told; when PG_INT rose;
PERST# asserted (R417 to R436). -/
structure SlotCh where
  gate    : Bool
  onAt    : Nat
  offAt   : Nat
  offFor  : Nat
  start   : Nat
  inAt    : Option Nat
  limAt   : Option Nat
  calmAt  : Nat
  armed   : Bool
  act     : Option Nat
  cycling : Bool
  sagTold : Bool
  pgAt    : Nat
  perst   : Bool
deriving DecidableEq, Repr

/-! ## Counters, management, Ranger, supply (spec/17 to spec/19) -/

/-- Slice counters (key slice * 8 + j) with their overflow marks (R505). -/
structure CntSt where
  slc  : Arr Nat
  slcO : Arr Nat
deriving DecidableEq, Repr

/-- A management command as the lead's queue holds it: the vendor commands of Table 18.3, the FM API commands of R515, and a single
access to the global alias. -/
inductive MCmd
  | getVersion (cmax : Nat)
  | identify
  | csrRead (addr n : Nat) (peek : Bool)
  | csrWrite (addr : Nat) (vals : List Nat)
  | events (since : Nat) (flash : Bool)
  | submit (a : Amendment)
  | xferStart
  | xferData (off len : Nat)
  | xferEnd (img : Image)
  | activate
  | quar (host : Nat) (restore : Bool)
  | fmSwitch
  | fmPort (lp : Nat)
  | fmVcs (v : Nat)
  | fmOther (op : Nat)
  | word (addr size : Nat) (val : Option Nat)
deriving DecidableEq, Repr

/-- A management command that waits for an amendment, a handover or a failover to end (R10, R511, R512). -/
structure HeldCmd where
  path : Path
  cmd  : MCmd
deriving DecidableEq, Repr

/-- Management: session versions by path (absent is 1), high-word latches by path, writes that wait, paths with a background
command running, lead functions withdrawn, a failover or handover under way (the dies that do not answer), dies whose complex
reloads. -/
structure MgmtSt where
  sess   : List (Path × Nat)
  latch  : List (Path × Nat × Nat)
  held   : List HeldCmd
  bg     : List Path
  moving : Bool
  reload : List Nat
deriving DecidableEq, Repr

/-- The Ranger of a die: token window words, when the unlock ends, times of failed checks, when LOCKOUT ends, trace records. -/
structure MonDie where
  win    : Arr Nat
  until0 : Nat
  fails  : List Nat
  outEnd : Nat
  trace  : List (List Nat)
deriving DecidableEq, Repr

/-- Supply and clocks: VIN above UVLO, COLD_RST# low and acting, thermal trip latched, sensors at 120 °C or more on the last
read (die * 8 + sensor), dies whose reading is at their warning, re-lock attempts per region, every always-on sensor below 95 °C, and the
units whose clock is gated, by the numbers of `gateNo` (R405). -/
structure ElecSt where
  vin    : Bool
  reset  : Bool
  trip   : Bool
  hot    : List Nat
  warn   : List Nat
  relock : Arr Nat
  aonOk  : Bool
  gated  : List Nat
deriving DecidableEq, Repr

end Machine
end Sys2Proof
end

