-- ==== Sys2Proof/Machine/Regs.lean ====
section
/-! DEFINITION. The register fields of the FX-768 and the register map, from the register tables of spec/01 to spec/19:
`CFld` names every RWL or RWA field, `SFld` every other field; a row of `regTable` is one register. -/

namespace Sys2Proof
namespace Machine

/-- Configuration fields: access type RWL or RWA (R3, Table 0.3), written only at start and by amendments (R4). -/
inductive CFld
  | dieProfCtlProfile
  | dieThermCtlWarnC
  | mgmtPathCtlI3cEn
  | mgmtPathCtlI3cSa
  | mgmtPathCtlMctpEn
  | mgmtPathCtlMctpVcs
  | pwrCtlGladeIdleUs
  | pwrCtlClearIdleMs
  | pwrRetRbb
  | pwrRetWludMv
  | pwrRetRetMv
  | pwrLimDpIdle
  | pwrLimDeepest
  | hlthCtlPlanH
  | hlthCtlScrubMs
  | hlthCtlReeqPause
  | hlthCtlAvEn
  | hlthCtlSwapEn
  | hlthCtlReeqEn
  | hlthSlackEmergPs
  | hlthSlackHiPs
  | hlthSlackLoPs
  | hlthMarginEyeHMin
  | hlthMarginEyeWMin
  | hlthMarginCxlVMin
  | hlthMarginCxlTMin
  | hlthVregVmaxMv
  | hlthVregVminMv
  | hlthAgeThWarn
  | nocCtlResendUs
  | nocCtlOrder
  | gklPhyCtlLaneErrTh
  | gklPhyCtlTrainTmo
  | gklPtxEqPost
  | gklPtxEqPre
  | gklLnkCtlIdleNs
  | gklLnkCtlSelEn
  | gklLnkCtlMaxminor
  | gklSysIdSystemId
  | gklSysCfgMembers
  | gklSysLinkV
  | gklSysLinkPeerPkg
  | gklSysLinkPeerDie
  | gklSysRouteV
  | gklSysRouteExitDie
  | portPcfgMaxspd
  | portPcfgLoptEn
  | portPcfgBif
  | portLpcfgAutoBind
  | portLpcfgVcs
  | portLpcfgBind
  | portLpcfgRole
  | portLpmCtlL1En
  | portLpmCtlL0pEn
  | cluFwdCtlCtDis
  | cluFwdCtlCtPref
  | cluCminCminHi
  | cluCminCminLo
  | cluShrCtlEgrShrMax
  | cluMarkCgSev
  | cluMarkSev
  | cluMarkMod
  | mirCtlAlp
  | mirCtlSnap
  | mirCtlDir
  | mirCtlSelKind
  | mirSelLport
  | mirSelHost
  | mirSelSlice
  | mirLoAddr
  | mirHiAddr
  | mirBufBaseBase
  | mirBufSizePages
  | mirWpaAddr
  | cohCtlChainMax
  | cohCtlBisnpTmoMs
  | cohSrCfgV
  | cohSrCfgHomePkg
  | cohSrmapV
  | cohSrmapSr
  | xltCtlWarmEpochs
  | xltCtlMigRate
  | xltCtlEpochMs
  | xltCtlTwinHot
  | xltCtlXltPrefetch
  | xltCtlMigEn
  | xltHotThDemoteTh
  | xltHotThPromoteTh
  | xltMigCtlBackoff
  | xltMigCtlMaxPass
  | xltMigCtlHoldMax
  | xltLdtPages
  | allocCtlZeroRate
  | allocCtlAckTmoS
  | allocCtlGraceS
  | allocCtl2ReclaimS
  | allocT0ResvBlocks
  | allocHqQuota
  | allocRgnPages
  | allocRgnBase
  | allocRpolInitBlocks
  | allocRpolDefined
  | allocRpolShared
  | allocRpolTwin
  | allocRpolSpread
  | allocRpolFallback
  | allocRpolTierPref
  | allocRpolIntlv
  | allocRpolWays
  | allocSqQuota
  | gateCtlSyncWarnMs
  | gateCtlDfltHost
  | gateCtlDfltPt
  | gateCtlDfltLd
  | gateRuleBasePage
  | gateRuleLimitPage
  | gateRuleReqV
  | gateRuleReqLportAny
  | gateRuleReqHostAny
  | gateRuleReqPasidV
  | gateRuleReqLport
  | gateRuleReqHost
  | gateRuleReqKinds
  | gateRulePasidPasid
  | gateRuleTgtTkind
  | gateRuleTgtLdId
  | gateRuleTgtTgt
  | qosCtlRedDl
  | qosCtlColAware
  | qosRsmapV
  | qosRsmapSlice
  | qosPolRateEn
  | qosPolRateCir
  | qosPolPirPir
  | qosPolBktPbs
  | qosPolBktCbs
  | qosSliceKeyV
  | qosSliceKeyPriv
  | qosSliceKeyPasidV
  | qosSliceKeyHost
  | qosSliceKeyPasid
  | qosSliceShapeShEn
  | qosSliceShapeRate
  | qosSliceSchedWeight
  | qosSliceSchedBurst
  | ringCtlMovMin
  | ringCtlResRetryUs
  | slotCtlRetryMax
  | slotCtlFtMult
  | slotCtlPgPol
  | slotCtlPgFn
  | slotCtlPrsntIgn
  | slotCtlEn
  | slotVwinOv
  | slotVwinUv
  | slotLimEwPct
  | slotLimFltMs
  | slotLimVlim
  | slotTimeDischMs
  | slotTimeInsMs
  | pmcCtlPmuUser
  | nvmSagCtlVinNvw
deriving DecidableEq, Repr

/-- Status and command fields: access types RO, RW, RW1C, RC and WO (R3, Table 0.3), and the fields of XLT.BEDEV_b, which the image sets and the switch itself fills and frees (R135, R136). -/
inductive SFld
  | dieDieIdStep
  | dieDieIdPkgId
  | dieDieIdStandby
  | dieDieIdLead
  | dieDieIdDie
  | dieTstampNs
  | dieProfCtlBadSel
  | dieProfEffMigRate
  | dieProfEffCtMixed
  | dieProfEffDpIdle
  | dieProfEffReeqPause
  | dieProfEffL1En
  | dieProfEffL0pEn
  | dieProfEffTwinHot
  | dieProfEffXltPrefetch
  | dieProfEffDeepest
  | dieProfEffMigEn
  | dieProfEffCtPref
  | dieRclkStsR1Fail
  | dieRclkStsR0Fail
  | dieRclkStsR1Unlock
  | dieRclkStsR0Unlock
  | dieRclkStsR1Lock
  | dieRclkStsR0Lock
  | dieThermStsWarn
  | dieThermStsTripped
  | dieThermStsHot
  | dieThermStsPeak
  | dieThermStsTemp
  | dieSupplyStsIin
  | dieSupplyStsVin
  | mgmtPathStsQueued
  | mgmtPathStsI3cDaV
  | mgmtPathStsI3cDa
  | mgmtPathStsMisdirect
  | mgmtCmdCntRefused
  | mgmtCmdCntDone
  | pwrDomStsState
  | pwrDomStsFail
  | pwrDomStsLastWake
  | pwrDomStsNoans
  | pwrDomStsWakes
  | pwrWakeLatDom
  | pwrWakeLatLat
  | hlthVregAtLimit
  | hlthVregVset
  | hlthAgeRoShift
  | hlthAgeSlackPs
  | hlthScrubStsCe
  | hlthScrubStsUe
  | hlthScrubStsSpareUsed
  | hlthArbStsRunning
  | hlthArbStsWaiting
  | hlthArbStsAbandoned
  | hlthFoStsCount
  | hlthFoStsFrom
  | hlthFoStsTo
  | hlthFoNsNs
  | hlthElogStsNext
  | hlthElogStsQueued
  | hlthElogDropCount
  | nocEpochBusy
  | nocEpochSwitched
  | nocEpochDrained
  | nocEpochCur
  | nocEpochCount
  | nocFenceAlloc
  | nocFenceNvm
  | nocFenceMgmt
  | nocFenceDir
  | nocSpanStsBusy
  | nocSpanStsStep
  | nocSpanStsEp
  | nocSpanStsMarks
  | nocRefusedCount
  | nocRtrStsLost
  | nocRtrStsPwr
  | nocRtrStsOldCnt
  | nocRtrErrDisc
  | nocRtrErrPar
  | nocRtV
  | nocRtOrder
  | nocRtColDir
  | nocRtRowDir
  | nocRtPlane
  | nocRtColHops
  | nocRtRowHops
  | gklPhyCtlEn
  | gklPhyStsState
  | gklPhyStsFailWhy
  | gklPhyStsGrpRev
  | gklPhyStsRev
  | gklPhyStsPol
  | gklSpareStsMap
  | gklSwapCmdGo
  | gklSwapCmdResult
  | gklSwapCmdGrp
  | gklSwapCmdPos
  | gklLpbkCtlRefused
  | gklLpbkCtlMode
  | gklLpbkErrLane
  | gklLpbkErrCount
  | gklEyeLane
  | gklEyeHeight
  | gklEyeWidth
  | gklLnkStsState
  | gklLnkStsMajor
  | gklLnkStsMinor
  | gklLnkStsTxSel
  | gklLnkStsRxSel
  | gklLnkStsDownWhy
  | gklLnkStsNes
  | gklLnkSeqTxNext
  | gklLnkSeqTxAcked
  | gklLnkErrCrcFail
  | gklLnkErrReplay
  | gklLnkErr2Dup
  | gklLnkErr2NakSent
  | gklLnkErr2BypBad
  | gklLnkFecCorr
  | gklCrdHavail
  | gklCrdDavail
  | gklSysRouteBad
  | gklSysStsQuorum
  | gklSysStsFresh
  | gklSysStsLeadPkg
  | gklSysStsReach
  | gklSysStsLost
  | portLstsCfgBad
  | portLstsBound
  | portLstsBoundVcs
  | portLstsCxlVer
  | portLstsFlit
  | portLstsIdeOn
  | portLstsPrsnt
  | portLstsMld
  | portLstsMem
  | portLstsCache
  | portLstsIo
  | portLstsWidth
  | portLstsSpeed
  | portLstsContained
  | portLstsLinkUp
  | portContSynCnt
  | portContDpcTrig
  | portContReason
  | portContSwTrig
  | portContCaSel
  | portContNfTrig
  | cluFwdCtlCfgBad
  | cluShrCtlPool
  | cluFellMir
  | cluFellMig
  | cluOccPeak
  | cluOccCells
  | cluShrStsFree
  | mirCtlEn
  | mirCtlActive
  | mirCtlCfgErr
  | mirSampNm1
  | mirCapCells
  | mirStsLost
  | dirTrkStsRsv
  | dirTrkStsShr
  | dirTrkStsWb
  | dirTrkStsPeak
  | dirOccValid
  | dirCoarseEntries
  | dirCntRetryCount
  | dirCntEvictCount
  | dirCntBisnpCount
  | dirEccStsUe
  | dirEccStsCe
  | dirEccStsWay
  | dirEccStsSet
  | cohFailedHost
  | cohWalkStsBusy
  | cohWalkStsHost
  | cohSrCfgCfgBad
  | cohSrCfgMembers
  | cohSrCfgBlocks
  | xltPtLocCopyV
  | xltPtLocCopyDev
  | xltPtLocReady
  | xltPtLocPrimDev
  | xltPtLocBlocks
  | xltLdtFirst
  | xltBedevV
  | xltBedevTier
  | xltBedevFgrp
  | xltBedevLost
  | xltBedevLport
  | xltBedevLdId
  | xltMigStsState
  | xltMigStsPass
  | xltMigStsDirty
  | xltMigStsRebuild
  | xltMigStsReason
  | xltMigStsLd
  | xltMigPagePage
  | xltMigCntAbort
  | xltMigCntDone
  | xltHoldStsAbandon
  | xltHoldStsPeak
  | xltHoldStsHeld
  | xltUnmapCntCount
  | allocPoolStsZeroing
  | allocPoolStsFree
  | allocGntStsWaiting
  | allocGntStsPeakUs
  | allocGntStsBusy
  | allocMirStsMirrored
  | allocMirStsSyncing
  | allocMirStsStbyDie
  | allocHqUsed
  | allocHostStsRemainS
  | allocHostStsState
  | allocSqUsed
  | gateGenInstalling
  | gateGenBadRules
  | gateGenGen
  | gateSyncReq
  | gateSyncInflt
  | gateSyncTargetGen
  | gateSyncDoneOldestGen
  | gateSyncDoneDone
  | gateVlogStsLost
  | gateVlogStsRd
  | gateVlogStsAdvWr
  | gateVlogStsCountAdv
  | gateHviolCount
  | qosCtlCfgBad
  | qosUnattrCount
  | qosRsmapCfgBad
  | qosPolStsCfgBad
  | qosPolStsRedMk
  | qosPolRedCount
  | qosPolYelCount
  | qosSliceKeyCfgBad
  | qosSliceLvlHeld
  | qosSliceLvlLevel
  | ringEngStsActive
  | ringEngStsError
  | ringMovStsChRing
  | ringMovStsChBusy
  | slotCtlCfgBad
  | slotStsState
  | slotStsPrsnt
  | slotStsPgInt
  | slotStsPin
  | slotStsLim
  | slotStsEw
  | slotStsSag
  | slotStsLastFault
  | slotStsAttempts
  | slotMeasVout
  | slotMeasVin
  | slotImeasPeak
  | slotImeasSense
  | slotCmdResult
  | slotCmdCmd
  | slotFltCntFt
  | slotFltCntTmr
  | slotFltCntInput
  | slotFltCntEwarn
  | pmcCtlFreeze
  | pmcClrAll
  | pmcClrIndex
  | pmcSlcClrGo
  | pmcSlcClrSlice
  | pmcRdTsNs
  | pmcTdInvalid
  | pmcTdDelivered
  | pmcTdWasted
  | pmcTdStarved
  | pmcTdBlocked
  | pmcOvfOvf
  | pmcSelEn
  | pmcSelQual
  | pmcSelBad
  | pmcSelEvent
  | pmcSelThr
  | pmcValOvf
  | pmcValCount
  | nvmSagStsSag
  | nvmSagStsVinLow
  | nvmSagStsRailLow
  | nvmSagStsHeld
  | nvmSagStsDropped
  | nvmFlashStsPresent
  | nvmFlashStsPass
  | nvmFlashStsLog2Mbit
  | nvmFlashStsTorn
  | secBootStsStage
  | secBootStsSlot
  | secBootStsFallback
  | secBootStsLead0
  | secBootStsNvmOk
  | secImgSeqSeq
  | secImgVerMajor
  | secImgVerMinor
  | secImgVerSvn
  | secAmdStsBusy
  | secAmdStsLogUse
  | secAmdStsLastSeq
  | secKeyStsEdSet
  | secKeyStsEdRev
  | secKeyStsMlSet
  | secKeyStsMlRev
  | secKeyStsSvnMin
  | secFwStsState
  | secFwStsResult
  | secFwStsStagedOk
  | secFwStsNewLead
  | secReadyNsNs
  | monUartCtlBaud
  | monDbgStsUnlocked
  | monDbgStsLockout
  | monDbgStsScTrace
  | monDbgStsScWrite
  | monDbgStsFails
  | monDbgStsRemainS
  | monDbgCmdLock
  | monDbgCmdGo
  | monTraceCtlArmed
  | monTraceCtlFull
  | monTraceCtlLport
  | monTraceCtlCount
  | monChalChal
  | monUnlockWinWord
  | monTraceRecWord
  | gateVrecAddrAddr
  | gateVrecTsNs
  | gateVrecReqLport
  | gateVrecReqHostV
  | gateVrecReqHost
  | gateVrecReqProto
  | gateVrecReqKind
  | gateVrecPasidPasidV
  | gateVrecPasidPasid
  | gateVrecRuleNomatch
  | gateVrecRuleParts
  | gateVrecRuleRegionV
  | gateVrecRuleRegion
  | gateVrecRuleRule
  | gateVrecTgtGen
  | gateVrecTgtTkind
  | gateVrecTgtLdId
  | gateVrecTgtTgt
  | ringMirRcfgWord
  | ringMirRstsWord
  | ringMirRidxWord
  | ringMirHeadWord
deriving DecidableEq, Repr

/-- The access types of Table 0.3 (R3). -/
inductive Acc
  | ro | rw | rw1c | rc | wo | rwl | rwa
deriving DecidableEq, Repr

/-- Class minimums at reset, Table 3.1 (R103). -/
def cminReset (q : Nat) : Nat :=
  match q with
  | 0 => 1024 | 1 => 2048 | 2 => 512 | 3 => 512 | 4 => 512 | 5 => 256 | 6 => 128 | _ => 64

/-- Width in bits of a configuration field. -/
def cfgWidth : CFld → Nat
  | .dieProfCtlProfile => 2
  | .dieThermCtlWarnC => 8
  | .mgmtPathCtlI3cEn => 1
  | .mgmtPathCtlI3cSa => 7
  | .mgmtPathCtlMctpEn => 1
  | .mgmtPathCtlMctpVcs => 7
  | .pwrCtlGladeIdleUs => 16
  | .pwrCtlClearIdleMs => 16
  | .pwrRetRbb => 4
  | .pwrRetWludMv => 8
  | .pwrRetRetMv => 10
  | .pwrLimDpIdle => 1
  | .pwrLimDeepest => 2
  | .hlthCtlPlanH => 8
  | .hlthCtlScrubMs => 16
  | .hlthCtlReeqPause => 1
  | .hlthCtlAvEn => 1
  | .hlthCtlSwapEn => 1
  | .hlthCtlReeqEn => 1
  | .hlthSlackEmergPs => 8
  | .hlthSlackHiPs => 8
  | .hlthSlackLoPs => 8
  | .hlthMarginEyeHMin => 8
  | .hlthMarginEyeWMin => 8
  | .hlthMarginCxlVMin => 8
  | .hlthMarginCxlTMin => 8
  | .hlthVregVmaxMv => 10
  | .hlthVregVminMv => 10
  | .hlthAgeThWarn => 16
  | .nocCtlResendUs => 8
  | .nocCtlOrder => 4
  | .gklPhyCtlLaneErrTh => 8
  | .gklPhyCtlTrainTmo => 16
  | .gklPtxEqPost => 8
  | .gklPtxEqPre => 8
  | .gklLnkCtlIdleNs => 16
  | .gklLnkCtlSelEn => 1
  | .gklLnkCtlMaxminor => 4
  | .gklSysIdSystemId => 32
  | .gklSysCfgMembers => 8
  | .gklSysLinkV => 1
  | .gklSysLinkPeerPkg => 3
  | .gklSysLinkPeerDie => 2
  | .gklSysRouteV => 1
  | .gklSysRouteExitDie => 2
  | .portPcfgMaxspd => 3
  | .portPcfgLoptEn => 1
  | .portPcfgBif => 2
  | .portLpcfgAutoBind => 1
  | .portLpcfgVcs => 7
  | .portLpcfgBind => 2
  | .portLpcfgRole => 2
  | .portLpmCtlL1En => 1
  | .portLpmCtlL0pEn => 1
  | .cluFwdCtlCtDis => 1
  | .cluFwdCtlCtPref => 1
  | .cluCminCminHi => 14
  | .cluCminCminLo => 14
  | .cluShrCtlEgrShrMax => 14
  | .cluMarkCgSev => 1
  | .cluMarkSev => 13
  | .cluMarkMod => 13
  | .mirCtlAlp => 8
  | .mirCtlSnap => 2
  | .mirCtlDir => 2
  | .mirCtlSelKind => 3
  | .mirSelLport => 8
  | .mirSelHost => 7
  | .mirSelSlice => 12
  | .mirLoAddr => 52
  | .mirHiAddr => 52
  | .mirBufBaseBase => 52
  | .mirBufSizePages => 20
  | .mirWpaAddr => 61
  | .cohCtlChainMax => 4
  | .cohCtlBisnpTmoMs => 7
  | .cohSrCfgV => 1
  | .cohSrCfgHomePkg => 3
  | .cohSrmapV => 1
  | .cohSrmapSr => 6
  | .xltCtlWarmEpochs => 4
  | .xltCtlMigRate => 7
  | .xltCtlEpochMs => 12
  | .xltCtlTwinHot => 1
  | .xltCtlXltPrefetch => 1
  | .xltCtlMigEn => 1
  | .xltHotThDemoteTh => 16
  | .xltHotThPromoteTh => 16
  | .xltMigCtlBackoff => 8
  | .xltMigCtlMaxPass => 3
  | .xltMigCtlHoldMax => 10
  | .xltLdtPages => 28
  | .allocCtlZeroRate => 7
  | .allocCtlAckTmoS => 9
  | .allocCtlGraceS => 16
  | .allocCtl2ReclaimS => 16
  | .allocT0ResvBlocks => 21
  | .allocHqQuota => 21
  | .allocRgnPages => 27
  | .allocRgnBase => 27
  | .allocRpolInitBlocks => 16
  | .allocRpolDefined => 1
  | .allocRpolShared => 1
  | .allocRpolTwin => 1
  | .allocRpolSpread => 1
  | .allocRpolFallback => 1
  | .allocRpolTierPref => 1
  | .allocRpolIntlv => 2
  | .allocRpolWays => 3
  | .allocSqQuota => 21
  | .gateCtlSyncWarnMs => 16
  | .gateCtlDfltHost => 1
  | .gateCtlDfltPt => 1
  | .gateCtlDfltLd => 1
  | .gateRuleBasePage => 52
  | .gateRuleLimitPage => 52
  | .gateRuleReqV => 1
  | .gateRuleReqLportAny => 1
  | .gateRuleReqHostAny => 1
  | .gateRuleReqPasidV => 1
  | .gateRuleReqLport => 8
  | .gateRuleReqHost => 7
  | .gateRuleReqKinds => 4
  | .gateRulePasidPasid => 20
  | .gateRuleTgtTkind => 2
  | .gateRuleTgtLdId => 4
  | .gateRuleTgtTgt => 8
  | .qosCtlRedDl => 2
  | .qosCtlColAware => 1
  | .qosRsmapV => 1
  | .qosRsmapSlice => 12
  | .qosPolRateEn => 1
  | .qosPolRateCir => 18
  | .qosPolPirPir => 18
  | .qosPolBktPbs => 16
  | .qosPolBktCbs => 16
  | .qosSliceKeyV => 1
  | .qosSliceKeyPriv => 1
  | .qosSliceKeyPasidV => 1
  | .qosSliceKeyHost => 7
  | .qosSliceKeyPasid => 20
  | .qosSliceShapeShEn => 1
  | .qosSliceShapeRate => 18
  | .qosSliceSchedWeight => 8
  | .qosSliceSchedBurst => 16
  | .ringCtlMovMin => 8
  | .ringCtlResRetryUs => 16
  | .slotCtlRetryMax => 3
  | .slotCtlFtMult => 2
  | .slotCtlPgPol => 1
  | .slotCtlPgFn => 1
  | .slotCtlPrsntIgn => 1
  | .slotCtlEn => 1
  | .slotVwinOv => 9
  | .slotVwinUv => 9
  | .slotLimEwPct => 7
  | .slotLimFltMs => 6
  | .slotLimVlim => 7
  | .slotTimeDischMs => 10
  | .slotTimeInsMs => 10
  | .pmcCtlPmuUser => 1
  | .nvmSagCtlVinNvw => 9

/-- Width in bits of a status field. -/
def stsWidth : SFld → Nat
  | .dieDieIdStep => 8
  | .dieDieIdPkgId => 3
  | .dieDieIdStandby => 1
  | .dieDieIdLead => 1
  | .dieDieIdDie => 2
  | .dieTstampNs => 64
  | .dieProfCtlBadSel => 1
  | .dieProfEffMigRate => 7
  | .dieProfEffCtMixed => 1
  | .dieProfEffDpIdle => 1
  | .dieProfEffReeqPause => 1
  | .dieProfEffL1En => 1
  | .dieProfEffL0pEn => 1
  | .dieProfEffTwinHot => 1
  | .dieProfEffXltPrefetch => 1
  | .dieProfEffDeepest => 2
  | .dieProfEffMigEn => 1
  | .dieProfEffCtPref => 1
  | .dieRclkStsR1Fail => 1
  | .dieRclkStsR0Fail => 1
  | .dieRclkStsR1Unlock => 1
  | .dieRclkStsR0Unlock => 1
  | .dieRclkStsR1Lock => 1
  | .dieRclkStsR0Lock => 1
  | .dieThermStsWarn => 1
  | .dieThermStsTripped => 1
  | .dieThermStsHot => 3
  | .dieThermStsPeak => 8
  | .dieThermStsTemp => 8
  | .dieSupplyStsIin => 16
  | .dieSupplyStsVin => 16
  | .mgmtPathStsQueued => 8
  | .mgmtPathStsI3cDaV => 1
  | .mgmtPathStsI3cDa => 7
  | .mgmtPathStsMisdirect => 16
  | .mgmtCmdCntRefused => 16
  | .mgmtCmdCntDone => 16
  | .pwrDomStsState => 3
  | .pwrDomStsFail => 1
  | .pwrDomStsLastWake => 4
  | .pwrDomStsNoans => 8
  | .pwrDomStsWakes => 16
  | .pwrWakeLatDom => 5
  | .pwrWakeLatLat => 16
  | .hlthVregAtLimit => 1
  | .hlthVregVset => 11
  | .hlthAgeRoShift => 16
  | .hlthAgeSlackPs => 8
  | .hlthScrubStsCe => 16
  | .hlthScrubStsUe => 8
  | .hlthScrubStsSpareUsed => 8
  | .hlthArbStsRunning => 10
  | .hlthArbStsWaiting => 10
  | .hlthArbStsAbandoned => 12
  | .hlthFoStsCount => 16
  | .hlthFoStsFrom => 2
  | .hlthFoStsTo => 2
  | .hlthFoNsNs => 64
  | .hlthElogStsNext => 12
  | .hlthElogStsQueued => 11
  | .hlthElogDropCount => 32
  | .nocEpochBusy => 1
  | .nocEpochSwitched => 1
  | .nocEpochDrained => 4
  | .nocEpochCur => 1
  | .nocEpochCount => 16
  | .nocFenceAlloc => 4
  | .nocFenceNvm => 4
  | .nocFenceMgmt => 4
  | .nocFenceDir => 48
  | .nocSpanStsBusy => 1
  | .nocSpanStsStep => 3
  | .nocSpanStsEp => 6
  | .nocSpanStsMarks => 7
  | .nocRefusedCount => 32
  | .nocRtrStsLost => 4
  | .nocRtrStsPwr => 2
  | .nocRtrStsOldCnt => 10
  | .nocRtrErrDisc => 16
  | .nocRtrErrPar => 16
  | .nocRtV => 1
  | .nocRtOrder => 1
  | .nocRtColDir => 1
  | .nocRtRowDir => 1
  | .nocRtPlane => 2
  | .nocRtColHops => 3
  | .nocRtRowHops => 2
  | .gklPhyCtlEn => 1
  | .gklPhyStsState => 4
  | .gklPhyStsFailWhy => 2
  | .gklPhyStsGrpRev => 1
  | .gklPhyStsRev => 12
  | .gklPhyStsPol => 12
  | .gklSpareStsMap => 60
  | .gklSwapCmdGo => 1
  | .gklSwapCmdResult => 2
  | .gklSwapCmdGrp => 4
  | .gklSwapCmdPos => 4
  | .gklLpbkCtlRefused => 1
  | .gklLpbkCtlMode => 2
  | .gklLpbkErrLane => 8
  | .gklLpbkErrCount => 24
  | .gklEyeLane => 8
  | .gklEyeHeight => 8
  | .gklEyeWidth => 8
  | .gklLnkStsState => 4
  | .gklLnkStsMajor => 4
  | .gklLnkStsMinor => 4
  | .gklLnkStsTxSel => 1
  | .gklLnkStsRxSel => 1
  | .gklLnkStsDownWhy => 4
  | .gklLnkStsNes => 12
  | .gklLnkSeqTxNext => 12
  | .gklLnkSeqTxAcked => 12
  | .gklLnkErrCrcFail => 16
  | .gklLnkErrReplay => 16
  | .gklLnkErr2Dup => 16
  | .gklLnkErr2NakSent => 8
  | .gklLnkErr2BypBad => 8
  | .gklLnkFecCorr => 32
  | .gklCrdHavail => 12
  | .gklCrdDavail => 12
  | .gklSysRouteBad => 1
  | .gklSysStsQuorum => 1
  | .gklSysStsFresh => 1
  | .gklSysStsLeadPkg => 3
  | .gklSysStsReach => 8
  | .gklSysStsLost => 8
  | .portLstsCfgBad => 1
  | .portLstsBound => 1
  | .portLstsBoundVcs => 7
  | .portLstsCxlVer => 3
  | .portLstsFlit => 2
  | .portLstsIdeOn => 1
  | .portLstsPrsnt => 1
  | .portLstsMld => 1
  | .portLstsMem => 1
  | .portLstsCache => 1
  | .portLstsIo => 1
  | .portLstsWidth => 3
  | .portLstsSpeed => 3
  | .portLstsContained => 1
  | .portLstsLinkUp => 1
  | .portContSynCnt => 8
  | .portContDpcTrig => 1
  | .portContReason => 3
  | .portContSwTrig => 1
  | .portContCaSel => 1
  | .portContNfTrig => 1
  | .cluFwdCtlCfgBad => 1
  | .cluShrCtlPool => 14
  | .cluFellMir => 16
  | .cluFellMig => 16
  | .cluOccPeak => 15
  | .cluOccCells => 15
  | .cluShrStsFree => 15
  | .mirCtlEn => 1
  | .mirCtlActive => 1
  | .mirCtlCfgErr => 1
  | .mirSampNm1 => 16
  | .mirCapCells => 14
  | .mirStsLost => 16
  | .dirTrkStsRsv => 6
  | .dirTrkStsShr => 7
  | .dirTrkStsWb => 6
  | .dirTrkStsPeak => 8
  | .dirOccValid => 19
  | .dirCoarseEntries => 19
  | .dirCntRetryCount => 32
  | .dirCntEvictCount => 32
  | .dirCntBisnpCount => 32
  | .dirEccStsUe => 1
  | .dirEccStsCe => 1
  | .dirEccStsWay => 4
  | .dirEccStsSet => 14
  | .cohFailedHost => 32
  | .cohWalkStsBusy => 1
  | .cohWalkStsHost => 7
  | .cohSrCfgCfgBad => 1
  | .cohSrCfgMembers => 8
  | .cohSrCfgBlocks => 13
  | .xltPtLocCopyV => 1
  | .xltPtLocCopyDev => 7
  | .xltPtLocReady => 1
  | .xltPtLocPrimDev => 7
  | .xltPtLocBlocks => 12
  | .xltLdtFirst => 29
  | .xltBedevV => 1
  | .xltBedevTier => 1
  | .xltBedevFgrp => 4
  | .xltBedevLost => 1
  | .xltBedevLport => 8
  | .xltBedevLdId => 4
  | .xltMigStsState => 3
  | .xltMigStsPass => 3
  | .xltMigStsDirty => 10
  | .xltMigStsRebuild => 1
  | .xltMigStsReason => 4
  | .xltMigStsLd => 7
  | .xltMigPagePage => 27
  | .xltMigCntAbort => 16
  | .xltMigCntDone => 16
  | .xltHoldStsAbandon => 8
  | .xltHoldStsPeak => 8
  | .xltHoldStsHeld => 8
  | .xltUnmapCntCount => 32
  | .allocPoolStsZeroing => 21
  | .allocPoolStsFree => 21
  | .allocGntStsWaiting => 13
  | .allocGntStsPeakUs => 8
  | .allocGntStsBusy => 8
  | .allocMirStsMirrored => 1
  | .allocMirStsSyncing => 1
  | .allocMirStsStbyDie => 2
  | .allocHqUsed => 21
  | .allocHostStsRemainS => 16
  | .allocHostStsState => 2
  | .allocSqUsed => 21
  | .gateGenInstalling => 1
  | .gateGenBadRules => 14
  | .gateGenGen => 16
  | .gateSyncReq => 1
  | .gateSyncInflt => 12
  | .gateSyncTargetGen => 16
  | .gateSyncDoneOldestGen => 16
  | .gateSyncDoneDone => 1
  | .gateVlogStsLost => 16
  | .gateVlogStsRd => 6
  | .gateVlogStsAdvWr => 1
  | .gateVlogStsCountAdv => 7
  | .gateHviolCount => 32
  | .qosCtlCfgBad => 1
  | .qosUnattrCount => 32
  | .qosRsmapCfgBad => 1
  | .qosPolStsCfgBad => 1
  | .qosPolStsRedMk => 1
  | .qosPolRedCount => 32
  | .qosPolYelCount => 32
  | .qosSliceKeyCfgBad => 1
  | .qosSliceLvlHeld => 1
  | .qosSliceLvlLevel => 28
  | .ringEngStsActive => 16
  | .ringEngStsError => 16
  | .ringMovStsChRing => 7
  | .ringMovStsChBusy => 7
  | .slotCtlCfgBad => 1
  | .slotStsState => 3
  | .slotStsPrsnt => 1
  | .slotStsPgInt => 1
  | .slotStsPin => 1
  | .slotStsLim => 1
  | .slotStsEw => 1
  | .slotStsSag => 1
  | .slotStsLastFault => 4
  | .slotStsAttempts => 4
  | .slotMeasVout => 10
  | .slotMeasVin => 10
  | .slotImeasPeak => 16
  | .slotImeasSense => 16
  | .slotCmdResult => 2
  | .slotCmdCmd => 4
  | .slotFltCntFt => 8
  | .slotFltCntTmr => 8
  | .slotFltCntInput => 8
  | .slotFltCntEwarn => 8
  | .pmcCtlFreeze => 1
  | .pmcClrAll => 1
  | .pmcClrIndex => 10
  | .pmcSlcClrGo => 1
  | .pmcSlcClrSlice => 12
  | .pmcRdTsNs => 64
  | .pmcTdInvalid => 1
  | .pmcTdDelivered => 7
  | .pmcTdWasted => 7
  | .pmcTdStarved => 7
  | .pmcTdBlocked => 7
  | .pmcOvfOvf => 32
  | .pmcSelEn => 1
  | .pmcSelQual => 4
  | .pmcSelBad => 1
  | .pmcSelEvent => 8
  | .pmcSelThr => 16
  | .pmcValOvf => 1
  | .pmcValCount => 48
  | .nvmSagStsSag => 1
  | .nvmSagStsVinLow => 1
  | .nvmSagStsRailLow => 1
  | .nvmSagStsHeld => 8
  | .nvmSagStsDropped => 8
  | .nvmFlashStsPresent => 1
  | .nvmFlashStsPass => 1
  | .nvmFlashStsLog2Mbit => 8
  | .nvmFlashStsTorn => 16
  | .secBootStsStage => 4
  | .secBootStsSlot => 1
  | .secBootStsFallback => 1
  | .secBootStsLead0 => 2
  | .secBootStsNvmOk => 4
  | .secImgSeqSeq => 64
  | .secImgVerMajor => 8
  | .secImgVerMinor => 8
  | .secImgVerSvn => 8
  | .secAmdStsBusy => 1
  | .secAmdStsLogUse => 7
  | .secAmdStsLastSeq => 24
  | .secKeyStsEdSet => 4
  | .secKeyStsEdRev => 4
  | .secKeyStsMlSet => 4
  | .secKeyStsMlRev => 4
  | .secKeyStsSvnMin => 8
  | .secFwStsState => 3
  | .secFwStsResult => 2
  | .secFwStsStagedOk => 1
  | .secFwStsNewLead => 2
  | .secReadyNsNs => 64
  | .monUartCtlBaud => 3
  | .monDbgStsUnlocked => 1
  | .monDbgStsLockout => 1
  | .monDbgStsScTrace => 1
  | .monDbgStsScWrite => 1
  | .monDbgStsFails => 2
  | .monDbgStsRemainS => 12
  | .monDbgCmdLock => 1
  | .monDbgCmdGo => 1
  | .monTraceCtlArmed => 1
  | .monTraceCtlFull => 1
  | .monTraceCtlLport => 8
  | .monTraceCtlCount => 8
  | .monChalChal => 32
  | .monUnlockWinWord => 32
  | .monTraceRecWord => 32
  | .gateVrecAddrAddr => 64
  | .gateVrecTsNs => 64
  | .gateVrecReqLport => 8
  | .gateVrecReqHostV => 1
  | .gateVrecReqHost => 7
  | .gateVrecReqProto => 2
  | .gateVrecReqKind => 4
  | .gateVrecPasidPasidV => 1
  | .gateVrecPasidPasid => 20
  | .gateVrecRuleNomatch => 1
  | .gateVrecRuleParts => 7
  | .gateVrecRuleRegionV => 1
  | .gateVrecRuleRegion => 3
  | .gateVrecRuleRule => 14
  | .gateVrecTgtGen => 16
  | .gateVrecTgtTkind => 2
  | .gateVrecTgtLdId => 4
  | .gateVrecTgtTgt => 8
  | .ringMirRcfgWord => 32
  | .ringMirRstsWord => 32
  | .ringMirRidxWord => 32
  | .ringMirHeadWord => 32

/-- Access type of a configuration field. -/
def cfgAcc : CFld → Acc
  | .dieProfCtlProfile => .rwl
  | .dieThermCtlWarnC => .rwl
  | .mgmtPathCtlI3cEn => .rwl
  | .mgmtPathCtlI3cSa => .rwl
  | .mgmtPathCtlMctpEn => .rwl
  | .mgmtPathCtlMctpVcs => .rwl
  | .pwrCtlGladeIdleUs => .rwl
  | .pwrCtlClearIdleMs => .rwl
  | .pwrRetRbb => .rwl
  | .pwrRetWludMv => .rwl
  | .pwrRetRetMv => .rwl
  | .pwrLimDpIdle => .rwl
  | .pwrLimDeepest => .rwl
  | .hlthCtlPlanH => .rwl
  | .hlthCtlScrubMs => .rwl
  | .hlthCtlReeqPause => .rwl
  | .hlthCtlAvEn => .rwl
  | .hlthCtlSwapEn => .rwl
  | .hlthCtlReeqEn => .rwl
  | .hlthVregVmaxMv => .rwl
  | .hlthVregVminMv => .rwl
  | .nocCtlResendUs => .rwl
  | .nocCtlOrder => .rwl
  | .gklPhyCtlLaneErrTh => .rwl
  | .gklPhyCtlTrainTmo => .rwl
  | .gklPtxEqPost => .rwl
  | .gklPtxEqPre => .rwl
  | .gklLnkCtlIdleNs => .rwl
  | .gklLnkCtlSelEn => .rwl
  | .gklLnkCtlMaxminor => .rwl
  | .gklSysIdSystemId => .rwl
  | .gklSysCfgMembers => .rwl
  | .gklSysLinkV => .rwl
  | .gklSysLinkPeerPkg => .rwl
  | .gklSysLinkPeerDie => .rwl
  | .gklSysRouteV => .rwl
  | .gklSysRouteExitDie => .rwl
  | .portPcfgMaxspd => .rwl
  | .portPcfgLoptEn => .rwl
  | .portPcfgBif => .rwl
  | .portLpcfgAutoBind => .rwl
  | .portLpcfgVcs => .rwl
  | .portLpcfgBind => .rwl
  | .portLpcfgRole => .rwl
  | .portLpmCtlL1En => .rwl
  | .portLpmCtlL0pEn => .rwl
  | .cluFwdCtlCtDis => .rwl
  | .cluFwdCtlCtPref => .rwl
  | .cluCminCminHi => .rwl
  | .cluCminCminLo => .rwl
  | .cluShrCtlEgrShrMax => .rwl
  | .cluMarkCgSev => .rwl
  | .cluMarkSev => .rwl
  | .cluMarkMod => .rwl
  | .cohCtlChainMax => .rwl
  | .cohSrCfgV => .rwl
  | .cohSrCfgHomePkg => .rwl
  | .cohSrmapV => .rwl
  | .cohSrmapSr => .rwl
  | .xltCtlWarmEpochs => .rwl
  | .xltCtlMigRate => .rwl
  | .xltCtlEpochMs => .rwl
  | .xltCtlTwinHot => .rwl
  | .xltCtlXltPrefetch => .rwl
  | .xltCtlMigEn => .rwl
  | .xltHotThDemoteTh => .rwl
  | .xltHotThPromoteTh => .rwl
  | .xltMigCtlBackoff => .rwl
  | .xltMigCtlMaxPass => .rwl
  | .xltMigCtlHoldMax => .rwl
  | .xltLdtPages => .rwl
  | .allocCtlZeroRate => .rwl
  | .allocCtlAckTmoS => .rwl
  | .gateCtlSyncWarnMs => .rwl
  | .qosSliceKeyPriv => .rwl
  | .ringCtlMovMin => .rwl
  | .ringCtlResRetryUs => .rwl
  | .slotCtlPrsntIgn => .rwl
  | .slotCtlEn => .rwl
  | .pmcCtlPmuUser => .rwl
  | _ => .rwa

/-- Access type of a status field. -/
def stsAcc : SFld → Acc
  | .dieRclkStsR1Unlock => .rw1c
  | .dieRclkStsR0Unlock => .rw1c
  | .dieThermStsWarn => .rw1c
  | .dieThermStsPeak => .rc
  | .mgmtPathStsMisdirect => .rc
  | .mgmtCmdCntRefused => .rc
  | .mgmtCmdCntDone => .rc
  | .pwrDomStsNoans => .rc
  | .pwrDomStsWakes => .rc
  | .pwrWakeLatLat => .rc
  | .hlthScrubStsCe => .rc
  | .hlthScrubStsUe => .rc
  | .hlthArbStsAbandoned => .rc
  | .hlthElogDropCount => .rc
  | .nocRefusedCount => .rc
  | .nocRtrErrDisc => .rc
  | .nocRtrErrPar => .rc
  | .gklPhyCtlEn => .rw
  | .gklSwapCmdGo => .wo
  | .gklSwapCmdGrp => .rw
  | .gklSwapCmdPos => .rw
  | .gklLpbkCtlMode => .rw
  | .gklLpbkErrLane => .rw
  | .gklLpbkErrCount => .rc
  | .gklEyeLane => .rw
  | .gklLnkErrCrcFail => .rc
  | .gklLnkErrReplay => .rc
  | .gklLnkErr2Dup => .rc
  | .gklLnkErr2NakSent => .rc
  | .gklLnkErr2BypBad => .rc
  | .gklLnkFecCorr => .rc
  | .portContSynCnt => .rc
  | .portContDpcTrig => .rw1c
  | .portContSwTrig => .wo
  | .portContCaSel => .rw
  | .portContNfTrig => .rw
  | .cluFellMir => .rc
  | .cluFellMig => .rc
  | .cluOccPeak => .rc
  | .mirCtlEn => .rw
  | .mirSampNm1 => .rw
  | .mirCapCells => .rw
  | .mirStsLost => .rc
  | .dirTrkStsPeak => .rc
  | .dirCntRetryCount => .rc
  | .dirCntEvictCount => .rc
  | .dirCntBisnpCount => .rc
  | .dirEccStsUe => .rw1c
  | .dirEccStsCe => .rw1c
  | .xltBedevV => .rwl
  | .xltBedevTier => .rwl
  | .xltBedevFgrp => .rwl
  | .xltBedevLport => .rwl
  | .xltBedevLdId => .rwl
  | .xltMigCntAbort => .rc
  | .xltMigCntDone => .rc
  | .xltHoldStsAbandon => .rc
  | .xltHoldStsPeak => .rc
  | .xltUnmapCntCount => .rc
  | .allocGntStsPeakUs => .rc
  | .gateSyncReq => .wo
  | .gateVlogStsLost => .rc
  | .gateVlogStsAdvWr => .wo
  | .gateVlogStsCountAdv => .rw
  | .gateHviolCount => .rc
  | .qosUnattrCount => .rc
  | .qosPolRedCount => .rc
  | .qosPolYelCount => .rc
  | .slotImeasPeak => .rc
  | .slotCmdCmd => .wo
  | .slotFltCntFt => .rc
  | .slotFltCntTmr => .rc
  | .slotFltCntInput => .rc
  | .slotFltCntEwarn => .rc
  | .pmcCtlFreeze => .rw
  | .pmcClrAll => .wo
  | .pmcClrIndex => .wo
  | .pmcSlcClrGo => .wo
  | .pmcSlcClrSlice => .wo
  | .pmcSelEn => .rw
  | .pmcSelQual => .rw
  | .pmcSelEvent => .rw
  | .pmcSelThr => .rw
  | .nvmSagStsDropped => .rc
  | .nvmFlashStsTorn => .rc
  | .monUartCtlBaud => .rw
  | .monDbgCmdLock => .wo
  | .monDbgCmdGo => .wo
  | .monTraceCtlArmed => .rw
  | .monTraceCtlLport => .rw
  | .monUnlockWinWord => .wo
  | _ => .ro

/-- Reset value of a configuration field by index; where the spec says "per profile" the VIADUCT value of Table 1.8, which is profile 0b00 (assumption 3). -/
def cfgReset : CFld → Nat → Nat
  | .dieThermCtlWarnC, _ => 100
  | .mgmtPathCtlI3cEn, _ => 1
  | .mgmtPathCtlI3cSa, _ => 58
  | .pwrCtlGladeIdleUs, _ => 100
  | .pwrCtlClearIdleMs, _ => 10
  | .pwrRetRbb, _ => 6
  | .pwrRetWludMv, _ => 60
  | .pwrRetRetMv, _ => 500
  | .pwrLimDpIdle, _ => 1
  | .pwrLimDeepest, _ => 1
  | .hlthCtlPlanH, _ => 24
  | .hlthCtlScrubMs, _ => 1000
  | .hlthCtlReeqPause, _ => 1
  | .hlthCtlAvEn, _ => 1
  | .hlthCtlSwapEn, _ => 1
  | .hlthCtlReeqEn, _ => 1
  | .hlthSlackEmergPs, _ => 5
  | .hlthSlackHiPs, _ => 60
  | .hlthSlackLoPs, _ => 20
  | .hlthMarginEyeHMin, _ => 10
  | .hlthMarginEyeWMin, _ => 16
  | .hlthMarginCxlVMin, _ => 15
  | .hlthMarginCxlTMin, _ => 10
  | .hlthVregVmaxMv, _ => 800
  | .hlthVregVminMv, _ => 700
  | .hlthAgeThWarn, _ => 2000
  | .nocCtlResendUs, _ => 20
  | .gklPhyCtlLaneErrTh, _ => 64
  | .gklPhyCtlTrainTmo, i => if i % 9 = 8 then 10000 else 1000
  | .gklPtxEqPost, _ => 16
  | .gklPtxEqPre, _ => 8
  | .gklLnkCtlIdleNs, _ => 1000
  | .gklLnkCtlSelEn, _ => 1
  | .gklLnkCtlMaxminor, _ => 1
  | .portPcfgMaxspd, _ => 5
  | .portPcfgLoptEn, _ => 1
  | .portLpmCtlL1En, _ => 1
  | .cluCminCminHi, i => cminReset (2 * (i % 4) + 1)
  | .cluCminCminLo, i => cminReset (2 * (i % 4))
  | .cluShrCtlEgrShrMax, _ => 8192
  | .cluMarkSev, _ => 2048
  | .cluMarkMod, _ => 512
  | .mirCtlDir, _ => 1
  | .mirBufSizePages, _ => 16
  | .cohCtlChainMax, _ => 4
  | .cohCtlBisnpTmoMs, _ => 10
  | .xltCtlWarmEpochs, _ => 3
  | .xltCtlMigRate, _ => 100
  | .xltCtlEpochMs, _ => 100
  | .xltCtlTwinHot, _ => 1
  | .xltCtlXltPrefetch, _ => 1
  | .xltCtlMigEn, _ => 1
  | .xltHotThDemoteTh, _ => 2
  | .xltHotThPromoteTh, _ => 32
  | .xltMigCtlBackoff, _ => 10
  | .xltMigCtlMaxPass, _ => 7
  | .xltMigCtlHoldMax, _ => 4
  | .allocCtlZeroRate, _ => 50
  | .allocCtlAckTmoS, _ => 10
  | .allocCtlGraceS, _ => 30
  | .allocCtl2ReclaimS, _ => 300
  | .allocT0ResvBlocks, _ => 64
  | .allocRpolSpread, _ => 1
  | .allocRpolFallback, _ => 1
  | .allocRpolIntlv, _ => 1
  | .allocRpolWays, _ => 2
  | .gateCtlSyncWarnMs, _ => 100
  | .gateCtlDfltHost, _ => 1
  | .gateCtlDfltPt, _ => 1
  | .gateCtlDfltLd, _ => 1
  | .qosCtlRedDl, _ => 1
  | .qosPolBktPbs, _ => 32
  | .qosPolBktCbs, _ => 32
  | .qosSliceSchedWeight, _ => 1
  | .qosSliceSchedBurst, _ => 64
  | .ringCtlMovMin, _ => 16
  | .ringCtlResRetryUs, _ => 100
  | .slotCtlRetryMax, _ => 7
  | .slotCtlFtMult, _ => 2
  | .slotVwinOv, _ => 140
  | .slotVwinUv, _ => 100
  | .slotLimEwPct, _ => 90
  | .slotLimFltMs, _ => 10
  | .slotLimVlim, _ => 20
  | .slotTimeDischMs, _ => 200
  | .slotTimeInsMs, _ => 100
  | .nvmSagCtlVinNvw, _ => 90
  | _, _ => 0

/-- Reset value of a status field by index (assumption 4 names those the spec leaves to straps, OTP or computation). -/
def stsReset : SFld → Nat → Nat
  | .dieDieIdStep, _ => 177
  | .dieDieIdDie, i => i
  | .gklSysStsFresh, _ => 1
  | .cluShrCtlPool, _ => 11328
  | .cluShrStsFree, _ => 11328
  | .mirCapCells, _ => 1024
  | .gateSyncDoneDone, _ => 1
  | .qosSliceLvlLevel, _ => 65536
  | .pmcTdInvalid, _ => 1
  | .pmcSelEn, i => if i % 1024 < 192 ∧ i % 16 < 5 then 1 else 0
  | .pmcSelQual, _ => 15
  | .pmcSelEvent, i => if i % 1024 < 192 ∧ i % 16 < 5 then i % 16 + 1 else 0
  | _, _ => 0

/-- One field inside a register row: its name, its low bit, and its index as `base * mul + sub` of the register's. -/
structure FEnt where
  fld : CFld ⊕ SFld
  lo  : Nat
  mul : Nat
  sub : Nat
deriving DecidableEq, Repr

/-- One register: its offset in a die window, unit stride and count, two index strides and counts, its 32-bit words,
whether it is kept per die (R507, R508), and its fields. -/
structure RegRow where
  off     : Nat
  ustride : Nat
  ucount  : Nat
  s1      : Nat
  c1      : Nat
  s2      : Nat
  c2      : Nat
  words   : Nat
  perDie  : Bool
  flds    : List FEnt
deriving DecidableEq, Repr

/-- A configuration field entry. -/
def fc (f : CFld) (lo : Nat) (mul : Nat := 1) (sub : Nat := 0) : FEnt := ⟨.inl f, lo, mul, sub⟩
/-- A status field entry. -/
def fs (f : SFld) (lo : Nat) (mul : Nat := 1) (sub : Nat := 0) : FEnt := ⟨.inr f, lo, mul, sub⟩

/-- The registers of block DIE. -/
def regsDie : List RegRow := [
  -- DIE.DIE_ID
  ⟨0x0, 0x0, 1, 0x0, 1, 0x0, 1, 1, true,
    [fs .dieDieIdStep 24, fs .dieDieIdPkgId 16, fs .dieDieIdStandby 9, fs .dieDieIdLead 8, fs .dieDieIdDie 0]⟩,
  -- DIE.TSTAMP
  ⟨0x8, 0x0, 1, 0x0, 1, 0x0, 1, 2, true,
    [fs .dieTstampNs 0]⟩,
  -- DIE.PROF_CTL
  ⟨0x40, 0x0, 1, 0x0, 1, 0x0, 1, 1, true,
    [fs .dieProfCtlBadSel 31, fc .dieProfCtlProfile 0]⟩,
  -- DIE.PROF_EFF
  ⟨0x44, 0x0, 1, 0x0, 1, 0x0, 1, 1, true,
    [fs .dieProfEffMigRate 16, fs .dieProfEffCtMixed 10, fs .dieProfEffDpIdle 9, fs .dieProfEffReeqPause 8, fs .dieProfEffL1En 7, fs .dieProfEffL0pEn 6, fs .dieProfEffTwinHot 5, fs .dieProfEffXltPrefetch 4, fs .dieProfEffDeepest 2, fs .dieProfEffMigEn 1, fs .dieProfEffCtPref 0]⟩,
  -- DIE.RCLK_STS
  ⟨0x80, 0x0, 1, 0x0, 1, 0x0, 1, 1, true,
    [fs .dieRclkStsR1Fail 9, fs .dieRclkStsR0Fail 8, fs .dieRclkStsR1Unlock 5, fs .dieRclkStsR0Unlock 4, fs .dieRclkStsR1Lock 1, fs .dieRclkStsR0Lock 0]⟩,
  -- DIE.THERM_STS
  ⟨0xc0, 0x0, 1, 0x0, 1, 0x0, 1, 1, true,
    [fs .dieThermStsWarn 31, fs .dieThermStsTripped 30, fs .dieThermStsHot 24, fs .dieThermStsPeak 16, fs .dieThermStsTemp 0]⟩,
  -- DIE.THERM_CTL
  ⟨0xc4, 0x0, 1, 0x0, 1, 0x0, 1, 1, true,
    [fc .dieThermCtlWarnC 0]⟩,
  -- DIE.SUPPLY_STS
  ⟨0xc8, 0x0, 1, 0x0, 1, 0x0, 1, 1, false,
    [fs .dieSupplyStsIin 16, fs .dieSupplyStsVin 0]⟩]

/-- The registers of block MGMT. -/
def regsMgmt : List RegRow := [
  -- MGMT.PATH_CTL
  ⟨0x100000, 0x0, 1, 0x0, 1, 0x0, 1, 1, true,
    [fc .mgmtPathCtlI3cEn 31, fc .mgmtPathCtlI3cSa 24, fc .mgmtPathCtlMctpEn 23, fc .mgmtPathCtlMctpVcs 16]⟩,
  -- MGMT.PATH_STS
  ⟨0x100004, 0x0, 1, 0x0, 1, 0x0, 1, 1, true,
    [fs .mgmtPathStsQueued 24, fs .mgmtPathStsI3cDaV 23, fs .mgmtPathStsI3cDa 16, fs .mgmtPathStsMisdirect 0]⟩,
  -- MGMT.CMD_CNT
  ⟨0x100008, 0x0, 1, 0x0, 1, 0x0, 1, 1, true,
    [fs .mgmtCmdCntRefused 16, fs .mgmtCmdCntDone 0]⟩]

/-- The registers of block PWR. -/
def regsPwr : List RegRow := [
  -- PWR.CTL
  ⟨0x200000, 0x0, 1, 0x0, 1, 0x0, 1, 1, true,
    [fc .pwrCtlGladeIdleUs 16, fc .pwrCtlClearIdleMs 0]⟩,
  -- PWR.RET
  ⟨0x200004, 0x0, 1, 0x0, 1, 0x0, 1, 1, true,
    [fc .pwrRetRbb 20, fc .pwrRetWludMv 12, fc .pwrRetRetMv 0]⟩,
  -- PWR.LIM
  ⟨0x200008, 0x0, 1, 0x0, 1, 0x0, 1, 1, false,
    [fc .pwrLimDpIdle 2, fc .pwrLimDeepest 0]⟩,
  -- PWR.DOM_STS_k
  ⟨0x200100, 0x0, 1, 0x4, 23, 0x0, 1, 1, true,
    [fs .pwrDomStsState 29, fs .pwrDomStsFail 28, fs .pwrDomStsLastWake 24, fs .pwrDomStsNoans 16, fs .pwrDomStsWakes 0]⟩,
  -- PWR.WAKE_LAT
  ⟨0x200200, 0x0, 1, 0x0, 1, 0x0, 1, 1, true,
    [fs .pwrWakeLatDom 27, fs .pwrWakeLatLat 0]⟩]

/-- The registers of block HLTH. -/
def regsHlth : List RegRow := [
  -- HLTH.CTL
  ⟨0x300000, 0x0, 1, 0x0, 1, 0x0, 1, 1, false,
    [fc .hlthCtlPlanH 24, fc .hlthCtlScrubMs 8, fc .hlthCtlReeqPause 3, fc .hlthCtlAvEn 2, fc .hlthCtlSwapEn 1, fc .hlthCtlReeqEn 0]⟩,
  -- HLTH.SLACK
  ⟨0x300004, 0x0, 1, 0x0, 1, 0x0, 1, 1, false,
    [fc .hlthSlackEmergPs 16, fc .hlthSlackHiPs 8, fc .hlthSlackLoPs 0]⟩,
  -- HLTH.MARGIN
  ⟨0x300008, 0x0, 1, 0x0, 1, 0x0, 1, 1, false,
    [fc .hlthMarginEyeHMin 24, fc .hlthMarginEyeWMin 16, fc .hlthMarginCxlVMin 8, fc .hlthMarginCxlTMin 0]⟩,
  -- HLTH.VREG_r
  ⟨0x300010, 0x0, 1, 0x4, 2, 0x0, 1, 1, true,
    [fs .hlthVregAtLimit 31, fc .hlthVregVmaxMv 21, fc .hlthVregVminMv 11, fs .hlthVregVset 0]⟩,
  -- HLTH.AGE_r
  ⟨0x300018, 0x0, 1, 0x4, 2, 0x0, 1, 1, true,
    [fs .hlthAgeRoShift 16, fs .hlthAgeSlackPs 8]⟩,
  -- HLTH.AGE_TH
  ⟨0x300020, 0x0, 1, 0x0, 1, 0x0, 1, 1, false,
    [fc .hlthAgeThWarn 0]⟩,
  -- HLTH.SCRUB_STS
  ⟨0x300030, 0x0, 1, 0x0, 1, 0x0, 1, 1, true,
    [fs .hlthScrubStsCe 16, fs .hlthScrubStsUe 8, fs .hlthScrubStsSpareUsed 0]⟩,
  -- HLTH.ARB_STS
  ⟨0x300040, 0x0, 1, 0x0, 1, 0x0, 1, 1, false,
    [fs .hlthArbStsRunning 22, fs .hlthArbStsWaiting 12, fs .hlthArbStsAbandoned 0]⟩,
  -- HLTH.FO_STS
  ⟨0x300050, 0x0, 1, 0x0, 1, 0x0, 1, 1, false,
    [fs .hlthFoStsCount 16, fs .hlthFoStsFrom 6, fs .hlthFoStsTo 4]⟩,
  -- HLTH.FO_NS
  ⟨0x300058, 0x0, 1, 0x0, 1, 0x0, 1, 2, false,
    [fs .hlthFoNsNs 0]⟩,
  -- HLTH.ELOG_STS
  ⟨0x300060, 0x0, 1, 0x0, 1, 0x0, 1, 1, false,
    [fs .hlthElogStsNext 20, fs .hlthElogStsQueued 9]⟩,
  -- HLTH.ELOG_DROP
  ⟨0x300064, 0x0, 1, 0x0, 1, 0x0, 1, 1, false,
    [fs .hlthElogDropCount 0]⟩]

/-- The registers of block NOC. -/
def regsNoc : List RegRow := [
  -- NOC.CTL
  ⟨0x400000, 0x0, 1, 0x0, 1, 0x0, 1, 1, false,
    [fc .nocCtlResendUs 24, fc .nocCtlOrder 0]⟩,
  -- NOC.EPOCH
  ⟨0x400004, 0x0, 1, 0x0, 1, 0x0, 1, 1, false,
    [fs .nocEpochBusy 31, fs .nocEpochSwitched 30, fs .nocEpochDrained 24, fs .nocEpochCur 16, fs .nocEpochCount 0]⟩,
  -- NOC.FENCE
  ⟨0x400008, 0x0, 1, 0x0, 1, 0x0, 1, 2, false,
    [fs .nocFenceAlloc 56, fs .nocFenceNvm 52, fs .nocFenceMgmt 48, fs .nocFenceDir 0]⟩,
  -- NOC.SPAN_STS
  ⟨0x400010, 0x0, 1, 0x0, 1, 0x0, 1, 1, false,
    [fs .nocSpanStsBusy 31, fs .nocSpanStsStep 28, fs .nocSpanStsEp 16, fs .nocSpanStsMarks 0]⟩,
  -- NOC.REFUSED
  ⟨0x400014, 0x0, 1, 0x0, 1, 0x0, 1, 1, false,
    [fs .nocRefusedCount 0]⟩,
  -- NOC.RTR_STS_j
  ⟨0x400100, 0x0, 1, 0x10, 8, 0x0, 1, 1, true,
    [fs .nocRtrStsLost 28, fs .nocRtrStsPwr 26, fs .nocRtrStsOldCnt 0]⟩,
  -- NOC.RTR_ERR_j
  ⟨0x400104, 0x0, 1, 0x10, 8, 0x0, 1, 1, true,
    [fs .nocRtrErrDisc 16, fs .nocRtrErrPar 0]⟩,
  -- NOC.RT_j_i
  ⟨0x401000, 0x0, 1, 0x400, 8, 0x4, 256, 1, true,
    [fs .nocRtV 31, fs .nocRtOrder 30, fs .nocRtColDir 29, fs .nocRtRowDir 28, fs .nocRtPlane 26, fs .nocRtColHops 23, fs .nocRtRowHops 21]⟩]

/-- The registers of block GKL. -/
def regsGkl : List RegRow := [
  -- GKL.PHY_CTL
  ⟨0x500000, 0x1000, 9, 0x0, 1, 0x0, 1, 1, true,
    [fs .gklPhyCtlEn 31, fc .gklPhyCtlLaneErrTh 16, fc .gklPhyCtlTrainTmo 0]⟩,
  -- GKL.PHY_STS
  ⟨0x500004, 0x1000, 9, 0x0, 1, 0x0, 1, 1, true,
    [fs .gklPhyStsState 28, fs .gklPhyStsFailWhy 26, fs .gklPhyStsGrpRev 25, fs .gklPhyStsRev 12, fs .gklPhyStsPol 0]⟩,
  -- GKL.SPARE_STS
  ⟨0x500008, 0x1000, 9, 0x0, 1, 0x0, 1, 2, true,
    [fs .gklSpareStsMap 0]⟩,
  -- GKL.SWAP_CMD
  ⟨0x500010, 0x1000, 9, 0x0, 1, 0x0, 1, 1, true,
    [fs .gklSwapCmdGo 31, fs .gklSwapCmdResult 29, fs .gklSwapCmdGrp 8, fs .gklSwapCmdPos 0]⟩,
  -- GKL.LPBK_CTL
  ⟨0x500014, 0x1000, 9, 0x0, 1, 0x0, 1, 1, true,
    [fs .gklLpbkCtlRefused 31, fs .gklLpbkCtlMode 0]⟩,
  -- GKL.LPBK_ERR
  ⟨0x500018, 0x1000, 9, 0x0, 1, 0x0, 1, 1, true,
    [fs .gklLpbkErrLane 24, fs .gklLpbkErrCount 0]⟩,
  -- GKL.EYE
  ⟨0x500020, 0x1000, 9, 0x0, 1, 0x0, 1, 1, true,
    [fs .gklEyeLane 24, fs .gklEyeHeight 16, fs .gklEyeWidth 8]⟩,
  -- GKL.PTX_EQ
  ⟨0x508030, 0x0, 1, 0x0, 1, 0x0, 1, 1, true,
    [fc .gklPtxEqPost 8, fc .gklPtxEqPre 0]⟩,
  -- GKL.LNK_CTL
  ⟨0x500100, 0x1000, 9, 0x0, 1, 0x0, 1, 1, true,
    [fc .gklLnkCtlIdleNs 16, fc .gklLnkCtlSelEn 4, fc .gklLnkCtlMaxminor 0]⟩,
  -- GKL.LNK_STS
  ⟨0x500104, 0x1000, 9, 0x0, 1, 0x0, 1, 1, true,
    [fs .gklLnkStsState 28, fs .gklLnkStsMajor 24, fs .gklLnkStsMinor 20, fs .gklLnkStsTxSel 19, fs .gklLnkStsRxSel 18, fs .gklLnkStsDownWhy 12, fs .gklLnkStsNes 0]⟩,
  -- GKL.LNK_SEQ
  ⟨0x500108, 0x1000, 9, 0x0, 1, 0x0, 1, 1, true,
    [fs .gklLnkSeqTxNext 12, fs .gklLnkSeqTxAcked 0]⟩,
  -- GKL.LNK_ERR
  ⟨0x50010c, 0x1000, 9, 0x0, 1, 0x0, 1, 1, true,
    [fs .gklLnkErrCrcFail 16, fs .gklLnkErrReplay 0]⟩,
  -- GKL.LNK_ERR2
  ⟨0x500110, 0x1000, 9, 0x0, 1, 0x0, 1, 1, true,
    [fs .gklLnkErr2Dup 16, fs .gklLnkErr2NakSent 8, fs .gklLnkErr2BypBad 0]⟩,
  -- GKL.LNK_FEC
  ⟨0x500114, 0x1000, 9, 0x0, 1, 0x0, 1, 1, true,
    [fs .gklLnkFecCorr 0]⟩,
  -- GKL.CRD_t
  ⟨0x500140, 0x1000, 9, 0x4, 8, 0x0, 1, 1, true,
    [fs .gklCrdHavail 16, fs .gklCrdDavail 0]⟩,
  -- GKL.SYS_ID
  ⟨0x50f000, 0x0, 1, 0x0, 1, 0x0, 1, 1, false,
    [fc .gklSysIdSystemId 0]⟩,
  -- GKL.SYS_CFG
  ⟨0x50f004, 0x0, 1, 0x0, 1, 0x0, 1, 1, false,
    [fc .gklSysCfgMembers 0]⟩,
  -- GKL.SYS_LINK_d
  ⟨0x50f010, 0x0, 1, 0x4, 4, 0x0, 1, 1, false,
    [fc .gklSysLinkV 31, fc .gklSysLinkPeerPkg 2, fc .gklSysLinkPeerDie 0]⟩,
  -- GKL.SYS_ROUTE_p
  ⟨0x50f020, 0x0, 1, 0x4, 8, 0x0, 1, 1, false,
    [fc .gklSysRouteV 31, fs .gklSysRouteBad 30, fc .gklSysRouteExitDie 0]⟩,
  -- GKL.SYS_STS
  ⟨0x50f040, 0x0, 1, 0x0, 1, 0x0, 1, 1, false,
    [fs .gklSysStsQuorum 31, fs .gklSysStsFresh 30, fs .gklSysStsLeadPkg 27, fs .gklSysStsReach 16, fs .gklSysStsLost 8]⟩]

/-- The registers of block PORT. -/
def regsPort : List RegRow := [
  -- PORT.PCFG
  ⟨0x800000, 0x10000, 12, 0x0, 1, 0x0, 1, 1, true,
    [fc .portPcfgMaxspd 5, fc .portPcfgLoptEn 4, fc .portPcfgBif 0]⟩,
  -- PORT.LPCFG
  ⟨0x800010, 0x10000, 12, 0x4, 4, 0x0, 1, 1, true,
    [fc .portLpcfgAutoBind 23, fc .portLpcfgVcs 16, fc .portLpcfgBind 4, fc .portLpcfgRole 0]⟩,
  -- PORT.LSTS
  ⟨0x800100, 0x10000, 12, 0x10, 4, 0x0, 1, 1, true,
    [fs .portLstsCfgBad 31, fs .portLstsBound 30, fs .portLstsBoundVcs 23, fs .portLstsCxlVer 20, fs .portLstsFlit 18, fs .portLstsIdeOn 17, fs .portLstsPrsnt 16, fs .portLstsMld 15, fs .portLstsMem 14, fs .portLstsCache 13, fs .portLstsIo 12, fs .portLstsWidth 8, fs .portLstsSpeed 5, fs .portLstsContained 1, fs .portLstsLinkUp 0]⟩,
  -- PORT.CONT
  ⟨0x800104, 0x10000, 12, 0x10, 4, 0x0, 1, 1, true,
    [fs .portContSynCnt 8, fs .portContDpcTrig 7, fs .portContReason 4, fs .portContSwTrig 3, fs .portContCaSel 2, fs .portContNfTrig 1]⟩,
  -- PORT.LPM_CTL
  ⟨0xbf0000, 0x0, 1, 0x0, 1, 0x0, 1, 1, false,
    [fc .portLpmCtlL1En 1, fc .portLpmCtlL0pEn 0]⟩]

/-- The registers of block CLU. -/
def regsClu : List RegRow := [
  -- CLU.FWD_CTL
  ⟨0xc00000, 0x10000, 6, 0x0, 1, 0x0, 1, 1, true,
    [fs .cluFwdCtlCfgBad 31, fc .cluFwdCtlCtDis 1, fc .cluFwdCtlCtPref 0]⟩,
  -- CLU.CMIN_k
  ⟨0xc00010, 0x10000, 6, 0x4, 4, 0x0, 1, 1, true,
    [fc .cluCminCminHi 16, fc .cluCminCminLo 0]⟩,
  -- CLU.SHR_CTL
  ⟨0xc00020, 0x10000, 6, 0x0, 1, 0x0, 1, 1, true,
    [fs .cluShrCtlPool 16, fc .cluShrCtlEgrShrMax 0]⟩,
  -- CLU.MARK
  ⟨0xc00030, 0x10000, 6, 0x0, 1, 0x0, 1, 1, true,
    [fc .cluMarkCgSev 31, fc .cluMarkSev 16, fc .cluMarkMod 0]⟩,
  -- CLU.FELL
  ⟨0xc00040, 0x10000, 6, 0x0, 1, 0x0, 1, 1, true,
    [fs .cluFellMir 16, fs .cluFellMig 0]⟩,
  -- CLU.OCC_q
  ⟨0xc00100, 0x10000, 6, 0x4, 8, 0x0, 1, 1, true,
    [fs .cluOccPeak 16, fs .cluOccCells 0]⟩,
  -- CLU.SHR_STS
  ⟨0xc00120, 0x10000, 6, 0x0, 1, 0x0, 1, 1, true,
    [fs .cluShrStsFree 0]⟩]

/-- The registers of block MIR. -/
def regsMir : List RegRow := [
  -- MIR_CTL
  ⟨0xcf0000, 0x0, 1, 0x100, 8, 0x0, 1, 1, false,
    [fs .mirCtlEn 31, fs .mirCtlActive 30, fs .mirCtlCfgErr 29, fc .mirCtlAlp 16, fc .mirCtlSnap 14, fc .mirCtlDir 12, fc .mirCtlSelKind 9]⟩,
  -- MIR_SEL
  ⟨0xcf0004, 0x0, 1, 0x100, 8, 0x0, 1, 1, false,
    [fc .mirSelLport 24, fc .mirSelHost 16, fc .mirSelSlice 0]⟩,
  -- MIR_LO and MIR_HI
  ⟨0xcf0008, 0x0, 1, 0x100, 8, 0x0, 1, 2, false,
    [fc .mirLoAddr 12]⟩,
  -- MIR_LO and MIR_HI
  ⟨0xcf0010, 0x0, 1, 0x100, 8, 0x0, 1, 2, false,
    [fc .mirHiAddr 12]⟩,
  -- MIR_SAMP
  ⟨0xcf0018, 0x0, 1, 0x100, 8, 0x0, 1, 1, false,
    [fs .mirSampNm1 0]⟩,
  -- MIR_BUF_BASE
  ⟨0xcf0020, 0x0, 1, 0x100, 8, 0x0, 1, 2, false,
    [fc .mirBufBaseBase 12]⟩,
  -- MIR_BUF_SIZE
  ⟨0xcf0028, 0x0, 1, 0x100, 8, 0x0, 1, 1, false,
    [fc .mirBufSizePages 0]⟩,
  -- MIR_WPA
  ⟨0xcf0030, 0x0, 1, 0x100, 8, 0x0, 1, 2, false,
    [fc .mirWpaAddr 3]⟩,
  -- MIR_CAP
  ⟨0xcf0038, 0x0, 1, 0x100, 8, 0x0, 1, 1, false,
    [fs .mirCapCells 0]⟩,
  -- MIR_STS
  ⟨0xcf003c, 0x0, 1, 0x100, 8, 0x0, 1, 1, false,
    [fs .mirStsLost 16]⟩]

/-- The registers of block DIR. -/
def regsDir : List RegRow := [
  -- DIR.TRK_STS
  ⟨0x1000000, 0x10000, 12, 0x0, 1, 0x0, 1, 1, true,
    [fs .dirTrkStsRsv 24, fs .dirTrkStsShr 16, fs .dirTrkStsWb 8, fs .dirTrkStsPeak 0]⟩,
  -- DIR.OCC
  ⟨0x1000004, 0x10000, 12, 0x0, 1, 0x0, 1, 1, true,
    [fs .dirOccValid 0]⟩,
  -- DIR.COARSE
  ⟨0x1000008, 0x10000, 12, 0x0, 1, 0x0, 1, 1, true,
    [fs .dirCoarseEntries 0]⟩,
  -- DIR.CNT_RETRY, DIR.CNT_EVICT, DIR.CNT_BISNP
  ⟨0x1000010, 0x10000, 12, 0x0, 1, 0x0, 1, 1, true,
    [fs .dirCntRetryCount 0]⟩,
  -- DIR.CNT_RETRY, DIR.CNT_EVICT, DIR.CNT_BISNP
  ⟨0x1000014, 0x10000, 12, 0x0, 1, 0x0, 1, 1, true,
    [fs .dirCntEvictCount 0]⟩,
  -- DIR.CNT_RETRY, DIR.CNT_EVICT, DIR.CNT_BISNP
  ⟨0x1000018, 0x10000, 12, 0x0, 1, 0x0, 1, 1, true,
    [fs .dirCntBisnpCount 0]⟩,
  -- DIR.ECC_STS
  ⟨0x1000020, 0x10000, 12, 0x0, 1, 0x0, 1, 1, true,
    [fs .dirEccStsUe 31, fs .dirEccStsCe 30, fs .dirEccStsWay 14, fs .dirEccStsSet 0]⟩]

/-- The registers of block COH. -/
def regsCoh : List RegRow := [
  -- COH.CTL
  ⟨0x10f0000, 0x0, 1, 0x0, 1, 0x0, 1, 1, false,
    [fc .cohCtlChainMax 20, fc .cohCtlBisnpTmoMs 0]⟩,
  -- COH.FAILED_w
  ⟨0x10f0010, 0x0, 1, 0x4, 4, 0x0, 1, 1, false,
    [fs .cohFailedHost 0]⟩,
  -- COH.WALK_STS
  ⟨0x10f0020, 0x0, 1, 0x0, 1, 0x0, 1, 1, false,
    [fs .cohWalkStsBusy 31, fs .cohWalkStsHost 0]⟩,
  -- COH.SR_CFG_i
  ⟨0x10f0100, 0x0, 1, 0x4, 64, 0x0, 1, 1, false,
    [fc .cohSrCfgV 31, fs .cohSrCfgCfgBad 30, fc .cohSrCfgHomePkg 27, fs .cohSrCfgMembers 16, fs .cohSrCfgBlocks 0]⟩,
  -- COH.SRMAP_n
  ⟨0x10f1000, 0x0, 1, 0x8, 128, 0x0, 1, 2, false,
    [fc .cohSrmapV 7 8 0, fc .cohSrmapV 15 8 1, fc .cohSrmapV 23 8 2, fc .cohSrmapV 31 8 3, fc .cohSrmapV 39 8 4, fc .cohSrmapV 47 8 5, fc .cohSrmapV 55 8 6, fc .cohSrmapV 63 8 7, fc .cohSrmapSr 0 8 0, fc .cohSrmapSr 8 8 1, fc .cohSrmapSr 16 8 2, fc .cohSrmapSr 24 8 3, fc .cohSrmapSr 32 8 4, fc .cohSrmapSr 40 8 5, fc .cohSrmapSr 48 8 6, fc .cohSrmapSr 56 8 7]⟩]

/-- The registers of block XLT. -/
def regsXlt : List RegRow := [
  -- XLT.CTL
  ⟨0x1400000, 0x0, 1, 0x0, 1, 0x0, 1, 1, false,
    [fc .xltCtlWarmEpochs 24, fc .xltCtlMigRate 16, fc .xltCtlEpochMs 4, fc .xltCtlTwinHot 3, fc .xltCtlXltPrefetch 2, fc .xltCtlMigEn 1]⟩,
  -- XLT.HOT_TH
  ⟨0x1400004, 0x0, 1, 0x0, 1, 0x0, 1, 1, false,
    [fc .xltHotThDemoteTh 16, fc .xltHotThPromoteTh 0]⟩,
  -- XLT.MIG_CTL
  ⟨0x1400008, 0x0, 1, 0x0, 1, 0x0, 1, 1, false,
    [fc .xltMigCtlBackoff 16, fc .xltMigCtlMaxPass 12, fc .xltMigCtlHoldMax 0]⟩,
  -- XLT.PT_LOC
  ⟨0x1400010, 0x0, 1, 0x0, 1, 0x0, 1, 1, false,
    [fs .xltPtLocCopyV 31, fs .xltPtLocCopyDev 24, fs .xltPtLocReady 23, fs .xltPtLocPrimDev 16, fs .xltPtLocBlocks 0]⟩,
  -- XLT.LDT_n
  ⟨0x1401000, 0x0, 1, 0x8, 128, 0x0, 1, 2, false,
    [fc .xltLdtPages 32, fs .xltLdtFirst 0]⟩,
  -- XLT.BEDEV_b
  ⟨0x1402000, 0x0, 1, 0x4, 128, 0x0, 1, 1, false,
    [fs .xltBedevV 31, fs .xltBedevTier 30, fs .xltBedevFgrp 26, fs .xltBedevLost 25, fs .xltBedevLport 16, fs .xltBedevLdId 12]⟩,
  -- XLT.MIG_STS_s
  ⟨0x1400100, 0x0, 1, 0x8, 16, 0x0, 1, 1, true,
    [fs .xltMigStsState 29, fs .xltMigStsPass 26, fs .xltMigStsDirty 16, fs .xltMigStsRebuild 15, fs .xltMigStsReason 11, fs .xltMigStsLd 0]⟩,
  -- XLT.MIG_PAGE_s
  ⟨0x1400104, 0x0, 1, 0x8, 16, 0x0, 1, 1, true,
    [fs .xltMigPagePage 0]⟩,
  -- XLT.MIG_CNT
  ⟨0x1400200, 0x0, 1, 0x0, 1, 0x0, 1, 1, true,
    [fs .xltMigCntAbort 16, fs .xltMigCntDone 0]⟩,
  -- XLT.HOLD_STS
  ⟨0x1400204, 0x0, 1, 0x0, 1, 0x0, 1, 1, true,
    [fs .xltHoldStsAbandon 24, fs .xltHoldStsPeak 8, fs .xltHoldStsHeld 0]⟩,
  -- XLT.UNMAP_CNT
  ⟨0x1400208, 0x0, 1, 0x0, 1, 0x0, 1, 1, true,
    [fs .xltUnmapCntCount 0]⟩]

/-- The registers of block ALLOC. -/
def regsAlloc : List RegRow := [
  -- ALLOC.CTL
  ⟨0x1500000, 0x0, 1, 0x0, 1, 0x0, 1, 1, false,
    [fc .allocCtlZeroRate 25, fc .allocCtlAckTmoS 16, fc .allocCtlGraceS 0]⟩,
  -- ALLOC.CTL2
  ⟨0x1500004, 0x0, 1, 0x0, 1, 0x0, 1, 1, false,
    [fc .allocCtl2ReclaimS 0]⟩,
  -- ALLOC.T0_RESV
  ⟨0x1500008, 0x0, 1, 0x0, 1, 0x0, 1, 1, false,
    [fc .allocT0ResvBlocks 0]⟩,
  -- ALLOC.POOL_STS_t
  ⟨0x1500010, 0x0, 1, 0x8, 2, 0x0, 1, 2, false,
    [fs .allocPoolStsZeroing 32, fs .allocPoolStsFree 0]⟩,
  -- ALLOC.GNT_STS
  ⟨0x1500020, 0x0, 1, 0x0, 1, 0x0, 1, 1, false,
    [fs .allocGntStsWaiting 16, fs .allocGntStsPeakUs 8, fs .allocGntStsBusy 0]⟩,
  -- ALLOC.MIR_STS
  ⟨0x1500024, 0x0, 1, 0x0, 1, 0x0, 1, 1, false,
    [fs .allocMirStsMirrored 31, fs .allocMirStsSyncing 2, fs .allocMirStsStbyDie 0]⟩,
  -- ALLOC.HQ_h
  ⟨0x1501000, 0x0, 1, 0x8, 128, 0x0, 1, 2, false,
    [fs .allocHqUsed 32, fc .allocHqQuota 0]⟩,
  -- ALLOC.HOST_STS_h
  ⟨0x1501800, 0x0, 1, 0x4, 128, 0x0, 1, 1, false,
    [fs .allocHostStsRemainS 16, fs .allocHostStsState 0]⟩,
  -- ALLOC.RGN_n_r
  ⟨0x1504000, 0x0, 1, 0x40, 128, 0x8, 8, 2, false,
    [fc .allocRgnPages 32, fc .allocRgnBase 0]⟩,
  -- ALLOC.RPOL_n_r
  ⟨0x1506000, 0x0, 1, 0x20, 128, 0x4, 8, 1, false,
    [fc .allocRpolInitBlocks 16, fc .allocRpolDefined 15, fc .allocRpolShared 14, fc .allocRpolTwin 13, fc .allocRpolSpread 12, fc .allocRpolFallback 11, fc .allocRpolTierPref 10, fc .allocRpolIntlv 8, fc .allocRpolWays 5]⟩,
  -- ALLOC.SQ_s
  ⟨0x1508000, 0x0, 1, 0x8, 4096, 0x0, 1, 2, false,
    [fs .allocSqUsed 32, fc .allocSqQuota 0]⟩]

/-- The registers of block GATE. -/
def regsGate : List RegRow := [
  -- GATE.CTL
  ⟨0x1600000, 0x0, 1, 0x0, 1, 0x0, 1, 1, false,
    [fc .gateCtlSyncWarnMs 16, fc .gateCtlDfltHost 2, fc .gateCtlDfltPt 1, fc .gateCtlDfltLd 0]⟩,
  -- GATE.GEN
  ⟨0x1600004, 0x0, 1, 0x0, 1, 0x0, 1, 1, true,
    [fs .gateGenInstalling 31, fs .gateGenBadRules 16, fs .gateGenGen 0]⟩,
  -- GATE.SYNC
  ⟨0x1600008, 0x0, 1, 0x0, 1, 0x0, 1, 1, false,
    [fs .gateSyncReq 31, fs .gateSyncInflt 16, fs .gateSyncTargetGen 0]⟩,
  -- GATE.SYNC_DONE
  ⟨0x160000c, 0x0, 1, 0x0, 1, 0x0, 1, 1, false,
    [fs .gateSyncDoneOldestGen 16, fs .gateSyncDoneDone 0]⟩,
  -- GATE.VLOG_STS
  ⟨0x1600010, 0x0, 1, 0x0, 1, 0x0, 1, 1, true,
    [fs .gateVlogStsLost 16, fs .gateVlogStsRd 8, fs .gateVlogStsAdvWr 7, fs .gateVlogStsCountAdv 0]⟩,
  -- GATE.HVIOL_h
  ⟨0x1600800, 0x0, 1, 0x4, 128, 0x0, 1, 1, false,
    [fs .gateHviolCount 0]⟩,
  -- GATE.RULE_BASE_i, GATE.RULE_LIMIT_i
  ⟨0x1680000, 0x0, 1, 0x20, 16384, 0x0, 1, 2, false,
    [fc .gateRuleBasePage 12]⟩,
  -- GATE.RULE_BASE_i, GATE.RULE_LIMIT_i
  ⟨0x1680008, 0x0, 1, 0x20, 16384, 0x0, 1, 2, false,
    [fc .gateRuleLimitPage 12]⟩,
  -- GATE.RULE_REQ_i
  ⟨0x1680010, 0x0, 1, 0x20, 16384, 0x0, 1, 1, false,
    [fc .gateRuleReqV 31, fc .gateRuleReqLportAny 30, fc .gateRuleReqHostAny 29, fc .gateRuleReqPasidV 28, fc .gateRuleReqLport 20, fc .gateRuleReqHost 13, fc .gateRuleReqKinds 0]⟩,
  -- GATE.RULE_PASID_i
  ⟨0x1680014, 0x0, 1, 0x20, 16384, 0x0, 1, 1, false,
    [fc .gateRulePasidPasid 0]⟩,
  -- GATE.RULE_TGT_i
  ⟨0x1680018, 0x0, 1, 0x20, 16384, 0x0, 1, 1, false,
    [fc .gateRuleTgtTkind 30, fc .gateRuleTgtLdId 8, fc .gateRuleTgtTgt 0]⟩,
  -- GATE.VrecAddr
  ⟨0x1601000, 0x0, 1, 0x20, 64, 0x0, 1, 2, true,
    [fs .gateVrecAddrAddr 0]⟩,
  -- GATE.VrecTs
  ⟨0x1601008, 0x0, 1, 0x20, 64, 0x0, 1, 2, true,
    [fs .gateVrecTsNs 0]⟩,
  -- GATE.VrecReq
  ⟨0x1601010, 0x0, 1, 0x20, 64, 0x0, 1, 1, true,
    [fs .gateVrecReqLport 24, fs .gateVrecReqHostV 23, fs .gateVrecReqHost 16, fs .gateVrecReqProto 8, fs .gateVrecReqKind 0]⟩,
  -- GATE.VrecPasid
  ⟨0x1601014, 0x0, 1, 0x20, 64, 0x0, 1, 1, true,
    [fs .gateVrecPasidPasidV 20, fs .gateVrecPasidPasid 0]⟩,
  -- GATE.VrecRule
  ⟨0x1601018, 0x0, 1, 0x20, 64, 0x0, 1, 1, true,
    [fs .gateVrecRuleNomatch 31, fs .gateVrecRuleParts 24, fs .gateVrecRuleRegionV 23, fs .gateVrecRuleRegion 20, fs .gateVrecRuleRule 0]⟩,
  -- GATE.VrecTgt
  ⟨0x160101c, 0x0, 1, 0x20, 64, 0x0, 1, 1, true,
    [fs .gateVrecTgtGen 16, fs .gateVrecTgtTkind 14, fs .gateVrecTgtLdId 8, fs .gateVrecTgtTgt 0]⟩]

/-- The registers of block QOS. -/
def regsQos : List RegRow := [
  -- QOS.CTL
  ⟨0x1700000, 0x0, 1, 0x0, 1, 0x0, 1, 1, false,
    [fs .qosCtlCfgBad 31, fc .qosCtlRedDl 8, fc .qosCtlColAware 0]⟩,
  -- QOS.UNATTR
  ⟨0x1700004, 0x0, 1, 0x0, 1, 0x0, 1, 1, false,
    [fs .qosUnattrCount 0]⟩,
  -- QOS.RSMAP_n_r
  ⟨0x1700800, 0x0, 1, 0x20, 128, 0x4, 8, 1, false,
    [fc .qosRsmapV 31, fs .qosRsmapCfgBad 30, fc .qosRsmapSlice 0]⟩,
  -- QOS.POL_RATE_h
  ⟨0x1702000, 0x0, 1, 0x20, 128, 0x0, 1, 1, false,
    [fc .qosPolRateEn 31, fc .qosPolRateCir 0]⟩,
  -- QOS.POL_PIR_h
  ⟨0x1702004, 0x0, 1, 0x20, 128, 0x0, 1, 1, false,
    [fc .qosPolPirPir 0]⟩,
  -- QOS.POL_BKT_h
  ⟨0x1702008, 0x0, 1, 0x20, 128, 0x0, 1, 1, false,
    [fc .qosPolBktPbs 16, fc .qosPolBktCbs 0]⟩,
  -- QOS.POL_STS_h
  ⟨0x170200c, 0x0, 1, 0x20, 128, 0x0, 1, 1, false,
    [fs .qosPolStsCfgBad 31, fs .qosPolStsRedMk 30]⟩,
  -- QOS.POL_RED_h, QOS.POL_YEL_h
  ⟨0x1702010, 0x0, 1, 0x20, 128, 0x0, 1, 1, false,
    [fs .qosPolRedCount 0]⟩,
  -- QOS.POL_RED_h, QOS.POL_YEL_h
  ⟨0x1702014, 0x0, 1, 0x20, 128, 0x0, 1, 1, false,
    [fs .qosPolYelCount 0]⟩,
  -- QOS.SLICE_KEY_s
  ⟨0x1710000, 0x0, 1, 0x10, 4096, 0x0, 1, 1, false,
    [fc .qosSliceKeyV 31, fc .qosSliceKeyPriv 30, fs .qosSliceKeyCfgBad 29, fc .qosSliceKeyPasidV 28, fc .qosSliceKeyHost 21, fc .qosSliceKeyPasid 0]⟩,
  -- QOS.SLICE_SHAPE_s
  ⟨0x1710004, 0x0, 1, 0x10, 4096, 0x0, 1, 1, false,
    [fc .qosSliceShapeShEn 31, fc .qosSliceShapeRate 0]⟩,
  -- QOS.SLICE_SCHED_s
  ⟨0x1710008, 0x0, 1, 0x10, 4096, 0x0, 1, 1, false,
    [fc .qosSliceSchedWeight 16, fc .qosSliceSchedBurst 0]⟩,
  -- QOS.SLICE_LVL_s
  ⟨0x171000c, 0x0, 1, 0x10, 4096, 0x0, 1, 1, false,
    [fs .qosSliceLvlHeld 31, fs .qosSliceLvlLevel 0]⟩]

/-- The registers of block RING. -/
def regsRing : List RegRow := [
  -- RING.CTL
  ⟨0x1800000, 0x0, 1, 0x0, 1, 0x0, 1, 1, true,
    [fc .ringCtlMovMin 16, fc .ringCtlResRetryUs 0]⟩,
  -- RING.ENG_STS
  ⟨0x1800004, 0x0, 1, 0x0, 1, 0x0, 1, 1, true,
    [fs .ringEngStsActive 16, fs .ringEngStsError 0]⟩,
  -- RING.MOV_STS
  ⟨0x1800008, 0x0, 1, 0x0, 1, 0x0, 1, 1, true,
    [fs .ringMovStsChRing 16, fs .ringMovStsChBusy 0]⟩,
  -- RING.MirRcfg
  ⟨0x1900000, 0x0, 1, 0x10, 16384, 0x0, 1, 1, true,
    [fs .ringMirRcfgWord 0]⟩,
  -- RING.MirRsts
  ⟨0x1900004, 0x0, 1, 0x10, 16384, 0x0, 1, 1, true,
    [fs .ringMirRstsWord 0]⟩,
  -- RING.MirRidx
  ⟨0x1900008, 0x0, 1, 0x10, 16384, 0x0, 1, 1, true,
    [fs .ringMirRidxWord 0]⟩,
  -- RING.MirHead
  ⟨0x190000c, 0x0, 1, 0x10, 16384, 0x0, 1, 1, true,
    [fs .ringMirHeadWord 0]⟩]

/-- The registers of block SLOT. -/
def regsSlot : List RegRow := [
  -- SLOT.CTL
  ⟨0x2000000, 0x10000, 12, 0x0, 1, 0x0, 1, 1, true,
    [fs .slotCtlCfgBad 31, fc .slotCtlRetryMax 9, fc .slotCtlFtMult 7, fc .slotCtlPgPol 6, fc .slotCtlPgFn 5, fc .slotCtlPrsntIgn 1, fc .slotCtlEn 0]⟩,
  -- SLOT.VWIN
  ⟨0x2000004, 0x10000, 12, 0x0, 1, 0x0, 1, 1, true,
    [fc .slotVwinOv 16, fc .slotVwinUv 0]⟩,
  -- SLOT.LIM
  ⟨0x2000008, 0x10000, 12, 0x0, 1, 0x0, 1, 1, true,
    [fc .slotLimEwPct 25, fc .slotLimFltMs 16, fc .slotLimVlim 0]⟩,
  -- SLOT.TIME
  ⟨0x200000c, 0x10000, 12, 0x0, 1, 0x0, 1, 1, true,
    [fc .slotTimeDischMs 16, fc .slotTimeInsMs 0]⟩,
  -- SLOT.STS
  ⟨0x2000010, 0x10000, 12, 0x0, 1, 0x0, 1, 1, true,
    [fs .slotStsState 29, fs .slotStsPrsnt 28, fs .slotStsPgInt 27, fs .slotStsPin 26, fs .slotStsLim 25, fs .slotStsEw 24, fs .slotStsSag 23, fs .slotStsLastFault 16, fs .slotStsAttempts 8]⟩,
  -- SLOT.MEAS
  ⟨0x2000014, 0x10000, 12, 0x0, 1, 0x0, 1, 1, true,
    [fs .slotMeasVout 16, fs .slotMeasVin 0]⟩,
  -- SLOT.IMEAS
  ⟨0x2000018, 0x10000, 12, 0x0, 1, 0x0, 1, 1, true,
    [fs .slotImeasPeak 16, fs .slotImeasSense 0]⟩,
  -- SLOT.CMD
  ⟨0x2000020, 0x10000, 12, 0x0, 1, 0x0, 1, 1, true,
    [fs .slotCmdResult 30, fs .slotCmdCmd 0]⟩,
  -- SLOT.FLT_CNT
  ⟨0x2000024, 0x10000, 12, 0x0, 1, 0x0, 1, 1, true,
    [fs .slotFltCntFt 24, fs .slotFltCntTmr 16, fs .slotFltCntInput 8, fs .slotFltCntEwarn 0]⟩]

/-- The registers of block PMC. -/
def regsPmc : List RegRow := [
  -- PMC.CTL
  ⟨0x2100000, 0x0, 1, 0x0, 1, 0x0, 1, 1, false,
    [fs .pmcCtlFreeze 31, fc .pmcCtlPmuUser 0]⟩,
  -- PMC.CLR
  ⟨0x2100004, 0x0, 1, 0x0, 1, 0x0, 1, 1, true,
    [fs .pmcClrAll 31, fs .pmcClrIndex 0]⟩,
  -- PMC.SLC_CLR
  ⟨0x2100008, 0x0, 1, 0x0, 1, 0x0, 1, 1, true,
    [fs .pmcSlcClrGo 31, fs .pmcSlcClrSlice 0]⟩,
  -- PMC.RD_TS
  ⟨0x2100010, 0x0, 1, 0x0, 1, 0x0, 1, 2, true,
    [fs .pmcRdTsNs 0]⟩,
  -- PMC.TD_p
  ⟨0x2100100, 0x0, 1, 0x4, 12, 0x0, 1, 1, true,
    [fs .pmcTdInvalid 31, fs .pmcTdDelivered 21, fs .pmcTdWasted 14, fs .pmcTdStarved 7, fs .pmcTdBlocked 0]⟩,
  -- PMC.OVF_w
  ⟨0x2100200, 0x0, 1, 0x4, 32, 0x0, 1, 1, true,
    [fs .pmcOvfOvf 0]⟩,
  -- PMC.SEL_i
  ⟨0x2101000, 0x0, 1, 0x4, 1024, 0x0, 1, 1, true,
    [fs .pmcSelEn 31, fs .pmcSelQual 27, fs .pmcSelBad 26, fs .pmcSelEvent 16, fs .pmcSelThr 0]⟩,
  -- PMC.VAL_i
  ⟨0x2104000, 0x0, 1, 0x8, 1024, 0x0, 1, 2, true,
    [fs .pmcValOvf 63, fs .pmcValCount 0]⟩]

/-- The registers of block NVM. -/
def regsNvm : List RegRow := [
  -- NVM.SAG_CTL
  ⟨0x2200000, 0x0, 1, 0x0, 1, 0x0, 1, 1, false,
    [fc .nvmSagCtlVinNvw 0]⟩,
  -- NVM.SAG_STS
  ⟨0x2200004, 0x0, 1, 0x0, 1, 0x0, 1, 1, false,
    [fs .nvmSagStsSag 31, fs .nvmSagStsVinLow 30, fs .nvmSagStsRailLow 29, fs .nvmSagStsHeld 8, fs .nvmSagStsDropped 0]⟩,
  -- NVM.FLASH_STS
  ⟨0x2200008, 0x0, 1, 0x0, 1, 0x0, 1, 1, true,
    [fs .nvmFlashStsPresent 31, fs .nvmFlashStsPass 30, fs .nvmFlashStsLog2Mbit 16, fs .nvmFlashStsTorn 0]⟩]

/-- The registers of block SEC. -/
def regsSec : List RegRow := [
  -- SEC.BOOT_STS
  ⟨0x2300000, 0x0, 1, 0x0, 1, 0x0, 1, 1, false,
    [fs .secBootStsStage 28, fs .secBootStsSlot 27, fs .secBootStsFallback 26, fs .secBootStsLead0 24, fs .secBootStsNvmOk 20]⟩,
  -- SEC.IMG_SEQ
  ⟨0x2300008, 0x0, 1, 0x0, 1, 0x0, 1, 2, false,
    [fs .secImgSeqSeq 0]⟩,
  -- SEC.IMG_VER
  ⟨0x2300010, 0x0, 1, 0x0, 1, 0x0, 1, 1, false,
    [fs .secImgVerMajor 24, fs .secImgVerMinor 16, fs .secImgVerSvn 0]⟩,
  -- SEC.AMD_STS
  ⟨0x2300014, 0x0, 1, 0x0, 1, 0x0, 1, 1, false,
    [fs .secAmdStsBusy 31, fs .secAmdStsLogUse 24, fs .secAmdStsLastSeq 0]⟩,
  -- SEC.KEY_STS
  ⟨0x2300018, 0x0, 1, 0x0, 1, 0x0, 1, 1, false,
    [fs .secKeyStsEdSet 28, fs .secKeyStsEdRev 24, fs .secKeyStsMlSet 20, fs .secKeyStsMlRev 16, fs .secKeyStsSvnMin 0]⟩,
  -- SEC.FW_STS
  ⟨0x230001c, 0x0, 1, 0x0, 1, 0x0, 1, 1, false,
    [fs .secFwStsState 29, fs .secFwStsResult 27, fs .secFwStsStagedOk 26, fs .secFwStsNewLead 0]⟩,
  -- SEC.READY_NS
  ⟨0x2300020, 0x0, 1, 0x0, 1, 0x0, 1, 2, false,
    [fs .secReadyNsNs 0]⟩]

/-- The registers of block MON. -/
def regsMon : List RegRow := [
  -- MON.UART_CTL
  ⟨0x2400000, 0x0, 1, 0x0, 1, 0x0, 1, 1, true,
    [fs .monUartCtlBaud 0]⟩,
  -- MON.DBG_STS
  ⟨0x2400004, 0x0, 1, 0x0, 1, 0x0, 1, 1, true,
    [fs .monDbgStsUnlocked 31, fs .monDbgStsLockout 30, fs .monDbgStsScTrace 29, fs .monDbgStsScWrite 28, fs .monDbgStsFails 26, fs .monDbgStsRemainS 0]⟩,
  -- MON.DBG_CMD
  ⟨0x2400008, 0x0, 1, 0x0, 1, 0x0, 1, 1, true,
    [fs .monDbgCmdLock 1, fs .monDbgCmdGo 0]⟩,
  -- MON.TRACE_CTL
  ⟨0x2400010, 0x0, 1, 0x0, 1, 0x0, 1, 1, true,
    [fs .monTraceCtlArmed 31, fs .monTraceCtlFull 30, fs .monTraceCtlLport 16, fs .monTraceCtlCount 0]⟩,
  -- MON.CHAL_w
  ⟨0x2400020, 0x0, 1, 0x4, 8, 0x0, 1, 1, true,
    [fs .monChalChal 0]⟩,
  -- MON.UnlockWin
  ⟨0x2401000, 0x0, 1, 0x4, 2048, 0x0, 1, 1, true,
    [fs .monUnlockWinWord 0]⟩,
  -- MON.TraceRec
  ⟨0x2404000, 0x0, 1, 0x4, 1024, 0x0, 1, 1, true,
    [fs .monTraceRecWord 0]⟩]

/-- Every register of the CSR map (R507, Table 18.1). -/
def regTable : List RegRow :=
  regsDie ++ regsMgmt ++ regsPwr ++ regsHlth ++ regsNoc ++ regsGkl ++ regsPort ++ regsClu ++ regsMir ++ regsDir ++ regsCoh ++ regsXlt ++ regsAlloc ++ regsGate ++ regsQos ++ regsRing ++ regsSlot ++ regsPmc ++ regsNvm ++ regsSec ++ regsMon

end Machine
end Sys2Proof
end

