-- ==== Sys2Proof/Machine/State.lean ====
section
/-! DEFINITION. The state of the FX-768 as plain data: the configuration registers, everything else that changes, and
the queue of waiting commands; the reasons a step can stop; the state after reset. -/

namespace Sys2Proof
namespace Machine

/-- Why a step stops. -/
inductive Fault
  /-- COLD_RST#: held low for between 100 µs and 1 ms the spec says the outcome is not defined (R533). Safe: the model
  stops where the part goes on in some way the spec does not give. -/
  | coldRstUndefined
deriving DecidableEq, Repr

/-- Why a command has no meaning. -/
inductive Refusal
  /-- Raised by the dispatch arm of a command that has no meaning yet. Safe: no claim can be made about it. -/
  | notModelled (mnemonic : String)
deriving DecidableEq, Repr

/-- The configuration registers: RWL and RWA fields, keyed by index * 1024 + field (R3, R4). -/
abbrev Cfg := Arr Nat

/-- Everything that changes other than by configuration: the status registers, the parts of Parts.lean, the package time,
event queue and messages sent out, and the counter that free values are drawn with. -/
structure Dyn where
  sts   : Arr Nat
  now   : Nat
  ev    : List Ev
  out   : List Out
  free  : Nat
  gate  : GateSt
  qos   : QosSt
  flights : List Flight
  fwd   : FwdSt
  mir   : Arr MirSess
  xlt   : XltSt
  alloc : AllocSt
  coh   : CohSt
  port  : PortSt
  noc   : NocSt
  ring  : RingSt
  hlth  : HlthSt
  boot  : StartSt
  gkl   : Arr GklEp
  sys   : SysSt
  pwr   : Arr PwrDom
  slot  : Arr SlotCh
  cnt   : CntSt
  mgmt  : MgmtSt
  mon   : Arr MonDie
  elec  : ElecSt
deriving DecidableEq, Repr

/-- The machine: configuration, the rest, and the commands that wait, first in first out. -/
structure State where
  cfg     : Cfg
  dyn     : Dyn
  pending : List Instr
deriving DecidableEq, Repr

/-! ## Reset -/

/-- Start and trust at reset: nothing read from OTP or flash yet (assumption 4). -/
def boot0 : StartSt :=
  { otp := ⟨[], [], 0, 0, 0, 0, 0, [], []⟩, flash := [], tryB := false, tried := false, badRecs := false, cand := none,
    image := none, pol := ⟨[], []⟩, amdq := [], amd := none, nvq := [], nvBegun := false, nseq := 0, xfer := none,
    staged := none, fw := none, chain := [], signed := [], goodAt := 0, started := 0, elogAt := 0 }

/-- Maintenance at reset: nothing running, no baseline, an empty flash event log, and its burst of 256 records (R492). -/
def hlth0 : HlthSt :=
  { running := [], waiting := [], nextAct := 0, assigns := [], planAt := 0, planOpen := false, planActs := [], planSwaps := [],
    avSteps := arrEmpty, plans := [], based := false, laneBase := arrEmpty, ceSeen := [], 
    hbLead := 0, hbWord := 0, hbAns := 0, withdrawn := [], down := [], fixes := [], avRun := [],
    reeq := [], scrubs := arrEmpty, elog := [], elogTok := 256, elogAt := 0, lossAt := 0, held := [], gateWait := [] }

/-- Translation at reset: nothing placed (R207). -/
def xlt0 : XltSt :=
  { pt := arrEmpty, tw := arrEmpty, cache := arrEmpty, xwait := [], miss := [], hold := [], heldPg := [], hot := arrEmpty,
    sample := arrEmpty, mig := arrEmpty, pws := [], shoots := [], nextId := 0, epoch := 0, epochAt := 0, startAt := 0,
    backoff := arrEmpty, scan := 0, unmapAt := arrEmpty, rewrite := arrEmpty, degraded := [], ldLog := arrEmpty, ldNext := arrEmpty, why := arrEmpty, ldOver := arrEmpty }

/-- The allocator at reset: no device, no grant. The admission rotation of R198 starts as if slice 0 had been admitted last: the spec
gives no start (DESIGN CHOICE, assumption 135). -/
def alloc0 : AllocSt :=
  { nblk := arrEmpty, nseg := arrEmpty, joined := [], blks := arrEmpty, queue := [], lastSlc := 0, ctxs := arrEmpty,
    exts := [], nextTag := 0, nextEid := 0, relEvs := [], hostAt := arrEmpty, bnds := [], drains := [], journal := [],
    inits := [], inited := [], rebuild := false, lowTold := true, moveCopy := none, bindLater := [], paused := [],
    front := arrEmpty, hotAdd := [] }

/-- The network at reset: both banks without words. -/
def noc0 : NocSt :=
  { net := [], wait := [], nextNid := 0, bank0 := ⟨false, 0, arrEmpty⟩, bank1 := ⟨false, 0, arrEmpty⟩, act := none,
    loadAt := 0, swAt := none, pend := [], niFence := arrEmpty, niSent := arrEmpty, spanQ := [], reopen := [], xchs := [],
    refAt := arrEmpty, badWord := [], answered := [] }

/-- Ports at reset: no VCS, no link, no device, every BAR and status clear. -/
def port0 : PortSt :=
  { vcs := [], vcsPort := arrEmpty, viral := [], viralEn := [], insecure := [], l0p := arrEmpty, l0pWish := arrEmpty, l1 := [], heldDown := [],
    lossAt := arrEmpty, dpcAt := arrEmpty, dpcCtl := arrEmpty, device := arrEmpty, inReset := [], ide := arrEmpty, ana := [],
    pdc := [], pdcOwed := [], aer := arrEmpty, bar := arrEmpty, mbox := arrEmpty, poisCnt := arrEmpty,
    startLp := [], owedBind := [], slotAcc := arrEmpty }

/-- Everything but configuration right after reset: status registers at their reset values, no supply yet, nothing in any
buffer, queue or table. The free-value counter starts at 0 (a field of the model's own, DESIGN CHOICE, assumption 1). -/
def dyn0 : Dyn :=
  { sts := arrEmpty, now := 0, ev := [], out := [], free := 0,
    gate := ⟨0, [0, 0, 0, 0], [], 0, 0, 0, false, 0, [0, 0, 0, 0]⟩,
    qos := ⟨arrEmpty, arrEmpty, arrEmpty, 0, none, 1⟩, flights := [],
    fwd := ⟨arrEmpty, arrEmpty, arrEmpty, arrEmpty⟩, mir := arrEmpty, xlt := xlt0, alloc := alloc0,
    coh := ⟨arrEmpty, [], [], [], [], arrEmpty⟩,
    port := port0, noc := noc0,
    ring := ⟨arrEmpty, arrEmpty, arrEmpty⟩, hlth := hlth0, boot := boot0, gkl := arrEmpty, sys := ⟨[], arrEmpty, 0, arrEmpty⟩,
    pwr := arrEmpty, slot := arrEmpty, cnt := ⟨arrEmpty, arrEmpty⟩, mgmt := ⟨[], [], [], [], false, []⟩, mon := arrEmpty,
    elec := ⟨false, false, false, [], [], arrEmpty, true, []⟩ }

/-- The machine right after reset: every register at its reset value, no command waiting. -/
def State.reset : State := { cfg := arrEmpty, dyn := dyn0, pending := [] }

end Machine
end Sys2Proof
end

