-- ==== Sys2Proof/Machine/Ops.lean ====
section
/-! DEFINITION. The named operations on the state that every family uses: reading and writing register fields, raising an
event, sending a message, drawing a free value, time, and the numbering of Table 0.4. -/

namespace Sys2Proof
namespace Machine

/-! ## Register fields -/

/-- Key of a configuration field of an index. -/
def cKey (f : CFld) (i : Nat) : Nat := i * 1024 + f.ctorIdx

/-- Key of a status field of an index. -/
def sKey (f : SFld) (i : Nat) : Nat := i * 1024 + f.ctorIdx

/-- Read a configuration field. -/
def cg (g : Cfg) (f : CFld) (i : Nat) : Nat := aget (cfgReset f i) g (cKey f i)

/-- Write a configuration field, cut to its width. -/
def cput (f : CFld) (i v : Nat) (g : Cfg) : Cfg := aset (cfgReset f i) g (cKey f i) (v % 2 ^ cfgWidth f)

/-- Read a status field. -/
def rd (d : Dyn) (f : SFld) (i : Nat) : Nat := aget (stsReset f i) d.sts (sKey f i)

/-- Write a status field, cut to its width. -/
def put (f : SFld) (i v : Nat) (d : Dyn) : Dyn :=
  { d with sts := aset (stsReset f i) d.sts (sKey f i) (v % 2 ^ stsWidth f) }

/-- Add to a status counter, which saturates at its width. -/
def bump (f : SFld) (i n : Nat) (d : Dyn) : Dyn := put f i (satAdd (stsWidth f) (rd d f i) n) d

/-- Raise a peak register to a value. -/
def peak (f : SFld) (i v : Nat) (d : Dyn) : Dyn := put f i (max (rd d f i) (min v (2 ^ stsWidth f - 1))) d

/-- Set one bit of a status field. -/
def putBit (f : SFld) (i k : Nat) (b : Bool) (d : Dyn) : Dyn :=
  put f i (if b then bitSet (rd d f i) k else bitClr (rd d f i) k) d

/-- The indices at which a configuration field is listed, rising. -/
def cfgListed (g : Cfg) (f : CFld) : List Nat :=
  g.cells.filterMap fun c => if c.1 % 1024 = f.ctorIdx then some (c.1 / 1024) else none

/-- The indices at which a status field is listed, rising. -/
def stsListed (d : Dyn) (f : SFld) : List Nat :=
  d.sts.cells.filterMap fun c => if c.1 % 1024 = f.ctorIdx then some (c.1 / 1024) else none

/-! ## Numbering (Table 0.4) -/

/-- Die of a logical port. -/
def lpDie (lp : Nat) : Nat := lp / 48
/-- Port unit of a logical port. -/
def lpPu (lp : Nat) : Nat := lp / 4
/-- Cluster of a logical port. -/
def lpClu (lp : Nat) : Nat := lp / 8
/-- Region of a cluster: die * 2 + local cluster / 3 (R23). -/
def cluRegion (c : Nat) : Nat := c / 6 * 2 + c % 6 / 3
/-- Region of a port unit. -/
def puRegion (p : Nat) : Nat := cluRegion (p / 2)
/-- Router of a cluster, row * 8 + column (R23). -/
def cluRouter (c : Nat) : Nat := (c % 6 % 3) * 8 + 2 * (c / 6) + c % 6 / 3
/-- Service router of a region: row 3 of its column (R23). -/
def svcRouter (r : Nat) : Nat := 24 + r
/-- Region of a router: its column. -/
def rtrRegion (r : Nat) : Nat := r % 8

/-! ## Power domains (Table 13.2 and PWR.DOM_STS_k): die * 23 + k -/

/-- Domain of a port unit. -/
def domPu (p : Nat) : Nat := p / 12 * 23 + p % 12
/-- Domain of a cluster. -/
def domClu (c : Nat) : Nat := c / 6 * 23 + 12 + c % 6
/-- Domain of a region's service block. -/
def domSvc (r : Nat) : Nat := r / 2 * 23 + 18 + r % 2
/-- Domain of a region. -/
def domReg (r : Nat) : Nat := r / 2 * 23 + 20 + r % 2
/-- Domain of a die. -/
def domDie (k : Nat) : Nat := k * 23 + 22
/-- The domain that contains a router: its whole cluster, or its service block (R349). -/
def domRtr (r : Nat) : Nat := if r / 8 < 3 then domClu (r % 8 / 2 * 6 + r % 2 * 3 + r / 8) else domSvc (r % 8)

/-- A domain at work since the start. -/
def pwr0 : PwrDom := ⟨0, 0, [], [], 0, 0, none, false, 0, 0, 0, 0, 0, 0⟩

/-- The power domain record of a domain. -/
def pwrGet (d : Dyn) (j : Nat) : PwrDom := aget pwr0 d.pwr j
/-- Write the power domain record of a domain. -/
def pwrSet (j : Nat) (p : PwrDom) (d : Dyn) : Dyn := { d with pwr := aset pwr0 d.pwr j p }

/-- The state of Table 13.1 a domain is in: 0 ACTIVE, 1 IDLE, 2 GLADE, 3 CLEARING; while it enters a state it still works, and
while it wakes it does not (R400, R408, R409). -/
def domPwr (d : Dyn) (j : Nat) : Nat :=
  match rd d .pwrDomStsState j with
  | 4 => 0
  | 5 => (pwrGet d j).from0
  | n => n

/-- The domains that a domain contains directly: a cluster its two port units, a region its clusters and service block, a die its
regions. -/
def domKids (j : Nat) : List Nat :=
  let die := j / 23 * 23
  let k := j % 23
  if k < 12 then []
  else if k < 18 then [die + 2 * (k - 12), die + 2 * (k - 12) + 1]
  else if k < 20 then []
  else if k < 22 then [die + 12 + 3 * (k - 20), die + 13 + 3 * (k - 20), die + 14 + 3 * (k - 20), die + 18 + (k - 20)]
  else [die + 20, die + 21]

/-- A domain and everything below it. -/
def domAll (j : Nat) : List Nat :=
  let a := domKids j
  let b := a.flatMap domKids
  j :: (a ++ b ++ b.flatMap domKids)

/-- The domain above a domain. -/
def domUp (j : Nat) : Option Nat :=
  let die := j / 23 * 23
  let k := j % 23
  if k < 12 then some (die + 12 + k / 2)
  else if k < 18 then some (die + 20 + (k - 12) / 3)
  else if k < 20 then some (die + 20 + (k - 18))
  else if k < 22 then some (die + 22)
  else none

/-- The domains above a domain, nearest first. -/
def domAbove (j : Nat) : List Nat :=
  match domUp j with
  | none => []
  | some a => a :: match domUp a with
    | none => []
    | some b => b :: (domUp b).toList

/-! ## Clock gating of units (R13, R16, R405) -/

/-- Number of a unit that gates its own clock: port units from 0, slices from 48, buffers from 96, routers from 120, translation banks
from 152, then ring engines, data movers, allocator shards, management complexes and NVM controllers by die, link endpoints from 188. -/
def gateNo : GateUnit → Nat
  | .pu p => p
  | .slice n => 48 + n
  | .buf c => 96 + c
  | .router r => 120 + r
  | .bank b => 152 + b
  | .ring k => 168 + k
  | .mover k => 172 + k
  | .shard k => 176 + k
  | .mgmt k => 180 + k
  | .nvm k => 184 + k
  | .link n => 188 + n

/-- The smallest domain a unit lies in (Tables 1.2 and 13.2); a link endpoint lies in its region. -/
def unitDom (u : Nat) : Nat :=
  if u < 48 then domPu u
  else if u < 96 then domClu ((u - 48) / 2)
  else if u < 120 then domClu (u - 96)
  else if u < 152 then domRtr (u - 120)
  else if u < 168 then domSvc (2 * ((u - 152) / 4) + 1)
  else if u < 180 then domSvc (2 * ((u - 168) % 4) + 1)
  else if u < 188 then domSvc (2 * ((u - 180) % 4))
  else domReg (2 * ((u - 188) / 9) + (if 4 ≤ (u - 188) % 9 ∧ (u - 188) % 9 < 8 then 1 else 0))

/-- The units of a domain and everything below it. -/
def domUnits (j : Nat) : List Nat := (List.range 224).filter fun u => (domAll j).contains (unitDom u)

/-- A unit's clock is gated. -/
def gated (d : Dyn) (u : Nat) : Bool := d.elec.gated.contains u

/-- A gated clock opens on the unit's next input: the unit works again, and with it no domain that holds it is IDLE (R405). -/
def ungate (u : Nat) (d : Dyn) : Dyn :=
  if gated d u then
    forAll (unitDom u :: domAbove (unitDom u)) (fun j d =>
        if rd d .pwrDomStsState j = 1 then pwrSet j { pwrGet d j with workAt := d.now } (put .pwrDomStsState j 0 d) else d)
      { d with elec := { d.elec with gated := d.elec.gated.filter fun x => x != u } }
  else d

/-- The clocks of a domain's units open together (R405). -/
def ungateDom (j : Nat) (d : Dyn) : Dyn := forAll (domUnits j) ungate d

/-! ## Events, messages, free values -/

/-- The package timestamp as die `k` reads it (R34, R35). -/
def dieTs (d : Dyn) (k : Nat) : Nat := rd d .dieTstampNs k

/-- The lead die, the one whose DIE_ID.LEAD is 1 (R26); `none` before election and during a failover. -/
def leadDie (d : Dyn) : Option Nat := firstFrom (fun k => rd d .dieDieIdLead k == 1) 0 4

/-- The standby die (R27). -/
def standbyDie (d : Dyn) : Option Nat := firstFrom (fun k => rd d .dieDieIdStandby k == 1) 0 4

/-- The die that serves package-wide state: the lead, or die 0 while there is none. -/
def leadOr0 (d : Dyn) : Nat := (leadDie d).getD 0

/-- Insert an event in timestamp order, after those of the same time (R492). -/
def evInsert (e : Ev) : List Ev → List Ev
  | [] => [e]
  | x :: t => if e.ts < x.ts then e :: x :: t else x :: evInsert e t

/-- Raise an event on a die: it enters the lead's queue of 1,024 records in timestamp order; in a full queue the oldest
unwritten record is overwritten and counted in ELOG_DROP (R9, R492). -/
def raise (code die : Nat) (args : List Nat) (d : Dyn) : Dyn :=
  let e : Ev := ⟨dieTs d die, code, die, args⟩
  if d.ev.length < 1024 then { d with ev := evInsert e d.ev }
  else
    let d := bump .hlthElogDropCount 0 1 { d with ev := evInsert e (d.ev.drop 1) }
    if d.now < d.hlth.lossAt then d
    else
      let x : Ev := ⟨e.ts, 0x0C0C, die, []⟩
      bump .hlthElogDropCount 0 1 { d with ev := evInsert x (d.ev.drop 1), hlth := { d.hlth with lossAt := d.now + 1000000000 } }

/-- Send a message out. -/
def emit (o : Out) (d : Dyn) : Dyn := { d with out := d.out ++ [o] }

/-- A free number (assumption 1): its value, and the state with the counter moved on. -/
def drawNat (d : Dyn) : Nat × Dyn := (Config.freeNat d.free, { d with free := d.free + 1 })

/-- A free word (assumption 1). -/
def drawWord (d : Dyn) : Word × Dyn := (Config.freeWord d.free, { d with free := d.free + 1 })

/-! ## Outcomes -/

/-- A meaning that changes everything but the configuration registers: R4 holds of it by its form. -/
def nextDyn (s : State) (f : Cfg → Dyn → Dyn) : Host.Outcome State Fault Refusal :=
  .next { s with dyn := f s.cfg s.dyn }

/-- A meaning that may also write configuration registers: start and amendments (R4). -/
def nextCfg (s : State) (f : Cfg → Dyn → Cfg × Dyn) : Host.Outcome State Fault Refusal :=
  let r := f s.cfg s.dyn
  .next { s with cfg := r.1, dyn := r.2 }

end Machine
end Sys2Proof
end

