-- ==== Sys2Proof/Machine/Tally.lean ====
section
/-! DEFINITION. Counting (spec/17): adding to a counter of a die or of a slice, and telling the programmable counters that
select an event (R495 to R500, R505). -/

namespace Sys2Proof
namespace Machine

/-- The highest value of a counter (R498). -/
def ctrMax : Nat := 281474976710655

/-- Counter `j` (die * 1024 + index) counts `n` more: nothing while frozen or saturated; past 2^48 - 1 it stops there, sets
OVF and raises event 0x0D01 once (R498, R500). -/
def ctrAdd (j n : Nat) (d : Dyn) : Dyn :=
  if n = 0 ∨ rd d .pmcCtlFreeze 0 = 1 ∨ rd d .pmcValOvf j = 1 then d
  else if rd d .pmcValCount j + n ≤ ctrMax then put .pmcValCount j (rd d .pmcValCount j + n) d
  else raise 0x0D01 (j / 1024) [j % 1024] (put .pmcValOvf j 1 (put .pmcValCount j ctrMax d))

/-- Whether a selection's QUAL takes an event with qualifier `q`; events without a qualifier pass `none` (Table 17.2). -/
def qualTakes (qual : Nat) : Option Nat → Bool
  | none => true
  | some q => qual == q || qual == 15

/-- The enabled counters of die `k` among `n` from `lo` that select an event. -/
def selecting (d : Dyn) (k lo n ev : Nat) : List Nat :=
  (stsListed d .pmcSelEn).filter fun j =>
    j / 1024 == k && decide (lo ≤ j % 1024) && decide (j % 1024 < lo + n) && rd d .pmcSelEn j == 1 && rd d .pmcSelEvent j == ev

/-- An event of a group of counters: each that selects it counts `amt` (R496). -/
def tally (k lo n ev : Nat) (q : Option Nat) (amt : Nat) (d : Dyn) : Dyn :=
  forAll ((selecting d k lo n ev).filter fun j => qualTakes (rd d .pmcSelQual j) q) (fun j d => ctrAdd j amt d) d

/-- A port unit event at a logical port (Table 17.1). -/
def tallyPort (lp ev amt : Nat) (d : Dyn) : Dyn := tally (lp / 48) (16 * (lp / 4 % 12) + 5) 11 ev (some (lp % 4)) amt d
/-- A cluster event. -/
def tallyClu (c ev amt : Nat) (d : Dyn) : Dyn := tally (c / 6) (192 + 8 * (c % 6)) 8 ev none amt d
/-- A directory slice event. -/
def tallyDir (sl ev amt : Nat) (d : Dyn) : Dyn := tally (sl / 12) (240 + 8 * (sl % 12)) 8 ev none amt d
/-- A die event. -/
def tallyDie (k ev : Nat) (q : Option Nat) (amt : Nat) (d : Dyn) : Dyn := tally k 336 688 ev q amt d

/-- Slice counter `j` of a slice (Table 17.4) counts `n` more, and saturates as R498 says with event 0x0D02 (R505). -/
def slcAdd (s : Option Nat) (j n : Nat) (d : Dyn) : Dyn :=
  match s with
  | none => d
  | some s =>
    let k := s * 8 + j
    if n = 0 ∨ aget 0 d.cnt.slcO k = 1 then d
    else if aget 0 d.cnt.slc k + n ≤ ctrMax then
      { d with cnt := { d.cnt with slc := aset 0 d.cnt.slc k (aget 0 d.cnt.slc k + n) } }
    else raise 0x0D02 (leadOr0 d) [s, j] { d with cnt := ⟨aset 0 d.cnt.slc k ctrMax, aset 0 d.cnt.slcO k 1⟩ }

/-- Clear the eight counters of a slice (R505). -/
def slcClear (s : Nat) (d : Dyn) : Dyn :=
  { d with cnt := ⟨akeep (fun k _ => k / 8 != s) d.cnt.slc, akeep (fun k _ => k / 8 != s) d.cnt.slcO⟩ }

end Machine
end Sys2Proof
end

