-- ==== Sys2Proof/Machine/Arbiter.lean ====
section
/-! DEFINITION. The maintenance arbiter (spec/16, R482 to R487): exchanges and journal records, order of grants, requests and releases. -/

namespace Sys2Proof
namespace Machine

/-! ## Exchanges that are re-sent (R358) -/

/-- Start timing an exchange. -/
def xchOpen (xid : Nat) (d : Dyn) : Dyn :=
  { d with noc := { d.noc with xchs := d.noc.xchs.filter (fun x => x.xid != xid) ++ [⟨xid, d.now, 0, false⟩] } }

/-- An exchange is answered. -/
def xchClose (xid : Nat) (d : Dyn) : Dyn :=
  { d with noc := { d.noc with xchs := d.noc.xchs.filter fun x => x.xid != xid } }

/-- A fresh number for a write, shootdown or journal record. -/
def freshId (d : Dyn) : Nat × Dyn := (d.xlt.nextId, { d with xlt := { d.xlt with nextId := d.xlt.nextId + 1 } })

/-! ## The journal (R29, R218) -/

/-- This package leads its system, so its allocator is the active one (R29, R30). -/
def leadsSystem (d : Dyn) : Bool := rd d .gklSysStsLeadPkg 0 == rd d .dieDieIdPkgId 0

/-- Who must acknowledge a journal record: the standby die, and from the lead package one standby die of every other package in reach,
4 + p for package p (R29, R218). -/
def journalDsts (d : Dyn) : List Nat :=
  (if rd d .allocMirStsMirrored 0 = 1 then [rd d .allocMirStsStbyDie 0] else [])
    ++ (if leadsSystem d then ((List.range 8).filter fun p => bitAt (rd d .gklSysStsReach 0) p && p != rd d .dieDieIdPkgId 0).map
          fun p => 4 + p else [])

/-- A change that becomes visible after some have acknowledged its record: with none of them at once. -/
def journalTo (l : List Nat) (k : Cont) (now : Dyn → Dyn) (d : Dyn) : Dyn :=
  if l.isEmpty then now d
  else
    let x := freshId d
    let d := xchOpen x.1 x.2
    forAll l (fun w d => emit (.journal x.1 w) d) { d with alloc := { d.alloc with journal := d.alloc.journal ++ [(x.1, l, k)] } }

/-- A change that becomes visible after those that mirror the allocator have acknowledged its record: with no mirror at once (R218,
R220). -/
def journalPut (k : Cont) (now : Dyn → Dyn) (d : Dyn) : Dyn := journalTo (journalDsts d) k now d

/-- A change with nothing that waits for it. -/
def journalNote (d : Dyn) : Dyn := journalPut .nothing id d

/-- A grant or release of the arbiter: a record to the standby die (R482). -/
def journalArb (d : Dyn) : Dyn := journalTo ((journalDsts d).filter fun w => decide (w < 4)) .nothing id d

/-! ## Exclusion and grants -/

/-- Two lists share an element. -/
def meet (a b : List Nat) : Bool := a.any fun x => b.contains x

/-- Exclusion of a pair whose codes are in rising order (Tables 16.5 and 16.6). -/
def exclLe (a b : ActReq) : Bool :=
  match a.code.val, b.code.val with
  | 0, 2 => meet a.regions b.regions
  | 0, 4 | 0, 8 | 4, 4 | 4, 8 | 8, 8 => meet a.pus b.pus
  | 1, 1 | 1, 9 | 9, 9 => a.strukt == b.strukt
  | 2, 2 | 2, 3 | 2, 4 => meet a.regions b.regions
  | 3, 3 => a.ep == b.ep
  | 5, 5 | 5, 6 | 6, 6 | 6, 7 | 7, 7 => true
  | _, _ => false

/-- Two activities exclude each other (R483). -/
def excl (a b : ActReq) : Bool := if a.code.val ≤ b.code.val then exclLe a b else exclLe b a

/-- Order among requests that arrive in one cycle: 5, 6, 7, 8, 4, 3, 2, 9, 1, 0 (R484). -/
def actRank (c : Nat) : Nat :=
  match c with
  | 5 => 0 | 6 => 1 | 7 => 2 | 8 => 3 | 4 => 4 | 3 => 5 | 2 => 6 | 9 => 7 | 1 => 8 | _ => 9

/-- Withheld under supply sag: voltage steps, migrations, amendment applies and firmware handovers not yet committed, which
is every handover that still waits (R487). -/
def sagHeld (q : ActReq) : Bool := q.code == 0 || q.code == 2 || q.code == 6 || q.code == 7

/-- A waiting request may be granted: it excludes nothing running and no earlier waiting request; a lost link's
reconfiguration does not wait for a firmware handover, which pauses for it (R484, R486, R487). -/
def mayGrant (sag alone : Bool) (running earlier : List Act) (a : Act) : Bool :=
  !(sag && sagHeld a.q) && !(alone && a.q.code == 0)
    && running.all (fun r => !excl a.q r.q || (a.q.lostLink && r.q.code == 6))
    && earlier.all fun w => !excl a.q w.q

/-- The group of this package holds no quorum: no migration starts (R399). Before the system table has been read there is no
group. -/
def quorumLost (d : Dyn) : Bool := rd d .gklSysStsQuorum 0 == 0 && decide (5 ≤ rd d .secBootStsStage 0) && rd d .secBootStsStage 0 != 15

/-- Scan the waiting requests in order: those granted and those that still wait. -/
def grantScan (sag alone : Bool) : List Act → List Act → List Act → List Act × List Act
  | running, left, [] => (running, left)
  | running, left, a :: t =>
    if mayGrant sag alone running left a then grantScan sag alone (running ++ [a]) left t
    else grantScan sag alone running (left ++ [a]) t

/-- Grant what can be granted, with a journal record to the standby for each grant (R482, R484). -/
def arbScan (d : Dyn) : Dyn :=
  let h := d.hlth
  let r := grantScan (rd d .nvmSagStsSag 0 == 1) (quorumLost d) h.running [] h.waiting
  let fresh := r.1.filter fun a => !h.running.contains a
  let d := { d with hlth := { h with running := r.1, waiting := r.2 } }
  forAll fresh (fun a d => journalArb (emit (.arbGrant a.id a.q.code.val) d)) d

/-- Put a request into the waiting list: behind all others, but a lost link's reconfiguration before them all (R484,
R486). -/
def arbPut (a : Act) (l : List Act) : List Act := if a.q.lostLink then a :: l else l ++ [a]

/-- One activity asks; answers its number (R482). -/
def arbAsk (q : ActReq) (tag : Nat) (d : Dyn) : Nat × Dyn :=
  let id := d.hlth.nextAct
  let a : Act := ⟨id, q, d.now, tag⟩
  (id, arbScan { d with hlth := { d.hlth with nextAct := id + 1, waiting := arbPut a d.hlth.waiting } })

/-- Insert by rank, after equals. -/
def rankInsert (q : ActReq) : List ActReq → List ActReq
  | [] => [q]
  | x :: t => if actRank q.code.val < actRank x.code.val then q :: x :: t else x :: rankInsert q t

/-- Requests of one cycle in the order of R484. -/
def rankSort (l : List ActReq) : List ActReq := l.foldl (fun acc q => rankInsert q acc) []

/-- Requests that arrive in one cycle all enter before any is granted (R484). -/
def arbAskAll (l : List ActReq) (d : Dyn) : Dyn :=
  arbScan (forAll (rankSort l) (fun q d =>
    let id := d.hlth.nextAct
    { d with hlth := { d.hlth with nextAct := id + 1, waiting := arbPut ⟨id, q, d.now, 0⟩ d.hlth.waiting } }) d)

/-- A grant is running. -/
def granted (d : Dyn) (id : Nat) : Bool := d.hlth.running.any fun a => a.id == id

/-- A request waits or runs. -/
def arbKnown (d : Dyn) (id : Nat) : Bool := granted d id || d.hlth.waiting.any fun a => a.id == id

/-- Release a grant, which is journalled, or drop a waiting request, and grant what that lets in (R482, R484). -/
def arbFree (id : Nat) (d : Dyn) : Dyn :=
  let d := if granted d id then journalArb d else d
  arbScan { d with hlth := { d.hlth with running := d.hlth.running.filter fun a => a.id != id,
                                         waiting := d.hlth.waiting.filter fun a => a.id != id } }

/-- The running activity of a code and tag. -/
def runningOf (d : Dyn) (code tag : Nat) : Option Act :=
  d.hlth.running.find? fun a => a.q.code.val == code && a.tag == tag

/-- A request of one code with its scope; the fields that do not apply are empty. -/
def actReq (code : Fin 10) (pus regions : List Nat) : ActReq := ⟨code, pus, regions, 0, 0, false, false⟩

end Machine
end Sys2Proof
end

