-- ==== Sys2Proof/Machine/PortInfo.lean ====
section
/-! DEFINITION. What the other families ask of a logical port: whether it exists, its role, binding, host, link and rate
(Tables 2.2, 2.11 and 2.12; R52, R54, R56, R57, R113). -/

namespace Sys2Proof
namespace Machine

/-- A logical port exists when its port unit's BIF lists its sub-port (R52, Table 2.2). -/
def lpExists (g : Cfg) (lp : Nat) : Bool :=
  let bm := cg g .portPcfgBif (lpPu lp)
  let s := lp % 4
  if bm = 0 then s == 0 else if bm = 1 then s == 0 || s == 1 else bm == 2

/-- The role in force: UNUSED when the port does not exist, was rejected, or has a reserved role (R54, R56, R57). -/
def lpRole (g : Cfg) (d : Dyn) (lp : Nat) : Nat :=
  let r := cg g .portLpcfgRole lp
  if lpExists g lp && rd d .portLstsCfgBad lp == 0 && r != 3 then r else 0

/-- UPSTREAM and accepted. -/
def isUp (g : Cfg) (d : Dyn) (lp : Nat) : Bool := lpRole g d lp == 1
/-- DOWNSTREAM and accepted. -/
def isDown (g : Cfg) (d : Dyn) (lp : Nat) : Bool := lpRole g d lp == 2
/-- BIND of a DOWNSTREAM port: 0 PASSTHRU, 1 MANAGED, 2 ANALYSIS. -/
def lpBind (g : Cfg) (lp : Nat) : Nat := cg g .portLpcfgBind lp
/-- The link is in L0, L0p or L1. -/
def lpLinkUp (d : Dyn) (lp : Nat) : Bool := rd d .portLstsLinkUp lp == 1
/-- DPC is in place (R84). -/
def lpContained (d : Dyn) (lp : Nat) : Bool := rd d .portLstsContained lp == 1

/-- The UPSTREAM logical port of a host, if the package has one (R55, R58). -/
def hostPort (g : Cfg) (d : Dyn) (h : Nat) : Option Nat :=
  firstFrom (fun lp => isUp g d lp && cg g .portLpcfgVcs lp == h) 0 192

/-- A host's link is up. -/
def hostUp (g : Cfg) (d : Dyn) (h : Nat) : Bool :=
  match hostPort g d h with
  | some lp => lpLinkUp d lp
  | none => false

/-- Lanes of a WIDTH code (Table 2.12). -/
def widthLanes (c : Nat) : Nat := if c = 0 then 0 else 2 ^ (c - 1)

/-- Speed of a SPEED code in tenths of GT/s (Table 2.11). -/
def speedRate (c : Nat) : Nat :=
  match c with
  | 0 => 25 | 1 => 50 | 2 => 80 | 3 => 160 | 4 => 320 | _ => 640

/-- Active width of a port in lanes: the L0p width while one is in use, else LSTS.WIDTH (R71, R113). -/
def lpLanes (d : Dyn) (lp : Nat) : Nat :=
  let w := aget 0 d.port.l0p lp
  if w = 0 then widthLanes (rd d .portLstsWidth lp) else w

/-- Data rate: active width times speed, in tenths of GT/s (R113). -/
def lpRate (d : Dyn) (lp : Nat) : Nat := lpLanes d lp * speedRate (rd d .portLstsSpeed lp)

/-- The parts of a slot: with them the slots of 40 ns are whole for every width, speed and E (R550). -/
def slotDen : Nat := 18104320
/-- E by FLIT and speed in parts of 141,440 (Table 17.7). -/
def slotEff (flit sr : Nat) : Nat :=
  if flit = 1 ∨ flit = 2 then 133705
  else if flit = 0 then (if sr ≤ 50 then 106496 else 131072)
  else if sr ≤ 50 then 113152 else 139264
/-- Slots that a logical port offers in 40 ns, in parts: width times speed times E over 512 (R550). -/
def slotRate (d : Dyn) (lp : Nat) : Nat := lpRate d lp * slotEff (rd d .portLstsFlit lp) (speedRate (rd d .portLstsSpeed lp))
/-- Whole slots offered and not yet classed (R550). -/
def slotsDue (d : Dyn) (lp : Nat) : Nat := aget 0 d.port.slotAcc lp / slotDen
/-- Change what a logical port has offered. -/
def slotMod (lp : Nat) (f : Nat → Nat) (d : Dyn) : Dyn :=
  { d with port := { d.port with slotAcc := aset 0 d.port.slotAcc lp (f (aget 0 d.port.slotAcc lp)) } }

/-- The binding entry of a logical port and LD-ID (R222). -/
def bndOf (d : Dyn) (lp ldId : Nat) : Option Bnd :=
  d.alloc.bnds.find? fun b => b.lport == lp && b.ldId == ldId

/-- The backend device of a logical port and LD-ID, among valid entries (R135). -/
def devAt (d : Dyn) (lp ldId : Nat) : Option Nat :=
  firstFrom (fun b => rd d .xltBedevV b == 1 && rd d .xltBedevLport b == lp && rd d .xltBedevLdId b == ldId) 0 128

/-- The backend devices on a logical port. -/
def devsOn (d : Dyn) (lp : Nat) : List Nat :=
  (List.range 128).filter fun b => rd d .xltBedevV b == 1 && rd d .xltBedevLport b == lp

/-- A backend device is usable: V = 1 and LOST = 0 (R136). -/
def devOk (d : Dyn) (b : Nat) : Bool := rd d .xltBedevV b == 1 && rd d .xltBedevLost b == 0

/-- The VCS that a logical port's device is bound to by passthrough. -/
def boundVcs (d : Dyn) (lp : Nat) : Option Nat :=
  ((d.alloc.bnds.filter fun b => b.lport == lp && b.present).head?).map fun b => b.vcs

/-- The requester's host ID (R260): the VCS of an UPSTREAM port, the bound VCS of a passthrough device; none on MANAGED
and ANALYSIS ports. -/
def reqHost (g : Cfg) (d : Dyn) (r : Req) : Option Nat :=
  if isUp g d r.lport then some (cg g .portLpcfgVcs r.lport)
  else if isDown g d r.lport && lpBind g r.lport == 0 then
    match r.tgt with
    | .host v => if d.alloc.bnds.any (fun b => b.lport == r.lport.val && b.vcs == v.val && b.present) then some v.val
                 else boundVcs d r.lport
    | _ => boundVcs d r.lport
  else none

/-! ## What a host sees of its vPPBs (R60, R66, R69, R82, R90) -/

/-- The device last trained at a logical port. -/
def partnerAt (d : Dyn) (lp : Nat) : Option Partner := cellsFind lp d.port.device.cells

/-- A host's link is up and runs CXL.io only (R69). -/
def hostIoOnly (g : Cfg) (d : Dyn) (h : Nat) : Bool :=
  match hostPort g d h with
  | some lp => lpLinkUp d lp && rd d .portLstsCxlVer lp == 1
  | none => false

/-- A host may see the passthrough device at a port: one whose own link runs CXL.io only sees PCIe devices alone (R69). -/
def ptSeen (g : Cfg) (d : Dyn) (h lp : Nat) : Bool :=
  !hostIoOnly g d h || match partnerAt d lp with
    | some p => p.kind == .pcie || p.ver == 0
    | none => true

/-- Presence Detect Changed on a vPPB: its slot status is set, and the host is told now or, while its link is down, when it returns
(R82, R90). -/
def pdChanged (g : Cfg) (v k : Nat) (d : Dyn) : Dyn :=
  let d := { d with port := { d.port with pdc := d.port.pdc.filter (fun x => x != v * 32 + k) ++ [v * 32 + k] } }
  if hostUp g d v then emit (.hotPlug v k) d
  else { d with port := { d.port with pdcOwed := d.port.pdcOwed.filter (fun x => x != v * 32 + k) ++ [v * 32 + k] } }

/-- A returning host hears of the vPPBs that changed during its absence (R90). -/
def pdTellOwed (v : Nat) (d : Dyn) : Dyn :=
  let l := d.port.pdcOwed.filter fun x => x / 32 == v
  let d := { d with port := { d.port with pdcOwed := d.port.pdcOwed.filter fun x => x / 32 != v } }
  forAll l (fun x d => emit (.hotPlug v (x % 32)) d) d

/-! ## AER and viral (R92, R93) -/

/-- The functions in which an error at a logical port shows: function 0 of its VCS at an upstream port, the bound vPPBs, function
1 + k for vPPB k, at a passthrough port. -/
def aerFns (g : Cfg) (d : Dyn) (lp : Nat) : List (Nat × Nat) :=
  if isUp g d lp then [(cg g .portLpcfgVcs lp, 0)]
  else (d.alloc.bnds.filter fun b => b.lport == lp && b.present).map fun b => (b.vcs, 1 + b.vppb)

/-- An error enters the AER status of a function and its host is told: code 0 non-fatal, 1 fatal, 2 uncorrectable internal error
(R92; assumption 138). -/
def aerTell (v fn code : Nat) (d : Dyn) : Dyn :=
  let k := v * 33 + fn
  emit (.aer v fn code) { d with port := { d.port with aer := aset 0 d.port.aer k (bitSet (aget 0 d.port.aer k) code) } }

/-- An error that affects no VCS goes to the event log alone; the spec names no code for it, so its code is a free value (R92;
assumption 138). -/
def errAlone (die : Nat) (args : List Nat) (d : Dyn) : Dyn :=
  let x := drawNat d
  raise x.1 die args x.2

/-- An error of the switch's own at a logical port is reported in the VCS it affects, or in the event log alone (R92). -/
def reportAt (g : Cfg) (lp code : Nat) (d : Dyn) : Dyn :=
  let l := aerFns g d lp
  if l.isEmpty then errAlone (lpDie lp) [lp, code] d else forAll l (fun x d => aerTell x.1 x.2 code d) d

/-- Raise viral on a VCS whose host enabled it: to the host and to every passthrough CXL device bound to the VCS, event 0x0109 (R93). -/
def raiseViral (v : Nat) (d : Dyn) : Dyn :=
  if d.port.viralEn.contains v ∧ !d.port.viral.contains v then
    let d := emit (.viral v) { d with port := { d.port with viral := d.port.viral ++ [v] } }
    let cxl := d.alloc.bnds.filter fun b => b.vcs == v && b.present && match partnerAt d b.lport with
      | some p => p.kind != .pcie && p.ver != 0
      | none => false
    raise 0x0109 (leadOr0 d) [v] (forAll (cxl.map Bnd.lport).dedup (fun lp d => emit (.viralDev v lp) d) d)
  else d

/-- The host of a VCS enables or disables viral (R93). -/
def viralSet (v : Nat) (en : Bool) (d : Dyn) : Dyn :=
  let l := d.port.viralEn.filter fun x => x != v
  { d with port := { d.port with viralEn := if en then l ++ [v] else l } }

/-! ## DPC settings of a host (R94) -/

/-- CA_SEL and NF_TRIG of a port follow what its host has written to the DPC control of the bound vPPB, if it has (R94). -/
def dpcFollow (v k lp : Nat) (d : Dyn) : Dyn :=
  let x := aget 0 d.port.dpcCtl (v * 32 + k)
  if x = 0 then d else put .portContCaSel lp (x / 2 % 2) (put .portContNfTrig lp (x % 2) d)

/-- A host writes the DPC control of one of its vPPBs: the passthrough binding there follows (R94). Where a multi-logical device is bound
to several vPPBs, its port's one CONT follows the last of their writes (DESIGN CHOICE, assumption 129). -/
def dpcHostSet (v k : Nat) (ca nf : Bool) (d : Dyn) : Dyn :=
  let d := { d with port := { d.port with dpcCtl := aset 0 d.port.dpcCtl (v * 32 + k) (4 + 2 * b2n ca + b2n nf) } }
  match d.alloc.bnds.find? fun b => b.vcs == v && b.vppb == k with
  | some b => dpcFollow v k b.lport d
  | none => d

/-- A port unit whose existing logical ports are all UNUSED (R43, R54). -/
def puUnused (g : Cfg) (d : Dyn) (p : Nat) : Bool := [0, 1, 2, 3].all fun k => lpRole g d (4 * p + k) == 0

end Machine
end Sys2Proof
end

