-- ==== Sys2Proof/Machine/Gate.lean ====
section
/-! DEFINITION. Access gates (spec/07): matching rules, the outcome of each part, violation records, generations and the
SYNC barrier. -/

namespace Sys2Proof
namespace Machine

/-! ## Rules -/

/-- The kind of Table 7.1; none for requests the gate does not check (R256). -/
def gateKind : ReqKind → Option Nat
  | .memRd | .memSpecRd | .cacheRd | .ioRd => some 0
  | .memWr | .memInv | .memClnEvct | .cacheWr | .ioWr | .ioWrNp => some 1
  | .ioAtomic => some 2
  | .biSnp => some 3
  | .ioCfg => none

/-- PROTO of Table 7.4. -/
def protoOf : ReqKind → Nat
  | .memRd | .memSpecRd | .memWr | .memInv | .memClnEvct | .biSnp => 1
  | .cacheRd | .cacheWr => 2
  | .ioRd | .ioWr | .ioWrNp | .ioAtomic | .ioCfg => 0

/-- TKIND, TGT and LD_ID of a target (R258, Table 7.4). -/
def tgtWord : Target → Nat × Nat × Nat
  | .ld n => (0, n.val, 0)
  | .pt lp i => (1, lp.val, i.val)
  | .host v => (2, v.val, 0)
  | .none => (3, 0, 0)

/-- A rule whose LIMIT is below its BASE or whose TKIND is reserved never matches (R263). -/
def ruleBad (g : Cfg) (i : Nat) : Bool :=
  decide (cg g .gateRuleLimitPage i < cg g .gateRuleBasePage i) || cg g .gateRuleTgtTkind i == 3

/-- The rules with V = 1, lowest first. -/
def rulesV (g : Cfg) : List Nat := (cfgListed g .gateRuleReqV).filter fun i => cg g .gateRuleReqV i == 1

/-- A rule matches a request; CXL.mem requests carry no PASID (R260, R261, R263). -/
def ruleMatch (g : Cfg) (i : Nat) (r : Req) (host : Option Nat) : Bool :=
  let t := tgtWord r.tgt
  !ruleBad g i && cg g .gateRuleTgtTkind i == t.1 && cg g .gateRuleTgtTgt i == t.2.1
    && (t.1 != 1 || cg g .gateRuleTgtLdId i == t.2.2)
    && (cg g .gateRuleReqLportAny i == 1 || cg g .gateRuleReqLport i == r.lport.val)
    && (cg g .gateRuleReqHostAny i == 1 || host == some (cg g .gateRuleReqHost i))
    && (cg g .gateRuleReqPasidV i == 0 || (protoOf r.kind != 1 && r.pasid.map Fin.val == some (cg g .gateRulePasidPasid i)))

/-- A rule's range covers an address, page by page, both ends included (R262). -/
def ruleCovers (g : Cfg) (i addr : Nat) : Bool :=
  decide (cg g .gateRuleBasePage i ≤ addr / 4096) && decide (addr / 4096 ≤ cg g .gateRuleLimitPage i)

/-- The DFLT bit for a target kind (R262). -/
def dfltBit (g : Cfg) (t : Target) : Bool :=
  match t with
  | .ld _ => cg g .gateCtlDfltLd 0 == 1
  | .pt _ _ => cg g .gateCtlDfltPt 0 == 1
  | .host _ => cg g .gateCtlDfltHost 0 == 1
  | .none => true

/-- The lowest-numbered rule that matches a request and covers an address (R262). -/
def deciding (g : Cfg) (r : Req) (host : Option Nat) (addr : Nat) : Option Nat :=
  (rulesV g).find? fun i => ruleMatch g i r host && ruleCovers g i addr

/-- The outcome for one address and a kind: the deciding rule's KINDS bit, else the DFLT bit (R262). -/
def permits (g : Cfg) (r : Req) (host : Option Nat) (kind addr : Nat) : Bool :=
  match deciding g r host addr with
  | some i => bitAt (cg g .gateRuleReqKinds i) kind
  | none => dfltBit g r.tgt

/-! ## Parts (R267) -/

/-- One checked part of a request: address, bytes, outcome and deciding rule. -/
structure Part where
  addr : Nat
  len  : Nat
  ok   : Bool
  rule : Option Nat
deriving DecidableEq, Repr

/-- The 64 B-aligned parts of a CXL.io memory request (R267). -/
def splitParts : Nat → Nat → Nat → List (Nat × Nat)
  | 0, _, _ => []
  | n + 1, addr, len =>
    let m := 64 - addr % 64
    if len ≤ m then [(addr, len)] else (addr, m) :: splitParts n (addr + m) (len - m)

/-- The parts a request is checked by: 64 B blocks for CXL.io, the whole request otherwise. -/
def reqParts (r : Req) : List (Nat × Nat) :=
  match r.kind with
  | .ioRd | .ioWr | .ioWrNp | .ioAtomic => splitParts (r.len / 64 + 2) r.addr r.len
  | _ => [(r.addr, r.len)]

/-- Check every part of a request under one generation's rules (R262, R267). -/
def checkParts (g : Cfg) (r : Req) (host : Option Nat) : List Part :=
  match gateKind r.kind with
  | none => []
  | some k => (reqParts r).map fun p => ⟨p.1, p.2, permits g r host k p.1, deciding g r host p.1⟩

/-- Maximal runs of permitted parts as one write each, in address order (R269). -/
def permittedRuns : List Part → List (Nat × Nat)
  | [] => []
  | p :: t =>
    let rest := permittedRuns t
    if !p.ok then rest
    else match t, rest with
      | q :: _, x :: xs => if q.ok then (p.addr, p.len + x.2) :: xs else (p.addr, p.len) :: x :: xs
      | _, _ => (p.addr, p.len) :: rest

/-- Consecutive forbidden parts with one deciding rule share a record: first address, count, rule (R271). -/
def forbiddenRuns : List Part → List (Nat × Nat × Option Nat)
  | [] => []
  | p :: t =>
    let rest := forbiddenRuns t
    if p.ok then rest
    else match t, rest with
      | q :: _, (_, n, rl) :: xs =>
        if !q.ok && rl == p.rule then (p.addr, n + 1, rl) :: xs else (p.addr, 1, p.rule) :: rest
      | _, _ => (p.addr, 1, p.rule) :: rest

/-- The response to a forbidden request (Table 7.2); none where it is discarded. -/
def denyResp : ReqKind → Option RespKind
  | .ioRd | .ioWrNp | .ioAtomic => some .ur
  | .ioWr | .memSpecRd | .ioCfg => none
  | .memRd => some .memDataPoison
  | .memWr | .memInv | .memClnEvct => some .cmp
  | .cacheRd | .cacheWr => some .goErr
  | .biSnp => some .biRspI

/-! ## Generations (R273 to R279) -/

/-- The generation in force on a die. -/
def genOf (d : Dyn) (die : Nat) : Nat := (d.gate.inForce[die]?).getD 0

/-- The register file a die checks under: that of its generation in force (R273). -/
def genCfg (g : Cfg) (d : Dyn) (die : Nat) : Cfg :=
  match d.gate.snaps.find? fun x => x.1 == genOf d die with
  | some x => x.2
  | none => g

/-- Requests in flight on a die checked under a generation. -/
def inFlight (d : Dyn) (die gen : Nat) : Nat :=
  (d.flights.filter fun f => f.die == die && f.gen == gen).length

/-- Requests in flight under a generation, package total. -/
def inFlightPkg (d : Dyn) (gen : Nat) : Nat := (d.flights.filter fun f => f.gen == gen).length

/-- The oldest generation with requests in flight on a die, else the one in force there (R279). -/
def oldestOn (d : Dyn) (die : Nat) : Nat :=
  (d.flights.filter fun f => f.die == die).foldl (fun m f => min m f.gen) (genOf d die)

/-- The oldest generation with requests in flight in the package, else the newest made (R278). -/
def oldestGen (d : Dyn) : Nat := d.flights.foldl (fun m f => min m f.gen) d.gate.newest

/-- A new generation would stretch some die's window to five generations (R279). -/
def genWindowFull (d : Dyn) : Bool := (List.range 4).any fun k => decide (d.gate.newest + 1 - oldestOn d k + 1 ≥ 5)

/-- Every die has installed the target and nothing older is in flight (R276). -/
def syncMet (d : Dyn) : Bool :=
  d.gate.inForce.all (fun x => decide (d.gate.target ≤ x)) && d.flights.all fun f => decide (d.gate.target ≤ f.gen)

/-- Set DONE once R276 is satisfied. -/
def syncCheck (d : Dyn) : Dyn :=
  doIf (rd d .gateSyncDoneDone 0 == 0 && syncMet d) (put .gateSyncDoneDone 0 1) d

/-- Start a barrier: record the newest generation as TARGET_GEN and clear DONE (R276; assumption 21 on "current"). -/
def syncStart (d : Dyn) : Dyn :=
  let d := { d with gate := { d.gate with target := d.gate.newest, syncAt := d.now, warned := false } }
  syncCheck (put .gateSyncDoneDone 0 0 (put .gateSyncTargetGen 0 (d.gate.newest % 65536) d))

/-- Drop the register files of generations that every die has left: a die checks under each generation in turn (R273). -/
def gatePrune (d : Dyn) : Dyn :=
  { d with gate := { d.gate with snaps := d.gate.snaps.filter fun x => d.gate.inForce.any fun k => decide (k ≤ x.1) } }

/-- Make a new generation: the register file before the change stays with the dies that still check under it (R273). -/
def genMake (old : Cfg) (d : Dyn) : Dyn :=
  let n := d.gate.newest
  gatePrune { d with gate := { d.gate with newest := n + 1, snaps := d.gate.snaps ++ [(n, old)] } }

/-- How many rules of a register file have LIMIT below BASE or a reserved TKIND, whatever their V: all such rules have BASE or TKIND
listed (R263). -/
def badRules (g : Cfg) : Nat := (((cfgListed g .gateRuleBasePage ++ cfgListed g .gateRuleTgtTkind).dedup).filter fun i => ruleBad g i).length

/-- The register file of a generation. -/
def cfgOfGen (g : Cfg) (d : Dyn) (n : Nat) : Cfg :=
  match d.gate.snaps.find? fun x => x.1 == n with
  | some x => x.2
  | none => g

/-- A die installs its next generation: BAD_RULES is counted, 0x0506 is raised once per generation, and 0x0503 when every
die has it (R263, R273). Requests in flight keep theirs (R274). -/
def genInstall (g : Cfg) (die : Nat) (d : Dyn) : Dyn :=
  let n := genOf d die + 1
  if n ≤ d.gate.newest then
    let gn := cfgOfGen g d n
    let bad := badRules gn
    let d := { d with gate := { d.gate with inForce := d.gate.inForce.set die n } }
    let d := put .gateGenBadRules die bad d
    let d := if bad > 0 && d.gate.badTold < n then
      raise 0x0506 die [n, bad] { d with gate := { d.gate with badTold := n } } else d
    let low := d.gate.inForce.foldl min d.gate.newest
    let d := if d.gate.told < low then
      raise 0x0503 die [low] { d with gate := { d.gate with told := low } } else d
    syncCheck (gatePrune d)
  else d

/-! ## Violations (R266, R281, R282) -/

/-- The Dynamic Capacity region of an LD that holds a DPA (R133, ALLOC.RGN). -/
def regionOf (g : Cfg) (ld addr : Nat) : Option Nat :=
  let p := addr / 2097152
  firstFrom (fun r => decide (cg g .allocRgnBase (ld * 8 + r) ≤ p)
    && decide (p < cg g .allocRgnBase (ld * 8 + r) + cg g .allocRgnPages (ld * 8 + r))) 0 8

/-- Write one violation record on a die, or count it as lost when the log is full (R281, R282, Table 7.4). -/
def violRecord (g : Cfg) (die : Nat) (r : Req) (host : Option Nat) (gen : Nat) (v : Nat × Nat × Option Nat)
    (d : Dyn) : Dyn :=
  let cnt := rd d .gateVlogStsCountAdv die
  if cnt ≥ 64 then bump .gateVlogStsLost die 1 d
  else
    let e := die * 64 + (rd d .gateVlogStsRd die + cnt) % 64
    let io := protoOf r.kind == 0
    let t := tgtWord r.tgt
    let rg := match r.tgt with
      | .ld n => regionOf g n v.1
      | _ => none
    let ld := match r.tgt with
      | .ld _ => 1
      | _ => 0
    let d := put .gateVrecAddrAddr e (if io then v.1 / 64 * 64 else v.1) d
    let d := put .gateVrecTsNs e (dieTs d die) d
    let d := put .gateVrecReqLport e r.lport.val d
    let d := put .gateVrecReqHostV e (b2n host.isSome) d
    let d := put .gateVrecReqHost e (host.getD 0) d
    let d := put .gateVrecReqProto e (protoOf r.kind) d
    let d := put .gateVrecReqKind e ((gateKind r.kind).getD 0) d
    let d := put .gateVrecPasidPasidV e (b2n r.pasid.isSome) d
    let d := put .gateVrecPasidPasid e ((r.pasid.map Fin.val).getD 0) d
    let d := put .gateVrecRuleNomatch e (b2n v.2.2.isNone) d
    let d := put .gateVrecRuleParts e (if io then v.2.1 else 1) d
    let d := put .gateVrecRuleRegionV e ld d
    let d := put .gateVrecRuleRegion e (rg.getD 0) d
    let d := put .gateVrecRuleRule e (v.2.2.getD 0) d
    let d := put .gateVrecTgtGen e (gen % 65536) d
    let d := put .gateVrecTgtTkind e t.1 d
    let d := put .gateVrecTgtLdId e t.2.2 d
    let d := put .gateVrecTgtTgt e t.2.1 d
    let d := put .gateVlogStsCountAdv die (cnt + 1) d
    let last := (d.gate.lastViol[die]?).getD 0
    let d := if cnt = 0 || d.now ≥ last + 1000000000 then
      raise 0x0501 die (gen :: host.toList) { d with gate := { d.gate with lastViol := d.gate.lastViol.set die d.now } }
      else d
    if cnt + 1 = 64 then raise 0x0502 die [gen] d else d

/-- Record a forbidden request: its records and, with a host ID, one count in HVIOL (R266, R271). -/
def violate (g : Cfg) (die : Nat) (r : Req) (host : Option Nat) (gen : Nat) (vs : List (Nat × Nat × Option Nat))
    (d : Dyn) : Dyn :=
  let d := forAll vs (violRecord g die r host gen) d
  match host with
  | some h => bump .gateHviolCount h 1 d
  | none => d

/-- A write of VLOG_STS with ADV_WR = 1 frees records from RD; a count above COUNT acts as COUNT (R281). -/
def vlogFree (die n : Nat) (d : Dyn) : Dyn :=
  let cnt := rd d .gateVlogStsCountAdv die
  let k := min n cnt
  put .gateVlogStsRd die ((rd d .gateVlogStsRd die + k) % 64) (put .gateVlogStsCountAdv die (cnt - k) d)

/-! ## Meanings -/

/-- GEN_INSTALLED: a die finishes installing a new generation (R273). -/
def execGenInstalled (die : Die) (s : State) : Host.Outcome State Fault Refusal :=
  nextDyn s fun g d => genInstall g die d

/-- SYNC_REQ: a write of 1 to GATE.SYNC.REQ (R276). -/
def execSyncReq (s : State) : Host.Outcome State Fault Refusal :=
  nextDyn s fun _ d => syncStart d

/-- Something of a request is still in the switch: a packet of it in staging, a buffer or the network, a device that owes it an answer, a home
slice that has it open, or a place where it waits, so that none of the events of R275 has happened. -/
def inSwitch (d : Dyn) (id : Nat) : Bool :=
  (d.flights.any fun f => f.req.id == id && (!f.devs.isEmpty || f.home.isSome))
    || (d.fwd.stag.cells.any fun c => c.2.any fun x => x.pkt.flow == id) || (d.fwd.eject.cells.any fun c => c.2.any fun p => p.flow == id)
    || (d.fwd.buf.cells.any fun c => c.2.any fun b => b.pkt.flow == id) || (d.noc.net.any fun f => f.pkt.flow == id)
    || (d.noc.wait.any fun w => w.pkt.flow == id) || d.xlt.xwait.contains id || d.xlt.hold.any fun x => x.2 == id

/-- SYNC_DONE: the last request checked under an older generation commits: nothing of the request with this ID is left in the switch, and DONE
is tested (R275, R276). -/
def execSyncDone (id : Nat) (s : State) : Host.Outcome State Fault Refusal :=
  nextDyn s fun _ d => if inSwitch d id then d else syncCheck { d with flights := d.flights.filter fun f => f.req.id != id }

/-- SYNC_SLOW: DONE still 0 SYNC_WARN_MS after REQ raises 0x0504 once (R278); 0 ms acts as 1. -/
def execSyncSlow (s : State) : Host.Outcome State Fault Refusal :=
  nextDyn s fun g d =>
    if rd d .gateSyncDoneDone 0 == 0 && !d.gate.warned
        && decide (d.gate.syncAt + max 1 (cg g .gateCtlSyncWarnMs 0) * 1000000 ≤ d.now) then
      raise 0x0504 (leadOr0 d) [d.gate.target] { d with gate := { d.gate with warned := true } }
    else d

/-- VLOG_ADVANCE: a write with ADV_WR = 1 frees violation records from RD (R281). -/
def execVlogAdvance (die : Die) (n : Nat) (s : State) : Host.Outcome State Fault Refusal :=
  nextDyn s fun _ d => vlogFree die n d

end Machine
end Sys2Proof
end

