-- ==== Sys2Proof/Machine/Qos.lean ====
section
/-! DEFINITION. Tenant slices, the slice shaper and the host policer (spec/08). -/

namespace Sys2Proof
namespace Machine

/-- The register file in force for slices and policers: changes wait for the next refill (R308). -/
def qCfg (g : Cfg) (d : Dyn) : Cfg := d.qos.old.getD g

/-! ## Keys and attribution -/

/-- The slices with V = 1, lowest first. -/
def slicesV (g : Cfg) : List Nat := (cfgListed g .qosSliceKeyV).filter fun i => cg g .qosSliceKeyV i == 1

/-- Two slices carry the same key (R283). -/
def sameKey (g : Cfg) (a b : Nat) : Bool :=
  cg g .qosSliceKeyHost a == cg g .qosSliceKeyHost b && cg g .qosSliceKeyPasidV a == cg g .qosSliceKeyPasidV b
    && (cg g .qosSliceKeyPasidV a == 0 || cg g .qosSliceKeyPasid a == cg g .qosSliceKeyPasid b)

/-- A valid slice whose key a lower one has, or whose HOST has no UPSTREAM port here, is rejected (R284). -/
def sliceBad (g : Cfg) (d : Dyn) (i : Nat) : Bool :=
  cg g .qosSliceKeyV i == 1 &&
    ((slicesV g).any (fun j => decide (j < i) && sameKey g j i) || (hostPort g d (cg g .qosSliceKeyHost i)).isNone)

/-- A slice is valid and keeps its key (R283, R284). -/
def sliceOk (g : Cfg) (d : Dyn) (i : Nat) : Bool := cg g .qosSliceKeyV i == 1 && !sliceBad g d i

/-- Host h owns slice s (R283). -/
def owns (g : Cfg) (d : Dyn) (h s : Nat) : Bool := sliceOk g d s && cg g .qosSliceKeyHost s == h

/-- The default slice of a host (R284). -/
def defaultSlice (g : Cfg) (d : Dyn) (h : Nat) : Option Nat :=
  (slicesV g).find? fun i => owns g d h i && cg g .qosSliceKeyPasidV i == 0

/-- The slice keyed (h, p) (R286). -/
def pasidSlice (g : Cfg) (d : Dyn) (h p : Nat) : Option Nat :=
  (slicesV g).find? fun i => owns g d h i && cg g .qosSliceKeyPasidV i == 1 && cg g .qosSliceKeyPasid i == p

/-- Whether a map entry names a slice its host does not own (R287). -/
def rsmapBad (g : Cfg) (d : Dyn) (i : Nat) : Bool :=
  cg g .qosRsmapV i == 1 && !owns g d (i / 8) (cg g .qosRsmapSlice i)

/-- Attribution of a request of host h (R286, Table 8.1). -/
def attribute1 (g : Cfg) (d : Dyn) (r : Req) (h : Nat) : Option Nat :=
  match r.kind, r.tgt with
  | .memRd, .ld n | .memSpecRd, .ld n | .memWr, .ld n | .memInv, .ld n | .memClnEvct, .ld n =>
    match regionOf g n r.addr with
    | some rg => if cg g .qosRsmapV (n.val * 8 + rg) == 1 && !rsmapBad g d (n.val * 8 + rg)
        then some (cg g .qosRsmapSlice (n.val * 8 + rg)) else defaultSlice g d h
    | none => defaultSlice g d h
  | .ioRd, _ | .ioWr, _ | .ioWrNp, _ | .ioAtomic, _ | .ioCfg, _ =>
    match r.pasid with
    | some p => match pasidSlice g d h p.val with
      | some i => some i
      | none => defaultSlice g d h
    | none => defaultSlice g d h
  | _, _ => defaultSlice g d h

/-- The scheduling weight of a slice: 0 acts as 1, and no valid slice has weight 1 (R288, R304, R305). -/
def weightOf (g : Cfg) (d : Dyn) (s : Option Nat) : Nat :=
  match s with
  | some i => if sliceOk g d i then max 1 (cg g .qosSliceSchedWeight i) else 1
  | none => 1

/-- The slice of a request when it is admitted: that of its attribution, or its host's default slice once that one is no longer valid
(R309). -/
def sliceNow (g : Cfg) (d : Dyn) (p : Pkt) : Option Nat :=
  match p.slice with
  | none => none
  | some s => if sliceOk g d s then some s else p.host.bind (defaultSlice g d)

/-! ## Charges (R290) -/

/-- The charge of a request in bytes (Table 8.2). -/
def chargeOf (k : ReqKind) (len : Nat) : Nat :=
  match k with
  | .memRd | .memWr => 64
  | .ioRd | .ioWr | .ioWrNp | .ioAtomic => len
  | .memSpecRd | .memInv | .memClnEvct | .cacheRd | .cacheWr | .ioCfg | .biSnp => 0

/-! ## The slice shaper (R292 to R295) -/

/-- BURST in bytes; below 4 KiB acts as 4 KiB. -/
def burstBytes (g : Cfg) (s : Nat) : Nat := max 4 (cg g .qosSliceSchedBurst s) * 1024

/-- A 28-bit two's complement level as an integer. -/
def signed28 (x : Nat) : Int := if x < 134217728 then (x : Int) else (x : Int) - 268435456

/-- An integer level as the register holds it. -/
def to28 (z : Int) : Nat := (z % 268435456).toNat

/-- The level of a slice's bucket. -/
def levelOf (d : Dyn) (s : Nat) : Int := signed28 (rd d .qosSliceLvlLevel s)

/-- Write the level of a slice's bucket. -/
def setLevel (s : Nat) (z : Int) (d : Dyn) : Dyn := put .qosSliceLvlLevel s (to28 z) d

/-- The shaper of a slice is in use. -/
def shaped (g : Cfg) (s : Nat) : Bool := cg g .qosSliceShapeShEn s == 1

/-- A request of a charge passes the shaper: SH_EN = 0, charge 0, or a level of 0 or more (R293, R295). -/
def passes (g : Cfg) (d : Dyn) (s : Option Nat) (charge : Nat) : Bool :=
  match s with
  | some i => !shaped g i || charge == 0 || decide (0 ≤ levelOf d i)
  | none => true

/-- Charge an admitted request to its slice (R293). -/
def chargeSlice (g : Cfg) (s : Option Nat) (charge : Nat) (d : Dyn) : Dyn :=
  match s with
  | some i => doIf (shaped g i) (setLevel i (levelOf d i - charge)) d
  | none => d

/-! ## The host policer (R296 to R301) -/

/-- PIR in effect: below CIR acts as CIR (R298). -/
def pirOf (g : Cfg) (h : Nat) : Nat := max (cg g .qosPolPirPir h) (cg g .qosPolRateCir h)
/-- Committed bucket in bytes; 0 acts as 1 KiB (R298). -/
def cbsOf (g : Cfg) (h : Nat) : Nat := max 1 (cg g .qosPolBktCbs h) * 1024
/-- Peak bucket in bytes; 0 acts as 1 KiB (R298). -/
def pbsOf (g : Cfg) (h : Nat) : Nat := max 1 (cg g .qosPolBktPbs h) * 1024

/-- The marker of R297: the colour (0 green, 1 yellow, 2 red) and the two buckets after it. A pre-colour of 3 is
received as red (Table 8.3). -/
def policeMark (aware : Bool) (pre b tc tp : Nat) : Nat × Nat × Nat :=
  if b = 0 then (0, tc, tp)
  else if aware && decide (2 ≤ pre) then (2, tc, tp)
  else if tp < b then (2, tc, tp)
  else if (aware && pre == 1) || decide (tc < b) then (1, tc, tp - b)
  else (0, tc - b, tp - b)

/-- Police one CXL.mem request of a host: the colour, with the buckets, counts and red mark (R296, R300, R301). -/
def police (g : Cfg) (h pre b : Nat) (d : Dyn) : Nat × Dyn :=
  if cg g .qosPolRateEn h == 0 then (0, d)
  else
    let home := (hostPort g d h).isSome
    let aware := !home && cg g .qosCtlColAware 0 == 1
    let m := policeMark aware pre b (aget 0 d.qos.tc h) (aget 0 d.qos.tp h)
    let red := aget 0 d.qos.red h
    let d := { d with qos := { d.qos with tc := aset 0 d.qos.tc h m.2.1, tp := aset 0 d.qos.tp h m.2.2,
                                          red := aset 0 d.qos.red h (if m.1 = 2 then bitSet red 0 else red) } }
    (m.1, if m.1 = 2 then bump .qosPolRedCount h 1 d else if m.1 = 1 then bump .qosPolYelCount h 1 d else d)

/-- A host is red-marked in this refill period or the one before (R301). -/
def redMarked (d : Dyn) (h : Nat) : Bool := aget 0 d.qos.red h != 0

/-- The least DevLoad toward a red-marked host (R301). -/
def redLevel (d : Dyn) (h : Nat) : DevLoad :=
  if redMarked d h then (match d.qos.redDl with
    | 0 => .light
    | 1 => .moderate
    | _ => .severe)
  else .light

/-! ## Refill (R307, R308) -/

/-- One slice's refill. A slice that becomes valid, gains SH_EN or changes host starts at its full BURST; otherwise the
level is capped and RATE is added, never above BURST (R292, R308). -/
def refillSlice (og g : Cfg) (s : Nat) (d : Dyn) : Dyn :=
  let top : Int := burstBytes g s
  let fresh := !sliceOk og d s || cg og .qosSliceShapeShEn s == 0
    || cg og .qosSliceKeyHost s != cg g .qosSliceKeyHost s
  let z := if fresh then top else min top (min top (levelOf d s) + cg g .qosSliceShapeRate s)
  let d := setLevel s z d
  doIf (decide (0 ≤ z)) (put .qosSliceLvlHeld s 0) d

/-- One policer's refill: full when EN becomes 1, else capped and refilled (R297, R308). -/
def refillHost (og g : Cfg) (h : Nat) (d : Dyn) : Dyn :=
  let fresh := cg og .qosPolRateEn h == 0
  let c := if fresh then cbsOf g h else min (cbsOf g h) (min (cbsOf g h) (aget 0 d.qos.tc h) + cg g .qosPolRateCir h)
  let p := if fresh then pbsOf g h else min (pbsOf g h) (min (pbsOf g h) (aget 0 d.qos.tp h) + pirOf g h)
  { d with qos := { d.qos with tc := aset 0 d.qos.tc h c, tp := aset 0 d.qos.tp h p } }

/-- The red periods move on by one refill (R301). -/
def redShift (q : QosSt) : QosSt :=
  { q with red := ⟨q.red.cells.filterMap fun c => if c.2 % 2 = 1 then some (c.1, 2) else none⟩ }

/-- CFG_BAD bits of slices, map entries and policers (R284, R287, R298). -/
def qosMarkBad (g : Cfg) (d : Dyn) : Dyn :=
  let ss := slicesV g
  let ms := cfgListed g .qosRsmapV
  let hs := cfgListed g .qosPolRateCir
  let clr (f : SFld) (d : Dyn) : Dyn := forAll (stsListed d f) (fun i d => put f i 0 d) d
  let d := clr .qosSliceKeyCfgBad (clr .qosRsmapCfgBad (clr .qosPolStsCfgBad d))
  let d := forAll ss (fun i d => put .qosSliceKeyCfgBad i (b2n (sliceBad g d i)) d) d
  let d := forAll ms (fun i d => put .qosRsmapCfgBad i (b2n (rsmapBad g d i)) d) d
  let d := forAll hs (fun h d => put .qosPolStsCfgBad h
    (b2n (decide (cg g .qosPolPirPir h < cg g .qosPolRateCir h))) d) d
  put .qosCtlCfgBad 0 (b2n ((stsListed d .qosSliceKeyCfgBad).length + (stsListed d .qosRsmapCfgBad).length
    + (stsListed d .qosPolStsCfgBad).length > 0)) d

/-- The slices whose host an amendment changed, at the refill that brings the change (R308). -/
def movedSlices (og g : Cfg) : List Nat :=
  (slicesV g).filter fun s => cg og .qosSliceKeyV s == 1 && cg og .qosSliceKeyHost s != cg g .qosSliceKeyHost s

/-- A whole µs has passed on every die's copy of the timestamp since the last refill (R307). -/
def refillDue (d : Dyn) : Bool :=
  decide (d.qos.lastUs < ((List.range 4).foldl (fun m k => min m (dieTs d k)) (dieTs d 0)) / 1000)

/-- Packets of this package's slices carry the weights of the configuration that comes into force; those that arrived over GnokuLink-P keep
what they carry (R304, R305, R308). -/
def reweigh (g : Cfg) (d : Dyn) : Dyn :=
  let f (p : Pkt) : Pkt := if p.slice.isSome && !(decide (196 ≤ p.src) && decide (p.src < 200)) then { p with weight := weightOf g d p.slice } else p
  { d with fwd := { d.fwd with stag := ⟨d.fwd.stag.cells.map fun c => (c.1, c.2.map fun x => { x with pkt := f x.pkt })⟩,
                               eject := ⟨d.fwd.eject.cells.map fun c => (c.1, c.2.map f)⟩,
                               buf := ⟨d.fwd.buf.cells.map fun c => (c.1, c.2.map fun b => { b with pkt := f b.pkt })⟩ },
           noc := { d.noc with net := d.noc.net.map (fun x => { x with pkt := f x.pkt }),
                               wait := d.noc.wait.map fun w => { w with pkt := f w.pkt } } }

/-- One refill of every shaper and policer, under the newest configuration (R307, R308). -/
def refillAll (g : Cfg) (d : Dyn) : Dyn :=
  let og := qCfg g d
  let d := if d.qos.old.isSome then reweigh g d else d
  let d := { d with qos := { redShift d.qos with old := none, lastUs := d.qos.lastUs + 1, redDl := cg g .qosCtlRedDl 0 } }
  let d := forAll ((stsListed d .qosSliceLvlHeld).filter fun s => !(sliceOk g d s && shaped g s)) (fun s d => put .qosSliceLvlHeld s 0 d) d
  let d := forAll ((slicesV g).filter fun s => sliceOk g d s && shaped g s) (refillSlice og g) d
  let d := forAll ((cfgListed g .qosPolRateEn).filter fun h => cg g .qosPolRateEn h == 1) (refillHost og g) d
  qosMarkBad g d

end Machine
end Sys2Proof
end

