-- ==== Sys2Proof/Machine/Buffer.lean ====
section
/-! DEFINITION. Cluster buffers (spec/03): cells and classes, admission and felling, cut-through, egress arbitration,
congestion marks and mirror copies. -/

namespace Sys2Proof
namespace Machine

/-! ## Cells and classes (R96 to R104) -/

/-- The packets of a cluster buffer, oldest first. -/
def bufOf (d : Dyn) (cl : Nat) : List BufPkt := aget [] d.fwd.buf cl

/-- Replace the packets of a cluster buffer. -/
def setBuf (cl : Nat) (l : List BufPkt) (d : Dyn) : Dyn := { d with fwd := { d.fwd with buf := aset [] d.fwd.buf cl l } }

/-- The minimum of a class in a cluster, in effect after R103. -/
def classMin (g : Cfg) (cl q : Nat) : Nat :=
  if q % 2 = 0 then cg g .cluCminCminLo (cl * 4 + q / 2) else cg g .cluCminCminHi (cl * 4 + q / 2)

/-- Cells of a packet of b bytes: a CXL.mem or CXL.cache message with its data takes one. -/
def cellsOf (p : Pkt) : Nat := if p.cls = 0 ∨ p.cls = 1 ∨ p.cls = 2 ∨ p.cls = 4 then 1 else max 1 ((p.bytes + 255) / 256)

/-- Cells a class holds in a cluster. -/
def classCells (l : List BufPkt) (q : Nat) : Nat := (l.filter fun b => b.pkt.cls == q).foldl (fun n b => n + b.cells) 0

/-- Shared cells of a class: those above its minimum (R101). -/
def classShared (g : Cfg) (cl : Nat) (l : List BufPkt) (q : Nat) : Nat := classCells l q - classMin g cl q

/-- Free cells of the shared pool: its size less the shared cells of every class (R104). -/
def sharedFree (g : Cfg) (cl : Nat) (d : Dyn) (l : List BufPkt) : Nat :=
  rd d .cluShrCtlPool cl - (List.range 8).foldl (fun n q => n + classShared g cl l q) 0

/-- The buffer with, for each packet, how many of its cells count as shared: the cells the class took last (R101). -/
def withShared (g : Cfg) (cl : Nat) : List BufPkt → List Nat → List (BufPkt × Nat)
  | [], _ => []
  | b :: t, taken =>
    let q := b.pkt.cls
    let n := (taken[q]?).getD 0
    (b, min b.cells (n + b.cells - classMin g cl q)) :: withShared g cl t (taken.set q (n + b.cells))

/-- Shared cells of each packet, oldest first. -/
def sharedOf (g : Cfg) (cl : Nat) (l : List BufPkt) : List (BufPkt × Nat) :=
  withShared g cl l [0, 0, 0, 0, 0, 0, 0, 0]

/-- Shared cells held on one egress, all classes (R102). -/
def egrShared (g : Cfg) (cl egr : Nat) (l : List BufPkt) : Nat :=
  ((sharedOf g cl l).filter fun x => x.1.egr == egr).foldl (fun n x => n + x.2) 0

/-- Why a packet of `n` cells of a class cannot be charged now: 0 it can, 1 the pool is short, 2 its egress is at
EGR_SHR_MAX (R96, R101, R102, R105). Where both hold, the pool counts as the cause (DESIGN CHOICE, assumption 132). -/
def chargeFail (g : Cfg) (d : Dyn) (cl q egr n : Nat) (l : List BufPkt) : Nat :=
  let sh := n - (classMin g cl q - classCells l q)
  if sh = 0 then 0
  else if sharedFree g cl d l < sh then 1
  else if cg g .cluShrCtlEgrShrMax cl < egrShared g cl egr l + sh then 2
  else 0

/-! ## Felling (R105 to R109) -/

/-- The tail packet of a queue of an egress and class. -/
def queueTail (l : List BufPkt) (egr q : Nat) : Option BufPkt :=
  ((l.filter fun b => b.egr == egr && b.pkt.cls == q).getLast?)

/-- Depth in cells of a queue (R105). -/
def queueDepth (l : List BufPkt) (egr q : Nat) : Nat :=
  (l.filter fun b => b.egr == egr && b.pkt.cls == q).foldl (fun n b => n + b.cells) 0

/-- A packet is fellable: Q5 or Q6, all its cells shared, stored, not begun to leave (R106). -/
def fellable (x : BufPkt × Nat) : Bool :=
  (x.1.pkt.cls == 5 || x.1.pkt.cls == 6) && x.2 == x.1.cells && !x.1.ct && x.1.sent == 0

/-- The deepest queue of a class, among some egresses, whose tail is fellable; the lower egress wins a tie (R105). -/
def fellPick (g : Cfg) (cl q : Nat) (egrs : List Nat) (l : List BufPkt) : Option Nat :=
  let ok (e : Nat) : Bool := match ((sharedOf g cl l).filter fun x => x.1.egr == e && x.1.pkt.cls == q).getLast? with
    | some x => fellable x
    | none => false
  (egrs.filter ok).foldl (fun best e => match best with
    | none => some e
    | some b => if queueDepth l b q < queueDepth l e q then some e else some b) none

/-- The victim: a Q6 tail, else a Q5 tail, in the cluster or on the one egress (Table 3.2). -/
def fellVictim (g : Cfg) (cl why egr : Nat) (l : List BufPkt) : Option BufPkt :=
  let egrs := if why = 2 then [egr] else List.range 40
  match fellPick g cl 6 egrs l with
  | some e => queueTail l e 6
  | none => match fellPick g cl 5 egrs l with
    | some e => queueTail l e 5
    | none => none

/-- The data mover that issued a copy or zero write, from its source number. -/
def moverOf (p : Pkt) : Nat := p.src - 192

/-- What becomes of a packet taken out by felling or containment: a Q5 packet returns to its data mover by a felling
notice, a Q6 packet counts as lost in its session; felling counts in CLU.FELL, containment does not (R108, R109,
R120). -/
def fellEffect (cl : Nat) (counted : Bool) (b : BufPkt) (d : Dyn) : Dyn :=
  if b.pkt.cls = 5 then
    emit (.fellNotice (moverOf b.pkt) b.pkt.flow) (doIf counted (fun d => tallyClu cl 0x22 1 (bump .cluFellMig cl 1 d)) d)
  else if b.pkt.cls = 6 then
    match b.pkt.body with
    | .mirror sess _ _ _ _ => bump .mirStsLost sess 1 (doIf counted (fun d => tallyClu cl 0x23 1 (bump .cluFellMir cl 1 d)) d)
    | _ => d
  else d

/-- Fell packets one at a time until the arriving packet can be charged or nothing is fellable (R105, R107). -/
def fellFor (g : Cfg) (cl q egr n : Nat) : Nat → Dyn → Dyn
  | 0, d => d
  | fuel + 1, d =>
    let l := bufOf d cl
    let why := chargeFail g d cl q egr n l
    if why = 0 then d
    else match fellVictim g cl why egr l with
      | none => d
      | some v => fellFor g cl q egr n fuel (fellEffect cl true v (setBuf cl (dropOne v l) d))

/-! ## Egresses and cut-through (R111 to R115) -/

/-- The state of an egress that has never been used. -/
def egr0 : Egr := ⟨0, 0, 0, arrEmpty, 0, 0, 0, false⟩

/-- The scheduler state of an egress. -/
def egrOf (d : Dyn) (cl e : Nat) : Egr := aget egr0 d.fwd.egr (cl * 64 + e)

/-- Replace the scheduler state of an egress. -/
def setEgr (cl e : Nat) (x : Egr) (d : Dyn) : Dyn :=
  { d with fwd := { d.fwd with egr := aset egr0 d.fwd.egr (cl * 64 + e) x } }

/-- The router that leads to a destination: that of its cluster, or the service router (3, 2d) of the -P port of die d
(R24). -/
def dstRouter (dst : Nat) : Nat := if dst < 192 then cluRouter (lpClu dst) else svcRouter (2 * (dst - 192))

/-- The egress of a packet at a cluster: a logical port when the packet has come from the network or stays inside the
cluster, else the virtual output queue of its router (R19, R95). -/
def egressOf (cl : Nat) (p : Pkt) : Nat :=
  if p.dst < 192 ∧ lpClu p.dst = cl ∧ p.local1 then p.dst % 8 else 8 + dstRouter p.dst

/-- Two egress numbers are one egress: a logical port, or the network egress with its virtual output queues (R95). -/
def sameEgr (e e' : Nat) : Bool := e == e' || (decide (8 ≤ e) && decide (8 ≤ e'))

/-- The egress is idle for a packet: no packet of any class or virtual output queue being sent, and its queue empty of the cells that
count (R111, R112). -/
def egrIdle (g : Cfg) (cl e : Nat) (l : List BufPkt) : Bool :=
  let pref := cg g .cluFwdCtlCtPref cl == 1
  !(l.any fun b => (sameEgr b.egr e && (b.sent != 0 || b.ct)) || (b.egr == e && (!pref || (b.pkt.cls != 5 && b.pkt.cls != 6))))

/-- The rate of an egress for a packet: the port's, or the packet's own input rate toward the network (R113). -/
def egrRate (d : Dyn) (cl e : Nat) (p : Pkt) : Nat := if e < 8 then lpRate d (cl * 8 + e) else p.rate

/-- The time by which a packet of a rate, in tenths of GT/s over all lanes, has arrived whole (R113, R114). -/
def arrivedBy (d : Dyn) (p : Pkt) : Nat := if p.rate = 0 then d.now else d.now + (p.bytes * 80 + p.rate - 1) / p.rate

/-- A packet is cut through: CT_DIS = 0, the egress idle and no faster than the input (R111, R115). -/
def cutThrough (g : Cfg) (d : Dyn) (cl e : Nat) (p : Pkt) (l : List BufPkt) : Bool :=
  cg g .cluFwdCtlCtDis cl == 0 && egrIdle g cl e l && decide (egrRate d cl e p ≤ p.rate)

/-- Admit a packet whole into a cluster buffer, felling for it when its class may; false when it must wait; `first` is false for a packet
that another takes the idle egress from in the same cycle (R96, R105, R107, R115). -/
def tryAdmit (g : Cfg) (cl : Nat) (p : Pkt) (first : Bool) (d : Dyn) : Bool × Dyn :=
  let e := egressOf cl p
  let n := cellsOf p
  let d1 := if p.cls = 5 ∨ p.cls = 6 then d else fellFor g cl p.cls e n (bufOf d cl).length d
  let l := bufOf d1 cl
  if chargeFail g d1 cl p.cls e n l = 0 then
    let d2 := setBuf cl (l ++ [⟨p, n, e, first && cutThrough g d1 cl e p l, 0, arrivedBy d1 p⟩]) d1
    (true, peak .cluOccPeak (cl * 8 + p.cls) (classCells (bufOf d2 cl) p.cls) d2)
  else (false, d1)

/-! ## Congestion marks (R121 to R124) -/

/-- Egress depth of a downstream port: its Q0 and Q5 cells (R121). -/
def egrDepth (d : Dyn) (lp : Nat) : Nat :=
  let l := bufOf d (lpClu lp)
  queueDepth l (lp % 8) 0 + queueDepth l (lp % 8) 5

/-- The mark of a depth (Table 3.4); with MOD at or above SEV only Severe Overload at SEV (R123). -/
def markOf (g : Cfg) (cl depth : Nat) : DevLoad :=
  if cg g .cluMarkSev cl ≤ depth then .severe
  else if cg g .cluMarkMod cl < cg g .cluMarkSev cl ∧ cg g .cluMarkMod cl ≤ depth then .moderate
  else .light

/-- DevLoad as a number, lowest first. -/
def dlNat : DevLoad → Nat
  | .light => 0 | .optimal => 1 | .moderate => 2 | .severe => 3

/-- The higher of two DevLoads (R122). -/
def dlMax (a b : DevLoad) : DevLoad := if dlNat a < dlNat b then b else a

/-! ## Mirror sessions (R125 to R130) -/

/-- A session that has never run. -/
def mir0 : MirSess := ⟨0, 0, 0, 0, 0⟩

/-- CFG_ERR: ALP is no ANALYSIS port of this package, or DIR or SEL_KIND is reserved (MIR_CTL). -/
def mirErr (g : Cfg) (d : Dyn) (i : Nat) : Bool :=
  let alp := cg g .mirCtlAlp i
  !(isDown g d alp && lpBind g alp == 2 && decide (alp < 192)) || cg g .mirCtlDir i == 0 || decide (4 ≤ cg g .mirCtlSelKind i)

/-- A session copies: EN = 1 and no CFG_ERR. -/
def mirActive (g : Cfg) (d : Dyn) (i : Nat) : Bool := rd d .mirCtlEn i == 1 && !mirErr g d i

/-- What a mirror selector sees of an original. -/
structure MirView where
  lport : Nat
  egress : Bool
  isReq : Bool
  cls   : Nat
  proto : Nat
  host  : Nat
  addr  : Nat
  slice : Option Nat
  pasid : Option Nat
  len   : Nat
  deny  : Bool
deriving DecidableEq, Repr

/-- A session selects an original (R126). -/
def mirSelects (g : Cfg) (i : Nat) (v : MirView) : Bool :=
  let dr := cg g .mirCtlDir i
  let dirOk := if v.egress then dr == 2 || dr == 3 else dr == 1 || dr == 3
  dirOk && match cg g .mirCtlSelKind i with
    | 0 => cg g .mirSelLport i == v.lport
    | 1 => v.isReq && cg g .mirSelHost i == v.host
    | 2 => v.isReq && decide (cg g .mirLoAddr i ≤ v.addr / 4096) && decide (v.addr / 4096 ≤ cg g .mirHiAddr i)
    | 3 => v.isReq && v.slice == some (cg g .mirSelSlice i)
    | _ => false

/-- Captured bytes under SNAP. -/
def snapLen (g : Cfg) (i len : Nat) : Nat :=
  match cg g .mirCtlSnap i with
  | 0 => len | 1 => min len 64 | 2 => min len 128 | _ => min len 256

/-- The eight header words of a record (Tables 3.5 and 3.6) and its length. HOST has no valid bit: 0 where the original has no host ID
(DESIGN CHOICE, assumption 130). -/
def mirHeader (g : Cfg) (d : Dyn) (i seq : Nat) (v : MirView) : List Nat × Nat :=
  let cap := snapLen g i v.len
  let rec1 := 32 + (cap + 31) / 32 * 32
  let ts := dieTs d (lpDie v.lport)
  ([ 1 * 2 ^ 28 + i * 2 ^ 21 + b2n v.egress * 2 ^ 20 + b2n (decide (cap < v.len)) * 2 ^ 19 + b2n v.deny * 2 ^ 18
       + v.proto * 2 ^ 16 + rec1
   , seq % 2 ^ 32, ts % 2 ^ 32, ts / 2 ^ 32 % 2 ^ 32
   , v.lport * 2 ^ 24 + rd d .dieDieIdPkgId (lpDie v.lport) * 2 ^ 21 + v.cls * 2 ^ 18 + b2n v.slice.isSome * 2 ^ 12
       + v.slice.getD 0
   , v.host % 128 * 2 ^ 25 + b2n v.pasid.isSome * 2 ^ 20 + v.pasid.getD 0
   , v.len, 0 ], rec1)

/-- Cells a session holds in a cluster (R125). -/
def mirCells (l : List BufPkt) (i : Nat) : Nat :=
  (l.filter fun b => match b.pkt.body with
    | .mirror j _ _ _ _ => j == i
    | _ => false).foldl (fun n b => n + b.cells) 0

/-- One session's copy of an original: every Nth selected packet takes a sequence number; the copy is lost when its
session or the buffer has no cell for it or its analysis port is contained, and an original never waits for it (R120, R125, R127,
R130). A copy has no ingress link, so its input rate is 0 (DESIGN CHOICE, assumption 131). -/
def mirCopy (g : Cfg) (cl i : Nat) (v : MirView) (d : Dyn) : Dyn :=
  if mirActive g d i && mirSelects g i v then
    let m := aget mir0 d.mir i
    let take := m.picked % (rd d .mirSampNm1 i + 1) == 0
    let d := { d with mir := aset mir0 d.mir i { m with picked := m.picked + 1 } }
    if take then
      let h := mirHeader g d i m.seq v
      let d := { d with mir := aset mir0 d.mir i { m with picked := m.picked + 1, seq := (m.seq + 1) % 2 ^ 32 } }
      let alp := cg g .mirCtlAlp i
      let p : Pkt := ⟨m.seq, 6, h.2, 200, alp, none, none, 1, 0, 0, 0, decide (lpClu alp = cl), .mirror i m.seq h.1 (snapLen g i v.len) h.2⟩
      if lpContained d alp || decide (rd d .mirCapCells i < mirCells (bufOf d cl) i + cellsOf p) then bump .mirStsLost i 1 d
      else
        let r := tryAdmit g cl p true d
        if r.1 then r.2 else bump .mirStsLost i 1 r.2
    else d
  else d

/-- A Ranger that is locked and has captured nothing. -/
def mon0 : MonDie := ⟨arrEmpty, 0, [], 0, []⟩

/-- The header trace of a die takes the header of a packet of its port, until it holds 128 (R522). -/
def traceTake (v : MirView) (d : Dyn) : Dyn :=
  let die := lpDie v.lport
  let n := rd d .monTraceCtlCount die
  if rd d .monTraceCtlArmed die = 1 ∧ rd d .monTraceCtlLport die = v.lport ∧ n < 128 then
    let ts := dieTs d die
    let w : List Nat := [ 2 ^ 28 + b2n v.egress * 2 ^ 20 + b2n (decide (0 < v.len)) * 2 ^ 19 + b2n v.deny * 2 ^ 18 + v.proto * 2 ^ 16 + 32
      , n, ts % 2 ^ 32, ts / 2 ^ 32 % 2 ^ 32
      , v.lport * 2 ^ 24 + rd d .dieDieIdPkgId die * 2 ^ 21 + v.cls * 2 ^ 18 + b2n v.slice.isSome * 2 ^ 12 + v.slice.getD 0
      , v.host % 128 * 2 ^ 25 + b2n v.pasid.isSome * 2 ^ 20 + v.pasid.getD 0
      , v.len, 0 ]
    let m := aget mon0 d.mon die
    let d := { d with mon := aset mon0 d.mon die { m with trace := m.trace ++ [w] } }
    put .monTraceCtlFull die (b2n (n == 127)) (put .monTraceCtlCount die (n + 1) d)
  else d

/-- Every session's copy of an original, and the header trace's record of it (R125, R522). -/
def mirAll (g : Cfg) (cl : Nat) (v : MirView) (d : Dyn) : Dyn :=
  traceTake v (forAll (List.range 8) (fun i d => mirCopy g cl i v d) d)

/-- The buffer size of a session in bytes: below 16 pages acts as 16. -/
def mirBufBytes (g : Cfg) (i : Nat) : Nat := max 16 (cg g .mirBufSizePages i) * 4096

/-- The payload of the writes toward a session's capture card: the lower of the card's limit, found when the switch enumerates it at
bring-up, and 512 B (R128). -/
def mirPayload (g : Cfg) (d : Dyn) (i : Nat) : Nat :=
  match partnerAt d (cg g .mirCtlAlp i) with
  | some p => max 1 (min 512 p.maxPay)
  | none => 512

/-- Bytes cut into pieces of at most `k`. -/
def cutBytes (k : Nat) : Nat → List Nat → List (List Nat)
  | 0, _ => []
  | n + 1, l => if l.isEmpty then [] else l.take k :: cutBytes k n (l.drop k)

/-- Posted memory writes of a run of bytes toward the capture card (R128). -/
def mirWrites (g : Cfg) (i addr : Nat) (l : List Nat) (d : Dyn) : Dyn :=
  let k := mirPayload g d i
  forAll (cutBytes k l.length l).zipIdx (fun x d => emit (.mirrorWr i (addr + k * x.2) x.1) d) d

/-- The captured bytes of an original: the model carries no packet contents, so each word of them is a free value (assumption 130). -/
def capBytes (n : Nat) (d : Dyn) : List Nat × Dyn :=
  let k := (n + 3) / 4
  (((List.range k).flatMap fun j => leBytes 4 (Config.freeWord (d.free + j)).toNat).take n, { d with free := d.free + k })

/-- A copy that reaches the analysis port is written as a record, its header, the captured bytes and zeros up to a multiple of 32, into the
circular buffer, behind a pad record where it would not fit before the end (R128, R129, R130). -/
def mirDeliver (g : Cfg) (i : Nat) (words : List Nat) (cap len : Nat) (d : Dyn) : Dyn :=
  let m := aget mir0 d.mir i
  let size := mirBufBytes g i
  let base := cg g .mirBufBaseBase i * 4096
  let off := m.written % size
  let room := size - off
  let w := if room < len then
      (m.written + room, mirWrites g i (base + off) (wordBytes [2 ^ 24 + room] ++ List.replicate (room - 4) 0) d)
    else (m.written, d)
  let c := capBytes cap w.2
  let d := mirWrites g i (base + w.1 % size) (wordBytes words ++ c.1 ++ List.replicate (len - 32 - cap) 0) c.2
  { d with mir := aset mir0 d.mir i { m with written := w.1 + len } }

/-! ## Egress arbitration (R116, R302 to R304) -/

/-- A queue of Q0 to Q3 at an egress: ingress port and class (R302). -/
def qKey (p : Pkt) : Nat := p.src * 4 + p.cls

/-- Level of a packet: 0 green and responses, 1 yellow, 2 red (R303). -/
def levelOfPkt (p : Pkt) : Nat := if p.cls = 1 then 0 else min p.color 2

/-- Slots of a packet: 64 B each. -/
def slotsOf (p : Pkt) : Nat := max 1 ((p.bytes + 63) / 64)

/-- The head packets of the queues of an egress in the classes that have credit, oldest first. -/
def heads (l : List BufPkt) (e credit : Nat) : List BufPkt :=
  (l.foldl (fun (acc : List BufPkt × List Nat) b =>
    if b.egr == e && bitAt credit b.pkt.cls && !acc.2.contains (qKey b.pkt)
    then (acc.1 ++ [b], acc.2 ++ [qKey b.pkt]) else acc) ([], [])).1

/-- The quantum of a head packet: WEIGHT * 64 B, or 64 B at level 2 (R304). -/
def quantum (b : BufPkt) : Nat := if levelOfPkt b.pkt = 2 then 64 else max 1 b.pkt.weight * 64

/-- The next queue in rotation after `k` among those with a ready head. -/
def nextTurn (k : Nat) (ks : List Nat) : Nat :=
  let up := ks.filter fun x => decide (k < x)
  let pick (l : List Nat) : Nat := l.foldl (fun m x => if m = 0 then x + 1 else min m (x + 1)) 0
  (if up.isEmpty then pick ks else pick up) - 1

/-- Deficit round robin over the ready heads of one level: the queue served, its turn and the deficits after it. The
fuel bounds the visits. -/
def drr (hs : List BufPkt) : Nat → Nat → Arr Nat → Option (BufPkt × Nat × Arr Nat)
  | 0, _, _ => none
  | n + 1, turn, defi =>
    match hs.find? fun b => qKey b.pkt == turn with
    | some b =>
      let c := aget 0 defi turn
      if b.pkt.bytes ≤ c then some (b, turn, aset 0 defi turn (c - b.pkt.bytes))
      else
        let k := nextTurn turn (hs.map fun b => qKey b.pkt)
        match hs.find? fun b => qKey b.pkt == k with
        | some b' => drr hs n k (aset 0 defi k (aget 0 defi k + quantum b'))
        | none => none
    | none =>
      let k := nextTurn turn (hs.map fun b => qKey b.pkt)
      match hs.find? fun b => qKey b.pkt == k with
      | some b' => drr hs n k (aset 0 defi k (aget 0 defi k + quantum b'))
      | none => none

/-- The level served: a level starved for 64 slots takes the next one, level 2 before 1; else the lowest ready (R303). -/
def pickLevel (x : Egr) (r0 r1 r2 : Bool) : Nat :=
  if r2 && decide (64 ≤ x.starv2) then 2
  else if r1 && decide (64 ≤ x.starv1) then 1
  else if r0 then 0 else if r1 then 1 else 2

/-- Choose a Q0 to Q3 packet at an egress and move its scheduler on (R303, R304). -/
def pickLow (hs : List BufPkt) (x : Egr) : Option (BufPkt × Egr) :=
  let at' (n : Nat) := hs.filter fun b => levelOfPkt b.pkt == n
  let lv := pickLevel x (!(at' 0).isEmpty) (!(at' 1).isEmpty) (!(at' 2).isEmpty)
  let turn := if lv = 0 then x.turn0 else if lv = 1 then x.turn1 else x.turn2
  match drr (at' lv) ((at' lv).length * 70 + 70) turn x.defi with
  | none => none
  | some (b, k, defi) =>
    let x := { x with defi := defi }
    let x := if lv = 0 then { x with turn0 := k } else if lv = 1 then { x with turn1 := k } else { x with turn2 := k }
    let s1 := if lv = 1 then 0 else if (at' 1).isEmpty then x.starv1 else x.starv1 + slotsOf b.pkt
    let s2 := if lv = 2 then 0 else if (at' 2).isEmpty then x.starv2 else x.starv2 + slotsOf b.pkt
    some (b, { x with starv1 := s1, starv2 := s2 })

/-- Choose the packet an egress begins to send: Q4, then Q7, then Q5 and Q6 in turn until they have had one in 16 of the slots left while
they wait, then Q0 to Q3, then Q5 and Q6 (R116). -/
def pickPkt (l : List BufPkt) (e credit : Nat) (x : Egr) : Option (BufPkt × Egr) :=
  let first (q : Nat) := l.find? fun b => b.egr == e && b.pkt.cls == q && bitAt credit q
  match first 4 with
  | some b => some (b, x)
  | none => match first 7 with
    | some b => some (b, x)
    | none =>
      let lows := pickLow (heads (l.filter fun b => decide (b.pkt.cls < 4)) e credit) x
      let bulk := match x.low6, first 5, first 6 with
        | false, some b, _ => some b
        | true, _, some b => some b
        | _, some b, _ => some b
        | _, _, some b => some b
        | _, _, _ => none
      match bulk, lows with
      | some b, some (h, y) =>
        if 15 ≤ x.lowGap then some (b, { x with lowGap := x.lowGap - 15 * slotsOf b.pkt, low6 := b.pkt.cls == 5 })
        else some (h, { y with lowGap := x.lowGap + slotsOf h.pkt })
      | some b, none => some (b, { x with lowGap := 0, low6 := b.pkt.cls == 5 })
      | none, some (h, y) => some (h, { y with lowGap := 0 })
      | none, none => none

/-- A queue whose last packet has left loses its deficit (R304). -/
def settle (l : List BufPkt) (e : Nat) (x : Egr) : Egr :=
  { x with defi := akeep (fun k _ => l.any fun b => b.egr == e && qKey b.pkt == k && decide (b.pkt.cls < 4)) x.defi }

/-- One egress slot: the packet being sent goes on, or a new one begins; its cells return one by one. Answers the packet
when its last slot has gone (R104, R116). -/
def egrSlot (cl e credit : Nat) (d : Dyn) : Option BufPkt × Dyn :=
  let l := bufOf d cl
  let x := egrOf d cl e
  let cur := match l.find? fun b => b.egr == e && b.sent != 0 with
    | some b => some (b, x)
    | none => pickPkt l e credit x
  match cur with
  | none => (none, d)
  | some (b, y) =>
    let n := b.sent + 1
    if slotsOf b.pkt ≤ n then
      let l' := dropOne b l
      (some b, setEgr cl e (settle l' e y) (setBuf cl l' d))
    else
      let b' := { b with sent := n, cells := cellsOf b.pkt - n / 4 }
      (none, setEgr cl e y (setBuf cl (l.map fun z => if z = b then b' else z) d))

end Machine
end Sys2Proof
end

