-- ==== Sys2Proof/Machine/GklCore.lean ====
section
/-! DEFINITION. GnokuLink endpoints as the network sees them (spec/11, spec/12): numbering, credits, and sending messages. -/

namespace Sys2Proof
namespace Machine

/-- An endpoint that is off and has done nothing. -/
def gkl0 : GklEp :=
  { tries := 0, trainAt := 0, backAt := none, locked := false, goodBlk := arrEmpty, badBlk := arrEmpty, ids := arrEmpty,
    lpbkRx := false, failAt := none, looping := false, cold := false, wakes := 0, wakeAt := 0, lost := [], corr := arrEmpty,
    corrAt := 0, swap := none, cmp := none, replay := [], held := [], reasm := arrEmpty, freed := arrEmpty, recvd := arrEmpty,
    limit := arrEmpty, spent := arrEmpty, crdSeen := 0, initAt := 0, events := [], lastEv := 0, timer := 0, exps := 0,
    expSeq := 0, mode := none, nak := none, lat := 0, idle := false, lastTx := 0, crdAt := 0, txq := [],
    strmByte := 0, strmAt := 0, txWin := 0, txSpare := arrEmpty, errs := arrEmpty }

/-- An endpoint. -/
def gklGet (d : Dyn) (n : Nat) : GklEp := aget gkl0 d.gkl n
/-- Replace an endpoint. -/
def gklSet (n : Nat) (x : GklEp) (d : Dyn) : Dyn := { d with gkl := aset gkl0 d.gkl n x }
/-- Change an endpoint. -/
def gklMod (n : Nat) (f : GklEp → GklEp) (d : Dyn) : Dyn := gklSet n (f (gklGet d n)) d

/-- The endpoint is GnokuLink-P (R360). -/
def gklIsP (n : Nat) : Bool := n % 9 == 8
/-- Lane groups of each direction (Table 11.1). -/
def gklGroups (n : Nat) : Nat := if gklIsP n then 2 else 10
/-- Lanes of each direction, clock and spare included (Table 11.1). -/
def gklLanes (n : Nat) : Nat := 18 * gklGroups n
/-- The endpoint at the far end of a GnokuLink-D link: rows 0 to 3 at column 2d face those at column 2d - 1 (R24, Table
11.1). -/
def gklPeer (n : Nat) : Nat :=
  let die := n / 9
  let e := n % 9
  if e < 4 then (die + 3) % 4 * 9 + (e + 4) else (die + 1) % 4 * 9 + (e - 4)
/-- The router and direction whose link a GnokuLink-D endpoint carries (R24, Table 10.1). -/
def gklLink (n : Nat) : Nat × Nat :=
  let die := n / 9
  let e := n % 9
  if e < 4 then (e * 8 + 2 * die, 1) else ((e - 4) * 8 + 2 * die + 1, 0)
/-- The GnokuLink-D endpoint that carries a router's link in a direction, if that link crosses a die boundary. -/
def gklOfLink (r dir : Nat) : Option Nat :=
  let die := r % 8 / 2
  if dir = 0 ∧ r % 8 % 2 = 1 then some (die * 9 + 4 + r / 8)
  else if dir = 1 ∧ r % 8 % 2 = 0 then some (die * 9 + r / 8) else none

/-- A read of LPBK_ERR clears the count of the lane it shows (R3, R369). -/
def lpbkClear (n : Nat) (d : Dyn) : Dyn := gklMod n (fun x => { x with errs := aset 0 x.errs (rd d .gklLpbkErrLane n) 0 }) d

/-- STATE of the physical layer (Table 11.5). -/
def phySt (d : Dyn) (n : Nat) : Nat := rd d .gklPhyStsState n
/-- STATE of the link layer (Table 12.7). -/
def lnkSt (d : Dyn) (n : Nat) : Nat := rd d .gklLnkStsState n
/-- Difference of two counts modulo 4,096 (R380, R383). -/
def mod12 (a b : Nat) : Nat := (a + 4096 - b % 4096) % 4096
/-- Header credits available in a class (R380). -/
def hAvail (d : Dyn) (n tc : Nat) : Nat := mod12 (aget 0 (gklGet d n).limit tc) (aget 0 (gklGet d n).spent tc)
/-- Data credits available in a class (R380). -/
def dAvail (d : Dyn) (n tc : Nat) : Nat := mod12 (aget 0 (gklGet d n).limit (8 + tc)) (aget 0 (gklGet d n).spent (8 + tc))
/-- Replay buffer depth (R385). -/
def replayMax (n : Nat) : Nat := if gklIsP n then 1024 else 256
/-- Data flits of a message of one header and `ds` data slots that starts a flit (Table 12.1). -/
def msgFlits (ds : Nat) : Nat := if 14 < ds then 2 else 1
/-- Data slots of a message: 4 for a 64 B flit, 16 for a 256 B flit. -/
def slotsOfPlane (plane : Nat) : Nat := if plane < 2 then 4 else 16

/-! ## The byte stream and its lanes (R362, R363, R370, R374) -/

/-- Data lanes of each direction (Table 11.1). -/
def gklData (n : Nat) : Nat := 16 * gklGroups n

/-- The logical data lane of byte k of the stream (R362). -/
def byteLane (n k : Nat) : Nat := k % gklData n

/-- The lane ID that carries logical data lane j: position j mod 16 of lane group j / 16, or the spare where it stands in for that
position; `spare` gives per group 1 + the position it stands in for (R360, R362). -/
def laneOf (spare : Nat → Nat) (j : Nat) : Nat := 18 * (j / 16) + (if spare (j / 16) = j % 16 + 1 then 17 else j % 16)

/-- The scrambler's seed of a logical data lane (R363). -/
def scrSeed (j : Nat) : Nat := 0x7FFF00 ^^^ j

/-- The next bit of the scrambler x^23 + x^18 + 1: the register's bits 22 and 17 hold the bits 23 and 18 steps ago (R363). -/
def scrBit (s : Nat) : Nat := (bits s 22 1 + bits s 17 1) % 2

/-- The scrambler register after n bits (R363). -/
def scrRun : Nat → Nat → Nat
  | 0, s => s
  | n + 1, s => scrRun n ((s * 2 + scrBit s) % 2 ^ 23)

/-- The bits of a byte as its lane sends them: least significant first, each with the scrambler's next bit (R362, R363). -/
def scrByte (s b : Nat) : List Nat := (List.range 8).map fun i => (bits b i 1 + scrBit (scrRun i s)) % 2

/-- The level of a GnokuLink-P symbol (R362). -/
def pamLevel (sym : Nat) : Int :=
  match sym with
  | 0 => -3
  | 1 => -1
  | 3 => 1
  | _ => 3

/-- Two bits a UI, the earlier one bit 0 of the symbol (R362). -/
def pamLevels : List Nat → List Int
  | a :: b :: t => pamLevel (a + 2 * b) :: pamLevels t
  | _ => []

/-- What the lane of a byte carries: the bits on GnokuLink-D, the levels on GnokuLink-P; the scrambler of the logical lane has run 8 bits
for each byte the lane sent before (R362, R363). -/
def byteWire (n k b : Nat) : List Int :=
  let l := scrByte (scrRun (8 * (k / gklData n)) (scrSeed (byteLane n k))) b
  if gklIsP n then pamLevels l else l.map fun x => (x : Int)

/-- Bytes a nanosecond of each direction (Table 11.1). -/
def strmRate (n : Nat) : Nat := if gklIsP n then 448 else 960

/-- Bytes of the stream an endpoint has sent since the end block; outside ACTIVE it stands (R363, R370). -/
def strmNow (d : Dyn) (n : Nat) : Nat :=
  let x := gklGet d n
  x.strmByte + (if phySt d n = 2 then (d.now - x.strmAt) * strmRate n else 0)

/-- Note where the stream has come, before it stops or as it starts again (R370). -/
def strmMark (n : Nat) (d : Dyn) : Dyn := gklMod n (fun x => { x with strmByte := strmNow d n, strmAt := d.now }) d

/-! ## What lanes carry outside the stream (R364, R370, R371) -/

/-- A word's 32 bits, most significant first (Table 11.2). -/
def msbBits (w : Nat) : List Nat := (List.range 32).map fun i => bits w (31 - i) 1

/-- The marker of a training block, and of the end block (Table 11.2). -/
def trainMark (fin : Bool) : Nat := if fin then 0x4C70B38F else 0xB38F4C70

/-- The status word of a lane: VAR, LOCKED, LPBK, LANE_ID and CHK, the XOR of bits 31:24 and 23:16 (Table 11.3). -/
def trainStatus (p locked lpbk : Bool) (lane : Nat) : Nat :=
  let top := (b2n p + 1) * 16 + b2n locked * 8 + b2n lpbk * 4
  top * 2 ^ 24 + lane * 2 ^ 16 + (top ^^^ lane)

/-- PRBS-7, x^7 + x^6 + 1: the next n bits and the register after them, the new bit entering below (Table 11.2, assumption 161). -/
def prbs7 : Nat → Nat → List Nat
  | 0, _ => []
  | n + 1, s => let b := (bits s 6 1 + bits s 5 1) % 2; b :: prbs7 n ((s * 2 + b) % 128)

/-- The register of PRBS-7 after n bits. -/
def prbsRun : Nat → Nat → Nat
  | 0, s => s
  | n + 1, s => prbsRun n ((s * 2 + (bits s 6 1 + bits s 5 1) % 2) % 128)

/-- A training block of a lane, the block number k since TRAIN began: marker, status word, 64 bits of PRBS-7 that go on from block to
block, of period 127 (Table 11.2). -/
def trainBlock (p fin locked lpbk : Bool) (lane k : Nat) : List Nat :=
  msbBits (trainMark fin) ++ msbBits (trainStatus p locked lpbk lane) ++ prbs7 64 (prbsRun (64 * k % 127) (0x40 + lane % 63))

/-- An exit burst: 32 UI that alternate 1 and 0, then the marker (R370). -/
def exitBurst : List Nat := (List.range 32).map (fun i => (i + 1) % 2) ++ msbBits (trainMark false)

/-- One bit a UI outside the stream: the bits on GnokuLink-D, levels -3 and +3 on GnokuLink-P (R364, assumption 161). -/
def bitLevel (p : Bool) (b : Nat) : Int := if p then (if b = 0 then -3 else 3) else b

/-- The wake pattern of a clock lane: 64 cycles at an eighth of the clock rate, of 16 UI each on GnokuLink-D and 32 on GnokuLink-P (R370,
Table 11.1). -/
def wakeBits (p : Bool) : List Nat :=
  let h := if p then 16 else 8
  (List.range 64).flatMap fun _ => List.replicate h 1 ++ List.replicate h 0

/-- Training blocks sent so far: 128 UI each, at 48 UI a nanosecond on GnokuLink-D and 56 on GnokuLink-P (R364, Table 11.1). -/
def trainNo (d : Dyn) (n : Nat) : Nat := (d.now - (gklGet d n).trainAt) * (if gklIsP n then 56 else 48) / 128

/-- What goes out on the lanes when the transmitter begins: 1 training blocks, 2 blocks with LOCKED, 3 sixteen more and the end block, on
every data and spare lane; 4 the exit burst on every lane; 5 the wake pattern on the clock lanes; 7 blocks on the lane a spare has replaced;
8 blocks on the spare again. LPBK is 1 for a far-end loopback, asked for or accepted (R364 to R366, R369 to R371). -/
def laneWire (d : Dyn) (n what a b : Nat) : List (Nat × List Int) :=
  let p := gklIsP n
  let mode := rd d .gklLpbkCtlMode n
  let lpbk := mode == 3 || (mode == 0 && (gklGet d n).lpbkRx)
  let k := trainNo d n
  let blk (locked : Bool) (l : Nat) : List Nat := trainBlock p false locked lpbk l k
  let all (f : Nat → List Nat) : List (Nat × List Int) :=
    ((List.range (gklLanes n)).filter fun l => l % 18 != 16).map fun l => (l, (f l).map (bitLevel p))
  match what with
  | 1 => all (blk false)
  | 2 => all (blk true)
  | 3 => all fun l => ((List.range 16).flatMap fun i => trainBlock p false true lpbk l (k + i)) ++ trainBlock p true true lpbk l (k + 16)
  | 4 => (List.range (gklLanes n)).filterMap fun l => if l % 18 = 16 then none else some (l, exitBurst.map (bitLevel p))
  | 5 => (List.range (gklGroups n)).map fun g => (18 * g + 16, (wakeBits p).map (bitLevel p))
  | 7 => [(18 * a + b, (blk true (18 * a + b)).map (bitLevel p))]
  | 8 => [(18 * a + 17, (blk true (18 * a + 17)).map (bitLevel p))]
  | _ => []

/-- The transmitter of an endpoint is told what to send, and its lanes carry it (R364, R370, R371). -/
def phySay (n what a b : Nat) (d : Dyn) : Dyn := emit (.gklLane n (laneWire d n what a b)) (emit (.gklPhy n what a b) d)

/-! ## Flits (R374, R375, R377, R378) -/

/-- One bit of the CRC-32 of IEEE 802.3, least significant bit first. -/
def crcBit (c : Nat) : Nat := if c % 2 = 1 then c / 2 ^^^ 0xEDB88320 else c / 2
/-- One byte of the CRC-32 of IEEE 802.3. -/
def crcByte (c b : Nat) : Nat := (List.range 8).foldl (fun c _ => crcBit c) (c ^^^ b)
/-- The CRC-32 of IEEE 802.3 over a run of bytes (R375). -/
def crc32 (l : List Nat) : Nat := l.foldl crcByte 0xFFFFFFFF ^^^ 0xFFFFFFFF

/-- A message header slot (Table 12.4). -/
def hdrBytes (m : GTx) : List Nat :=
  let sl := match m.slice with
    | some s => 2 ^ 31 + s % 4096 * 2 ^ 19 + m.weight % 256 * 2 ^ 11
    | none => 0
  leBytes 4 m.route
    ++ leBytes 4 (m.mkind * 2 ^ 24 + m.ds * 2 ^ 19 + m.spkg * 2 ^ 16 + m.srtr * 2 ^ 11 + m.dep % 16 * 2 ^ 7)
    ++ leBytes 4 sl ++ leBytes 4 0

/-- The payload: header slots as built; the data of messages is free, and a NULL header slot and free padding fill what is left (R377). -/
def payloadBytes (f : TxFlit) : List Nat :=
  let sl (i : Nat) : List Nat :=
    match f.slots[i]? with
    | some (some m) => hdrBytes m
    | some none => (List.range 16).map fun k => Config.freeNat (f.base + 16 * i + k) % 256
    | none => if i = f.slots.length then List.replicate 16 0 else (List.range 16).map fun k => Config.freeNat (f.base + 16 * i + k) % 256
  (List.range 15).flatMap sl

/-- The 256 bytes of a data flit (Tables 12.1 and 12.2): HW0 with the current NES as ACK, BYP without a word, the payload, the CRC, and the
FEC, whose last two bytes on GnokuLink-D are 0 (R374, R375, R384). -/
def flitBytes (d : Dyn) (n : Nat) (f : TxFlit) : List Nat :=
  let hw := f.seq * 2 ^ 20 + rd d .gklLnkStsNes n * 2 ^ 8 + f.tc * 32 + b2n f.cg * 16 + f.col % 4 * 4 + f.ep % 2 * 2
  let head := leBytes 4 hw ++ leBytes 4 0 ++ payloadBytes f
  let body := head ++ leBytes 4 (crc32 head)
  body ++ (List.range 4).map fun i => if !gklIsP n && decide (2 ≤ i) then 0 else Config.rsParity (gklIsP n) body i % 256

/-- One short flit of a window with a bypass word in BYP0, NOP in the others (Table 12.3). -/
def shortBytes (ack w : Nat) : List Nat :=
  let b := leBytes 4 (ack * 2 ^ 8 + 1) ++ leBytes 4 w ++ List.replicate 20 0
  b ++ leBytes 4 (crc32 b)

/-- A planned swap that has begun has the spare send a copy of logical lane j's stream (R371). -/
def swapCopy (w : Option Swap) (j : Nat) : Bool :=
  match w with
  | some w => w.told && j == 16 * w.grp + w.pos
  | none => false

/-- A window of the stream goes out at the next boundary, its bytes dealt to the lanes (R362, R371, R374). -/
def putWindow (n : Nat) (b : List Nat) (d : Dyn) : Dyn :=
  let x := gklGet d n
  let w := max x.txWin ((strmNow d n + 255) / 256)
  let wire := b.zipIdx.flatMap fun b =>
    let k := 256 * w + b.2
    let j := byteLane n k
    let bs := byteWire n k b.1
    (laneOf (fun g => aget 0 x.txSpare g) j, bs) :: (if swapCopy x.swap j then [(18 * (j / 16) + 17, bs)] else [])
  emit (.gklWire n w wire) (gklMod n (fun x => { x with txWin := w + 1 }) d)

/-- A data flit goes out, or goes out again (R374, R386). -/
def putFlit (n : Nat) (f : TxFlit) (resent : Bool) (d : Dyn) : Dyn := putWindow n (flitBytes d n f) (emit (.gklFlit n f resent) d)

/-- A bypass word goes out in a window of short flits, in as many of the eight as asked for (R374, R391; assumption 81). -/
def gklSay (n w copies : Nat) (d : Dyn) : Dyn :=
  let a := rd d .gklLnkStsNes n
  putWindow n ((List.range 8).flatMap fun i => shortBytes a (if i < copies then w else 0)) (emit (.gklWord n w copies) d)

/-- Bypass words (Table 12.6). -/
def bypCredit (tc h dc : Nat) : Nat := 1 * 2 ^ 28 + tc * 2 ^ 25 + h * 2 ^ 13 + dc * 2
/-- NAK (Table 12.6). -/
def bypNak (first count : Nat) : Nat := 2 * 2 ^ 28 + first * 2 ^ 16 + (count - 1) * 2 ^ 10
/-- MODE (Table 12.6). -/
def bypMode (op : Nat) : Nat := 3 * 2 ^ 28 + op * 2 ^ 26
/-- CAP of this endpoint: version 1.MINOR, kind, package, die, reorder depth 64 (Table 12.6, R388, R392). -/
def bypCap (d : Dyn) (n minor : Nat) : Nat :=
  4 * 2 ^ 28 + 2 ^ 24 + minor * 2 ^ 20 + (b2n (gklIsP n) + 1) * 2 ^ 18 + rd d .dieDieIdPkgId 0 * 2 ^ 15 + n / 9 * 2 ^ 13 + 63 * 2 ^ 7
/-- PWR (Table 12.6). -/
def bypPwr (op : Nat) : Nat := 5 * 2 ^ 28 + op * 2 ^ 24
/-- SWAP (Table 12.6). -/
def bypSwap (op grp pos : Nat) : Nat := 6 * 2 ^ 28 + op * 2 ^ 24 + grp * 2 ^ 20 + pos * 2 ^ 16
/-- DOWN (Table 12.6). -/
def bypDown (why : Nat) : Nat := 7 * 2 ^ 28 + why * 2 ^ 24

/-- A flit takes one more slot of a message; a full flit, or one whose CG, COL or EP differ where the slot is a header, is closed before
(R377, R378). The newest flit stands first. -/
def packSlot (m : GTx) (hdr : Bool) (l : List TxFlit) : List TxFlit :=
  let sl := if hdr then some m else none
  let fresh : TxFlit := ⟨0, m.tc, m.cg, m.col, m.ep, [sl], 0⟩
  match l with
  | f :: t =>
    if 15 ≤ f.slots.length ∨ (hdr ∧ (f.cg, f.col, f.ep) ≠ (m.cg, m.col, m.ep)) then fresh :: l
    else { f with slots := f.slots ++ [sl] } :: t
  | [] => [fresh]

/-- Messages of one class packed back to back into flits (R377, R378). -/
def packMsgs (ms : List GTx) : List TxFlit :=
  (forAll ms (fun m l => forAll (List.range m.ds) (fun _ l => packSlot m false l) (packSlot m true l)) []).reverse

/-- Send one new data flit: the next SEQ, kept for replay, the timer started (R383 to R386). -/
def gklFlit1 (n : Nat) (f : TxFlit) (d : Dyn) : Dyn :=
  let x := gklGet d n
  let q := rd d .gklLnkSeqTxNext n
  let f := { f with seq := q, base := d.free }
  let d := put .gklLnkSeqTxNext n ((q + 1) % 4096) { d with free := d.free + 256 }
  let d := gklSet n { x with replay := x.replay ++ [f], timer := if x.replay.isEmpty then d.now else x.timer, lastTx := d.now } d
  putFlit n f false d

/-- Send messages of one class: the credits of each are spent when its header slot is placed (R379, R382); a link at 1.0 carries no colour
(R392). -/
def gklPutMsgs (n : Nat) (ms : List GTx) (d : Dyn) : Dyn :=
  let ms := if rd d .gklLnkStsMinor n = 0 then ms.map fun m => { m with col := 0 } else ms
  let d := forAll ms (fun m d => gklMod n (fun x =>
    { x with spent := aset 0 (aset 0 x.spent m.tc ((aget 0 x.spent m.tc + 1) % 4096)) (8 + m.tc) ((aget 0 x.spent (8 + m.tc) + m.ds) % 4096) }) d) d
  forAll (packMsgs ms) (fun f d => gklFlit1 n f d) d

/-- A side in EI sends the wake pattern on its clock lanes and waits for the partner's exit burst (R370). -/
def gklWake (n : Nat) (d : Dyn) : Dyn :=
  phySay n 5 0 0 (gklMod n (fun x => { x with wakes := 1, wakeAt := d.now }) d)

/-- A side leaves EI with an exit burst (R370). -/
def gklBurst (n : Nat) (d : Dyn) : Dyn :=
  phySay n 4 0 0 (put .gklPhyStsState n 2 (gklMod n (fun x => { x with idle := false }) (strmMark n d)))

/-- A side in EI that has something to send leaves it with an exit burst, or sends the wake pattern on its clock lanes toward
a partner in SLEEP (R370, R394). Whether the partner of a GnokuLink-P link, in another package, is in SLEEP is a free value
(assumption 126). -/
def gklStir (n : Nat) (d : Dyn) : Dyn :=
  if phySt d n ≠ 3 then d
  else if gklIsP n then
    if (gklGet d n).wakes = 0 then let r := drawNat d; (if r.1 % 2 = 1 then gklWake n r.2 else gklBurst n r.2) else d
  else if phySt d (gklPeer n) = 4 then (if (gklGet d n).wakes = 0 then gklWake n d else d)
  else gklBurst n d

/-- The messages at the front of a class's queue for which credits and replay room suffice (R379, R385). -/
def gklReady (h dc room : Nat) : List GTx → List GTx
  | [] => []
  | m :: t =>
    if 1 ≤ h ∧ m.ds ≤ dc ∧ msgFlits m.ds ≤ room then m :: gklReady (h - 1) (dc - m.ds) (room - msgFlits m.ds) t else []

/-- A link may carry a message: a GnokuLink-P link that has not joined the federation carries SYS messages alone (R397). -/
def gklCarries (d : Dyn) (n : Nat) (m : GTx) : Bool := !gklIsP n || m.mkind != 1 || aget 0 d.sys.hello (n / 9) == 1

/-- The messages of a class that a link may carry. -/
def gklOpen (d : Dyn) (n tc : Nat) (m : GTx) : Bool := m.tc == tc && gklCarries d n m

/-- The messages of a list that may go now. -/
def gklMayGo (d : Dyn) (n tc : Nat) (l : List GTx) : List GTx :=
  if lnkSt d n = 3 ∧ phySt d n = 2 then
    gklReady (hAvail d n tc) (dAvail d n tc) (replayMax n - (gklGet d n).replay.length) (l.filter (gklOpen d n tc))
  else []

/-- Send the waiting messages that may go, in order within each class and packed back to back; the classes in turn by number, for which the
spec gives no order (R377, R379; assumption 81). -/
def gklPump (n : Nat) (d : Dyn) : Dyn :=
  forAll (List.range 8) (fun tc d =>
    let go := gklMayGo d n tc (gklGet d n).txq
    if go.isEmpty then d
    else
      let rest := (gklGet d n).txq.filter (gklOpen d n tc)
      let other := (gklGet d n).txq.filter fun m => !gklOpen d n tc m
      gklPutMsgs n go (gklMod n (fun x => { x with txq := other ++ rest.drop go.length }) d)) d

/-- A message is handed to an endpoint to be sent (R379). -/
def gklSend (n : Nat) (m : GTx) (d : Dyn) : Dyn := gklPump n (gklStir n (gklMod n (fun x => { x with txq := x.txq ++ [m] }) d))

/-- A network packet crosses a boundary link now, one message for each of its flits, or waits for the link and its credits (R340, R341,
R347). -/
def gklCross (n k : Nat) (m : GTx) (d : Dyn) : Bool × Dyn :=
  let d := gklStir n d
  let ms := List.replicate k m
  if (gklMayGo d n m.tc ms).length = k then (true, gklPutMsgs n ms d) else (false, d)

/-- ROUTE of a message for another package (Table 12.4). -/
def farRoute (pkg rtr : Nat) : Nat := pkg * 2 ^ 29 + rtr * 2 ^ 24

/-- A message of this package for another one: MKIND PKT, 4 or 16 data slots by its plane, and a DEP (Table 12.4). -/
def farTx (d : Dyn) (plane pkg rtr src unit : Nat) : GTx :=
  ⟨2 * plane, slotsOfPlane plane, 1, false, 0, 0, farRoute pkg rtr, rd d .dieDieIdPkgId 0, src, Config.endpointNo unit, none, 0⟩

end Machine
end Sys2Proof
end

