-- ==== Sys2Proof/Machine/Noc.lean ====
section
/-! DEFINITION. The on-package network (spec/10): route words, injection and forwarding, lost links, route
reconfiguration, span closure and re-sent exchanges. -/

namespace Sys2Proof
namespace Machine

/-! ## Routes (R342 to R345) -/

/-- Row and column of a router. -/
def rRow (r : Nat) : Nat := r / 8
/-- Column of a router. -/
def rCol (r : Nat) : Nat := r % 8

/-- A router's index among its die's routers, j = 4 * (column - 2d) + row, as die * 8 + j. -/
def rtrIdx (r : Nat) : Nat := rCol r / 2 * 8 + 4 * (rCol r % 2) + rRow r

/-- Hops and direction in a ring of n: the shorter way, a tie takes the + direction (R345). -/
def ringHops (n a b : Nat) : Nat × Nat :=
  let up := (b + n - a) % n
  if 2 * up ≤ n then (0, up) else (1, n - up)

/-- A route word (R342): V, ORDER, COL_DIR, ROW_DIR, PLANE, COL_HOPS, ROW_HOPS. -/
def routeWord (order cdir rdir plane chops rhops : Nat) : Nat :=
  2 ^ 31 + order * 2 ^ 30 + cdir * 2 ^ 29 + rdir * 2 ^ 28 + plane * 2 ^ 26 + chops * 2 ^ 23 + rhops * 2 ^ 21

/-- The word that R345 computes at a router for a plane and destination. -/
def baseWord (order r plane dst : Nat) : Nat :=
  let c := ringHops 8 (rCol r) (rCol dst)
  let w := ringHops 4 (rRow r) (rRow dst)
  routeWord (order / 2 ^ plane % 2) c.1 w.1 plane c.2 w.2

/-- A bank by number. -/
def bankOf (d : Dyn) (b : Nat) : Bank := if b = 0 then d.noc.bank0 else d.noc.bank1

/-- Key of a word in a bank. -/
def wordKey (r plane dst : Nat) : Nat := r * 128 + plane * 32 + dst

/-- The word of a bank at a router, plane and destination; 0 (not valid) while the bank holds none. -/
def bankWord (k : Bank) (r plane dst : Nat) : Nat :=
  if k.used then aget (baseWord k.order r plane dst) k.ovr (wordKey r plane dst) else 0

/-- The router one link on: direction 0 column +, 1 column -, 2 row +, 3 row -. -/
def linkTo (r dir : Nat) : Nat :=
  match dir with
  | 0 => rRow r * 8 + (rCol r + 1) % 8
  | 1 => rRow r * 8 + (rCol r + 7) % 8
  | 2 => (rRow r + 1) % 4 * 8 + rCol r
  | _ => (rRow r + 3) % 4 * 8 + rCol r

/-- The links of a run of hops in one direction, and the router at its end. -/
def hopLinks (dir : Nat) : Nat → Nat → List (Nat × Nat) × Nat
  | 0, r => ([], r)
  | n + 1, r => let x := hopLinks dir n (linkTo r dir); ((r, dir) :: x.1, x.2)

/-- The links a word crosses from a router, and where it ends (R343). -/
def wordPath (w r : Nat) : List (Nat × Nat) × Nat :=
  let cd := bits w 29 1
  let rd' := 2 + bits w 28 1
  let ch := bits w 23 3
  let rh := bits w 21 2
  if bits w 30 1 = 0 then
    let a := hopLinks cd ch r
    let b := hopLinks rd' rh a.2
    (a.1 ++ b.1, b.2)
  else
    let a := hopLinks rd' rh r
    let b := hopLinks cd ch a.2
    (a.1 ++ b.1, b.2)

/-- A link is lost at its near router (R357). -/
def linkLost (d : Dyn) (r dir : Nat) : Bool := bitAt (rd d .nocRtrStsLost (rtrIdx r)) dir

/-- A lost link is on its way back into service (R393). -/
def linkDue (d : Dyn) (r dir : Nat) : Bool :=
  d.noc.pend.contains (r, 4 + dir) || d.noc.pend.contains (linkTo r dir, 4 + (if dir % 2 = 0 then dir + 1 else dir - 1))

/-- A valid word of a bank is sound: it leads to its destination on its plane over links in service (R344). -/
def wordSound (d : Dyn) (k : Bank) (r plane dst : Nat) : Bool :=
  let w := bankWord k r plane dst
  let p := wordPath w r
  !bitAt w 31 || (p.2 == dst && bits w 26 2 == plane && bits w 30 1 == k.order / 2 ^ plane % 2
    && p.1.all fun l => !linkLost d l.1 l.2 || linkDue d l.1 l.2)

/-- A bank is valid: every valid word is sound, with one ORDER for each plane (R344). -/
def bankValid (d : Dyn) (k : Bank) : Bool :=
  (List.range 32).all fun r => (List.range 4).all fun p => (List.range 32).all fun t => wordSound d k r p t

/-! ## Injection and ejection (R340, R352, R354) -/

/-- The bank now used for injection: CUR, and after T in a reconfiguration the new one (R342, R353). -/
def injBank (d : Dyn) : Nat :=
  let cur := rd d .nocEpochCur 0
  if rd d .nocEpochSwitched 0 = 1 then 1 - cur else cur

/-- A packet's word may be used now: unchanged between the banks, or its plane drained (R354). -/
def wordFree (d : Dyn) (r plane dst : Nat) : Bool :=
  rd d .nocEpochSwitched 0 == 0 || bankWord d.noc.bank0 r plane dst == bankWord d.noc.bank1 r plane dst
    || bitAt (rd d .nocEpochDrained 0) plane

/-- Network flits of a packet: one for each 256 B cell of data, one for a packet of the narrow planes (R340). -/
def flitsOf (plane : Nat) (p : Pkt) : Nat := if plane < 2 then 1 else max 1 ((p.bytes + 255) / 256)

/-- Put a packet into the network at a router with its word and epoch bit (R342). -/
def injectNow (r plane dst : Nat) (p : Pkt) (d : Dyn) : Dyn :=
  let b := injBank d
  let w := bankWord (bankOf d b) r plane dst
  let f : NetPkt := ⟨d.noc.nextNid, p, plane, r, dst, b, bits w 30 1, bits w 29 1, bits w 28 1, bits w 23 3,
    bits w 21 2, 0, 0, 8⟩
  let d := tallyDie (rCol r / 2) 0x47 (some plane) (flitsOf plane p) (ungate (120 + r) d)
  emit (.netFlit d.noc.nextNid r) { d with noc := { d.noc with nextNid := d.noc.nextNid + 1, net := d.noc.net ++ [f] } }

/-- A word damaged and not yet rewritten holds its packets (Table 16.3). -/
def wordBad (d : Dyn) (r plane dst : Nat) : Bool :=
  d.noc.badWord.contains (r, injBank d * 128 + plane * 32 + dst)

/-- Inject a packet, or keep it at its interface: behind earlier packets of its plane and destination there, on a word
that is not valid, or on one that waits for the drain (R342, R346, R354). -/
def inject (r plane dst : Nat) (p : Pkt) (d : Dyn) : Dyn :=
  let w := bankWord (bankOf d (injBank d)) r plane dst
  if bitAt w 31 && wordFree d r plane dst && !wordBad d r plane dst
      && !(d.noc.wait.any fun x => x.src == r && x.plane == plane && x.dst == dst)
  then injectNow r plane dst p d
  else { d with noc := { d.noc with wait := d.noc.wait ++ [⟨r, plane, dst, p⟩] } }

/-- Inject every packet that waited at its interface and may go now, in order. -/
def injectWaiting (d : Dyn) : Dyn :=
  let l := d.noc.wait
  forAll l (fun x d => inject x.src x.plane x.dst x.pkt d) { d with noc := { d.noc with wait := [] } }

/-- The plane of a packet (Table 10.2). -/
def planeOf (p : Pkt) : Nat :=
  match p.body with
  | .req r _ _ => match r.kind with
    | .memWr | .ioWr | .ioWrNp | .ioAtomic | .cacheWr => 2
    | _ => 0
  | .rsp _ k _ => match k with
    | .memData | .memDataS | .memDataE | .memDataPoison | .memDataPoisonS | .memDataPoisonE | .cpl | .cplPoison => 3
    | _ => 1
  | .copy _ _ _ _ _ _ | .zero _ _ | .mirror _ _ _ _ _ => 2
  | .remote r _ => if r.kind == .memWr then 2 else 0
  | .far m => m.tc / 2
  | .snp _ _ _ | .mgmt _ _ _ _ _ => 0

/-- A link is its dimension's dateline: columns 7 and 0, rows 3 and 0 (R343). -/
def dateline (r dir : Nat) : Bool :=
  match dir with
  | 0 => rCol r == 7
  | 1 => rCol r == 0
  | 2 => rRow r == 3
  | _ => rRow r == 0

/-- A packet one hop on: its hops, its router, and VC1 after the dateline (R343). -/
def hopOn (f : NetPkt) (dir : Nat) : NetPkt :=
  let dl := dateline f.rtr dir
  let r := linkTo f.rtr dir
  let vc := if dl then 1 else if dir < 2 then f.vcC else f.vcR
  if dir < 2 then { f with rtr := r, chops := f.chops - 1, vcC := vc, inp := 2 * dir + vc }
  else { f with rtr := r, rhops := f.rhops - 1, vcR := vc, inp := 2 * dir + vc }

/-- The router whose interface a packet came by: that of its cluster, of a mover or of the service block of a GnokuLink-P port (R339). -/
def srcRouter (p : Pkt) : Nat :=
  if p.src < 192 then cluRouter (lpClu p.src) else if p.src < 196 then svcRouter (2 * (p.src - 192) + 1) else svcRouter (2 * ((p.src - 196) % 4))

/-- The message of a packet that leaves by GnokuLink-P: its header, with the colour, slice and weight of the packet (R378, R396). -/
def farOf (f : NetPkt) (d : Dyn) : GTx :=
  let m := (match f.pkt.body with
    | .remote _ m | .far m => m
    | _ => farTx d f.plane 0 0 (srcRouter f.pkt) 16)
  { m with tc := 2 * f.plane, col := f.pkt.color, slice := f.pkt.slice, weight := f.pkt.weight }

/-- The message of a packet on a boundary link: the route word of R342 with the hops left beyond it, its epoch bit and colour, and the class
of its plane and virtual channel (R341, R378, Table 12.4). -/
def boundTx (f : NetPkt) (dir vc : Nat) (d : Dyn) : GTx :=
  let y := hopOn f dir
  ⟨2 * f.plane + vc, slotsOfPlane f.plane, 1, false, f.pkt.color, f.epoch, routeWord f.order f.cdir f.rdir f.plane y.chops y.rhops,
   rd d .dieDieIdPkgId 0, srcRouter f.pkt, Config.endpointNo (if f.pkt.dst < 192 then f.pkt.dst / 4 % 2 else 17), f.pkt.slice, f.pkt.weight⟩

/-- A packet reaches its destination's interface: ejection staging of its class, or out over GnokuLink-P (R98, R339). -/
def eject (f : NetPkt) (d : Dyn) : Dyn :=
  let p := f.pkt
  if p.dst < 192 then
    let k := lpClu p.dst * 8 + p.cls
    { d with fwd := { d.fwd with eject := aset [] d.fwd.eject k (aget [] d.fwd.eject k ++ [{ p with local1 := true }]) } }
  else forAll (List.range (flitsOf f.plane p)) (fun _ d => gklSend ((p.dst - 192) * 9 + 8) (farOf f d) d) d

/-- Ejection staging has room: 4 packets per class; RSP and DATA_S packets are always taken (R98, R348). -/
def ejectRoom (d : Dyn) (f : NetPkt) : Bool :=
  decide (192 ≤ f.pkt.dst) || f.plane == 1 || f.plane == 3
    || decide ((aget [] d.fwd.eject (lpClu f.pkt.dst * 8 + f.pkt.cls)).length < 4)

/-- Count a discard at a router. -/
def nocDiscard (f : NetPkt) (d : Dyn) : Dyn := bump .nocRtrErrDisc (rtrIdx f.rtr) 1 (emit (.netDrop f.nid) d)

/-- A region's FAIL bit (R40). -/
def regFail (d : Dyn) (r : Nat) : Bool :=
  if r % 2 = 0 then rd d .dieRclkStsR0Fail (r / 2) == 1 else rd d .dieRclkStsR1Fail (r / 2) == 1

/-- The next direction of a packet, by its order; none at its destination (R343). -/
def nextDir (f : NetPkt) : Option Nat :=
  if f.order = 0 then
    if f.chops ≠ 0 then some f.cdir else if f.rhops ≠ 0 then some (2 + f.rdir) else none
  else if f.rhops ≠ 0 then some (2 + f.rdir) else if f.chops ≠ 0 then some f.cdir else none

/-- The input buffer a packet would enter by its next hop has room: 8 flits for each plane and virtual channel of a link, a longer packet
when it is empty (R341, R347). -/
def inputRoom (d : Dyn) (f : NetPkt) (dir : Nat) : Bool :=
  let y := hopOn f dir
  let held := (d.noc.net.filter fun x => x.rtr == y.rtr && x.inp == y.inp && x.plane == f.plane).foldl (fun n x => n + flitsOf x.plane x.pkt) 0
  held == 0 || decide (held + flitsOf f.plane f.pkt ≤ 8)

/-- The clock of a router's region is stopped (R38, R39): UNLOCK being repaired or FAIL. -/
def rtrStopped (d : Dyn) (r : Nat) : Bool :=
  let dv := rCol r / 2
  if rCol r % 2 = 0 then rd d .dieRclkStsR0Lock dv == 0 else rd d .dieRclkStsR1Lock dv == 0

/-- Old-epoch packets of a plane: those in a router, and those that have crossed a boundary link and are not yet acknowledged there: two
classes of a link carry a plane, and EP the epoch (R353, R379). -/
def oldCount (d : Dyn) (plane : Nat) : Nat :=
  let old := rd d .nocEpochCur 0
  (d.noc.net.filter fun f => f.plane == plane && f.epoch == old).length
    + d.gkl.cells.foldl (fun n c => if gklIsP c.1 then n
        else n + (c.2.replay.filter fun f => f.tc / 2 == plane && f.ep == old).length) 0

/-! ## Exchange numbers (R358) -/

/-- Exchange numbers: shootdowns, journal records and watch set-ups use their own; HOLD of slot s of die d and the span
closure have fixed ones. -/
def holdXid (die slot : Nat) : Nat := 2 ^ 40 + die * 16 + slot
/-- Watch set-up of slot s of die d, the grant of a line by its slice, and the WAKE of a source by a slice (DEDUCED, assumption 155: the
exchanges that R358 calls grant and retry exchanges). -/
def watchXid (die slot : Nat) : Nat := 2 ^ 42 + die * 16 + slot
/-- The grant of a line: answered by DONE. -/
def grantXid (sl key : Nat) : Nat := 2 ^ 100 + sl * 2 ^ 64 + key
/-- The WAKE of a source: answered by the request sent again. -/
def wakeXid (sl src : Nat) : Nat := 2 ^ 43 + sl * 64 + src
/-- The span closure's exchange number. -/
def spanXid : Nat := 2 ^ 41

/-! ## Privileged endpoints (R350 to R352) -/

/-- An endpoint by its bit in NOC.FENCE is fenced. -/
def fenced (d : Dyn) (e : Nat) : Bool :=
  if e < 48 then bitAt (rd d .nocFenceDir 0) e
  else if e < 52 then bitAt (rd d .nocFenceMgmt 0) (e - 48)
  else if e < 56 then bitAt (rd d .nocFenceNvm 0) (e - 52)
  else bitAt (rd d .nocFenceAlloc 0) (e - 56)

/-- Set or clear an endpoint's bit in NOC.FENCE. -/
def setFence (e : Nat) (b : Bool) (d : Dyn) : Dyn :=
  if e < 48 then putBit .nocFenceDir 0 e b d
  else if e < 52 then putBit .nocFenceMgmt 0 (e - 48) b d
  else if e < 56 then putBit .nocFenceNvm 0 (e - 52) b d
  else putBit .nocFenceAlloc 0 (e - 56) b d

/-- Shared regions are valid: no directory slice may be fenced (R254). -/
def anyShared (g : Cfg) (d : Dyn) : Bool :=
  (List.range 64).any fun i => cg g .cohSrCfgV i == 1 && rd d .cohSrCfgCfgBad i == 0

/-- Endpoints that are never closed: the lead's management complex, NVM controller and shard, and the standby's shard
(R350), and directory slices while a shared region is valid (R254). -/
def neverClosed (g : Cfg) (d : Dyn) (e : Nat) : Bool :=
  (decide (e < 48) && anyShared g d)
    || leadDie d == some (e - 48) && decide (48 ≤ e ∧ e < 52)
    || leadDie d == some (e - 52) && decide (52 ≤ e ∧ e < 56)
    || (leadDie d == some (e - 56) || standbyDie d == some (e - 56)) && decide (56 ≤ e)

/-- Start the next span closure that waits, if none runs (Table 10.4 steps 1 and 2). -/
def spanNext (d : Dyn) : Dyn :=
  match d.noc.spanQ with
  | [] => d
  | e :: t =>
    if rd d .nocSpanStsBusy 0 = 1 then d
    else
      let d := { d with noc := { d.noc with spanQ := t, niSent := arrEmpty } }
      let d := put .nocSpanStsBusy 0 1 (put .nocSpanStsStep 0 3 (put .nocSpanStsEp 0 e (put .nocSpanStsMarks 0 0 d)))
      xchOpen spanXid (emit (.fence e) d)

/-- The power domain of an endpoint: its slice's cluster, or its service block. -/
def epDom (e : Nat) : Nat :=
  if e < 48 then domClu (e / 2) else if e < 52 then domSvc (2 * (e - 48)) else if e < 56 then domSvc (2 * (e - 52))
  else domSvc (2 * (e - 56) + 1)

/-- The region of an endpoint. -/
def epRegion (e : Nat) : Nat :=
  if e < 48 then cluRegion (e / 2) else if e < 52 then 2 * (e - 48) else if e < 56 then 2 * (e - 52) else 2 * (e - 56) + 1

/-- Reopen an endpoint: UNFENCE, its bits cleared, event 0x0704 (R351). -/
def spanOpen (e : Nat) (d : Dyn) : Dyn :=
  raise 0x0704 (leadOr0 d) [e] (emit (.unfence e)
    (setFence e false { d with noc := { d.noc with niFence := ⟨d.noc.niFence.cells.filter fun c => c.1 / 32 != e⟩,
                                                   reopen := d.noc.reopen.filter fun x => x != e } }))

/-- A request that reaches a fenced endpoint: refused or discarded, counted, event 0x0705 at most once per second per
interface (R352). -/
def fenceRefuse (ni e : Nat) (d : Dyn) : Dyn :=
  let d := bump .nocRefusedCount 0 1 d
  if aget 0 d.noc.refAt ni ≤ d.now then
    raise 0x0705 (rCol ni / 2) [ni, e] { d with noc := { d.noc with refAt := aset 0 d.noc.refAt ni (d.now + 1000000000) } }
  else d

/-- Fence every endpoint of a region that has failed, without marks or drain (R356). -/
def fenceRegion (r : Nat) (d : Dyn) : Dyn :=
  let die := r / 2
  let d := forAll ((List.range 6).map fun k => (die * 6 + r % 2 * 3) * 2 + k) (fun n d => setFence n true d) d
  if r % 2 = 0 then setFence (48 + die) true (setFence (52 + die) true d) else setFence (56 + die) true d

/-! ## Lost links (R357) -/

/-- A link leaves service in one direction: packets waiting for it are discarded and counted. -/
def loseDir (r dir : Nat) (d : Dyn) : Dyn :=
  let i := rtrIdx r
  let d := put .nocRtrStsLost i (bitSet (rd d .nocRtrStsLost i) dir) d
  let gone := d.noc.net.filter fun f => f.rtr == r && nextDir f == some dir
  let d := { d with noc := { d.noc with net := d.noc.net.filter fun f => !(f.rtr == r && nextDir f == some dir) } }
  forAll gone nocDiscard d

/-- A router link is lost: both channels, event 0x0706, and a reconfiguration asked for at once, which is never abandoned
(R357, R486). -/
def loseLink (r dir : Nat) (d : Dyn) : Dyn :=
  if linkLost d r dir then d
  else
    let far := linkTo r dir
    let back := if dir % 2 = 0 then dir + 1 else dir - 1
    let d := loseDir far back (loseDir r dir d)
    let d := raise 0x0706 (rCol r / 2) [r, dir] d
    let d := { d with noc := { d.noc with pend := d.noc.pend ++ [(r, dir)] } }
    (arbAsk { actReq 5 [] [] with lostLink := true } 0 d).2

/-- A lost link is up again and asks for the reconfiguration that returns it to service (R393). -/
def linkReturn (r dir : Nat) (d : Dyn) : Dyn :=
  if linkLost d r dir && !linkDue d r dir then
    (arbAsk (actReq 5 [] []) 0 { d with noc := { d.noc with pend := d.noc.pend ++ [(r, 4 + dir)] } }).2
  else d

/-- The links that are due are in service from the switch on (R393). -/
def linksBack (d : Dyn) : Dyn :=
  let due := d.noc.pend.filter fun x => 4 ≤ x.2
  let d := { d with noc := { d.noc with pend := d.noc.pend.filter fun x => !(4 ≤ x.2) } }
  forAll due (fun x d =>
    let dir := x.2 - 4
    putBit .nocRtrStsLost (rtrIdx (linkTo x.1 dir)) (if dir % 2 = 0 then dir + 1 else dir - 1) false
      (putBit .nocRtrStsLost (rtrIdx x.1) dir false d)) d

/-- Every link into a failed region is lost (R357). -/
def loseRegion (reg : Nat) (d : Dyn) : Dyn :=
  forAll (List.range 4) (fun row d => forAll [0, 1, 2, 3] (fun dir d => loseLink (row * 8 + reg) dir d) d) d

/-- An earlier packet with the same way to go is still at the router and goes first (R346). -/
def behind (d : Dyn) (f : NetPkt) : Bool :=
  (d.noc.net.takeWhile fun x => x.nid != f.nid).any fun x => { x with nid := f.nid, pkt := f.pkt } == f

/-! ## Meanings -/

/-- PACKET_FORWARD: a router forwards a packet when it holds credit: one hop, a discard for damaged parity or a lost link,
or delivery through the interface; a sleeping domain is woken (R343, R346, R347, R349, R357, R359). -/
def execPacketForward (nid : Nat) (credit parityOk : Bool) (s : State) : Host.Outcome State Fault Refusal :=
  nextDyn s fun g d =>
    match d.noc.net.find? fun f => f.nid == nid with
    | none => d
    | some f =>
      let gone := { d with noc := { d.noc with net := dropOne f d.noc.net } }
      if !parityOk then
        let d := bump .nocRtrErrPar (rtrIdx f.rtr) 1 (emit (.netDrop f.nid) gone)
        let d := raise 0x0707 (rCol f.rtr / 2) [f.rtr] d
        forAll (aerFns g d f.pkt.src) (fun x d => aerTell x.1 x.2 2 d) d
      else if rtrStopped d f.rtr || behind d f then d
      else match nextDir f with
        | none =>
          if 2 ≤ domPwr d (domRtr f.rtr) then emit (.wake (1000 + f.rtr)) d
          else if f.pkt.dst < 192 ∧ 2 ≤ domPwr d (domPu (lpPu f.pkt.dst)) ∧ rd d .pwrDomStsFail (domPu (lpPu f.pkt.dst)) = 0 then
            emit (.wake (3000 + lpPu f.pkt.dst)) d
          else if ejectRoom d f then ungate (120 + f.rtr) (eject f gone) else d
        | some dir =>
          if linkLost d f.rtr dir then nocDiscard f gone
          else
            let to1 := linkTo f.rtr dir
            if !credit || rtrStopped d to1 || ((gklOfLink f.rtr dir).isNone && !inputRoom d f dir) then d
            else if 2 ≤ domPwr d (domRtr to1) then emit (.wake (1000 + to1)) d
            else
              let x := match gklOfLink f.rtr dir with
                | some n => gklCross n (flitsOf f.plane f.pkt) (boundTx f dir (if dateline f.rtr dir then 1 else f.vcC) d) d
                | none => (true, d)
              if x.1 then
                ungate (120 + to1) { x.2 with noc := { x.2.noc with net := mapIf (fun y => y == f) (fun f => hopOn f dir) x.2.noc.net } }
              else x.2

/-- SPAN_CLOSE_REQUEST: a power controller asks the lead to close a privileged endpoint; one closure runs at a time
(R351 step 1). -/
def execSpanCloseRequest (e : Fin 60) (s : State) : Host.Outcome State Fault Refusal :=
  nextDyn s fun g d =>
    if neverClosed g d e || fenced d e || d.noc.spanQ.contains e.val then d
    else spanNext { d with noc := { d.noc with spanQ := d.noc.spanQ ++ [e.val] } }

/-- FENCE_MSG: an interface receives FENCE(E), sets the bit and sends its two marks (R351 step 3). -/
def execFenceMsg (ni : Router) (e : Fin 60) (s : State) : Host.Outcome State Fault Refusal :=
  nextDyn s fun _ d =>
    if rd d .nocSpanStsBusy 0 = 1 ∧ rd d .nocSpanStsEp 0 = e.val then
      let d := { d with noc := { d.noc with niFence := aset 0 d.noc.niFence (e.val * 32 + ni.val) 1 } }
      emit (.fenceMark e ni) (emit (.fenceMark e ni) (put .nocSpanStsStep 0 4 (setFence e true d)))
    else d

/-- FENCE_MARK: the endpoint counts a mark of an interface, two from each, until it has 64 (R351 step 4). -/
def execFenceMark (ni : Router) (s : State) : Host.Outcome State Fault Refusal :=
  nextDyn s fun _ d =>
    let n := aget 0 d.noc.niSent ni
    if rd d .nocSpanStsBusy 0 = 1 ∧ aget 0 d.noc.niFence (rd d .nocSpanStsEp 0 * 32 + ni.val) = 1 ∧ n < 2 then
      let m := rd d .nocSpanStsMarks 0 + 1
      let d := put .nocSpanStsMarks 0 m { d with noc := { d.noc with niSent := aset 0 d.noc.niSent ni (n + 1) } }
      doIf (m == 64) (put .nocSpanStsStep 0 5) d
    else d

/-- SPAN_CLOSED: the endpoint holds nothing open and reports CLOSED and ACCEPT; a wake that came during the closure
reopens it at once, else the next closure starts (R351 steps 5 and 6). -/
def execSpanClosed (s : State) : Host.Outcome State Fault Refusal :=
  nextDyn s fun _ d =>
    if rd d .nocSpanStsBusy 0 = 1 ∧ rd d .nocSpanStsMarks 0 = 64 then
      let e := rd d .nocSpanStsEp 0
      let d := xchClose spanXid (put .nocSpanStsStep 0 6 (put .nocSpanStsBusy 0 0 d))
      let d := raise 0x0703 (leadOr0 d) [e] (emit (.closed e) d)
      spanNext (doIf (d.noc.reopen.contains e) (spanOpen e) d)
    else d

/-- UNFENCE: a closed endpoint is ACTIVE again, and each interface clears its bit; an endpoint of a failed region stays fenced (R351,
R356). -/
def execUnfence (e : Fin 60) (s : State) : Host.Outcome State Fault Refusal :=
  nextDyn s fun _ d =>
    if rd d .nocSpanStsBusy 0 = 1 ∧ rd d .nocSpanStsEp 0 = e.val then
      { d with noc := { d.noc with reopen := d.noc.reopen ++ [e.val] } }
    else if fenced d e && !regFail d (epRegion e) && decide (domPwr d (epDom e) ≤ 1) then spanOpen e d else d

/-- RECONFIG_GRANT: a granted reconfiguration starts to load the inactive bank; a planned one is asked for here, one for
a lost link was asked for when the link was lost (R353 step 1). -/
def execReconfigGrant (s : State) : Host.Outcome State Fault Refusal :=
  nextDyn s fun _ d =>
    if rd d .nocEpochBusy 0 = 1 then d
    else match d.hlth.running.find? fun a => a.q.code == 5 with
      | none => d
      | some a => put .nocEpochBusy 0 1 (put .nocEpochSwitched 0 0 (put .nocEpochDrained 0 0
          { d with noc := { d.noc with act := some a.id, loadAt := d.now, swAt := none } }))

/-- End a reconfiguration: its grant is released. -/
def reconfEnd (d : Dyn) : Dyn :=
  let d := put .nocEpochBusy 0 0 (put .nocEpochSwitched 0 0 d)
  match d.noc.act with
  | some id => arbFree id { d with noc := { d.noc with act := none, swAt := none } }
  | none => { d with noc := { d.noc with swAt := none } }

/-- BANK_LOAD_DONE: the inactive bank holds the words the lead chose (those that differ from the shortest path under the
given orders); T is set 2 µs later, or the bank is not valid and the reconfiguration ends (R353 steps 1 and 2). -/
def execBankLoadDone (order : Fin 16) (words : List (Nat × Nat)) (s : State) : Host.Outcome State Fault Refusal :=
  nextDyn s fun _ d =>
    if rd d .nocEpochBusy 0 = 1 ∧ d.noc.swAt = none then
      let ovr := forAll words (fun x (a : Arr Nat) => aset 0 a x.1 x.2) arrEmpty
      let k : Bank := ⟨true, order.val, ovr⟩
      let d := if rd d .nocEpochCur 0 = 0 then { d with noc := { d.noc with bank1 := k } }
        else { d with noc := { d.noc with bank0 := k } }
      if bankValid d k then { d with noc := { d.noc with swAt := some (d.now + 2000) } }
      else reconfEnd (raise 0x0702 (leadOr0 d) [] d)
    else d

/-- SWITCH_TIME: at T every interface injects from the new bank with the new epoch bit (R353 step 2). -/
def execSwitchTime (s : State) : Host.Outcome State Fault Refusal :=
  nextDyn s fun _ d =>
    match d.noc.swAt with
    | some t => if t ≤ d.now ∧ rd d .nocEpochSwitched 0 = 0 then injectWaiting (linksBack (put .nocEpochSwitched 0 1 d)) else d
    | none => d

/-- DRAINED: a plane holds no old-epoch packet; when all four are drained CUR takes the new bank, the routers make their
change and event 0x0701 is raised (R353 steps 3 and 4, R354). -/
def execDrained (plane : Fin 4) (s : State) : Host.Outcome State Fault Refusal :=
  nextDyn s fun _ d =>
    if rd d .nocEpochSwitched 0 = 1 ∧ oldCount d plane.val = 0 ∧ !bitAt (rd d .nocEpochDrained 0) plane.val then
      let m := bitSet (rd d .nocEpochDrained 0) plane.val
      let d := put .nocEpochDrained 0 m d
      if m = 15 then
        let d := put .nocEpochCur 0 (1 - rd d .nocEpochCur 0) d
        let d := put .nocEpochCount 0 (rd d .nocEpochCount 0 + 1) d
        let d := { d with noc := { d.noc with pend := d.noc.pend.filter fun x => 4 ≤ x.2 } }
        raise 0x0701 (leadOr0 d) [] (injectWaiting (reconfEnd d))
      else injectWaiting d
    else d

/-- LINK_LOST: a router link is lost (R357). -/
def execLinkLost (r : Router) (dir : Fin 4) (s : State) : Host.Outcome State Fault Refusal :=
  nextDyn s fun _ d => loseLink r dir d

/-- RESEND_TIMEOUT: an exchange without an answer is sent again every RESEND_US; after the eighth resend 0x0708 once
(R358). RESEND_US 0 acts as 1. -/
def execResendTimeout (xid : Nat) (s : State) : Host.Outcome State Fault Refusal :=
  nextDyn s fun g d =>
    match d.noc.xchs.find? fun x => x.xid == xid with
    | none => d
    | some x =>
      if x.at0 + max 1 (cg g .nocCtlResendUs 0) * 1000 ≤ d.now then
        let n := x.sent + 1
        let y := { x with at0 := d.now, sent := n, told := x.told || decide (8 ≤ n) }
        let d := { d with noc := { d.noc with xchs := mapIf (fun z => z.xid == xid) (fun _ => y) d.noc.xchs } }
        let d := emit (.resend xid) d
        doIf (decide (8 ≤ n) && !x.told) (raise 0x0708 (leadOr0 d) [xid]) d
      else d

end Machine
end Sys2Proof
end

