-- ==== Sys2Proof/Machine/Xlt.lean ====
section
/-! DEFINITION. Translation (spec/04): placement and twin tables, the translation cache, misses, what a translated request
becomes, placement writes and shootdowns, hotness samples and the LD event log. -/

namespace Sys2Proof
namespace Machine

/-! ## Placement table (R137 to R143) -/

/-- Key of a page of an LD. -/
def pgKey (ld page : Nat) : Nat := ld * 2 ^ 27 + page

/-- An entry that reads UNMAPPED (R207). -/
def pt0 : PtEnt := ⟨0, false, 0, 0, 0, 0, 0, 0⟩

/-- A twin entry that is not present. -/
def tw0 : TwEnt := ⟨false, 0, 0⟩

/-- The placement entry of a page. -/
def ptGet (d : Dyn) (ld page : Nat) : PtEnt := aget pt0 d.xlt.pt (pgKey ld page)

/-- Write the placement entry of a page. -/
def ptSet (ld page : Nat) (e : PtEnt) (d : Dyn) : Dyn :=
  { d with xlt := { d.xlt with pt := aset pt0 d.xlt.pt (pgKey ld page) e } }

/-- The twin entry of an index; index 0 means no twin. -/
def twGet (d : Dyn) (i : Nat) : TwEnt := if i = 0 then tw0 else aget tw0 d.xlt.tw i

/-- Write a twin entry. -/
def twSet (i : Nat) (e : TwEnt) (d : Dyn) : Dyn := { d with xlt := { d.xlt with tw := aset tw0 d.xlt.tw i e } }

/-- A 64-bit PT_ENTRY as memory holds it (Table 4.2). -/
def ptWord (e : PtEnt) : Nat :=
  e.state * 2 ^ 62 + b2n e.poison * 2 ^ 61 + e.tier * 2 ^ 60 + e.run * 2 ^ 58 + e.hint * 2 ^ 56 + e.dev * 2 ^ 49
    + e.bpage * 2 ^ 22 + e.twin

/-- log2 of the pages of a RUN code (Table 4.2). -/
def runLog (r : Nat) : Nat := if r = 1 then 4 else if r = 2 then 9 else 0

/-- Pages of an LD (R132). -/
def ldPages (g : Cfg) (ld : Nat) : Nat := cg g .xltLdtPages ld

/-- A host has a managed LD (R66, R69): the image gives it pages, and its link, when up, runs CXL.mem. -/
def hasLd (g : Cfg) (d : Dyn) (h : Nat) : Bool :=
  decide (0 < ldPages g h) && match hostPort g d h with
    | some lp => !(lpLinkUp d lp && rd d .portLstsMem lp == 0)
    | none => false

/-- The first entry number of an LD's array: 8 MiB of twin table, then the LDs in order (R138). -/
def ldFirst (g : Cfg) (ld : Nat) : Nat := (List.range ld).foldl (fun n k => n + ldPages g k) 1048576

/-- The placement region in whole 256 MiB blocks (R138). -/
def regionBlocks (g : Cfg) : Nat := (8 * ldFirst g 128 + 268435455) / 268435456

/-- The LD and page of an entry number. -/
def entryOwner (g : Cfg) (n : Nat) : Option (Nat × Nat) :=
  (firstFrom (fun l => decide (ldFirst g l ≤ n) && decide (n < ldFirst g l + ldPages g l)) 0 128).map
    fun l => (l, n - ldFirst g l)

/-- Twin indices free to hand out: the lowest of 1 to 2^20 - 1 that no entry carries (R547). -/
def twFree (d : Dyn) : Option Nat :=
  firstFrom (fun i => decide (i < 1048576) && cellsFind i d.xlt.tw.cells == none) 1 (d.xlt.tw.cells.length + 1)

/-- The twin of a page: device and page at the page's offset in its run (R141). -/
def twinOf (d : Dyn) (e : PtEnt) (page : Nat) : Option (Nat × Nat) :=
  let t := twGet d e.twin
  if t.v then some (t.dev, t.bpage + page % 2 ^ runLog e.run) else none

/-! ## Answers the switch gives itself -/

/-- A die answers HOLD for a page as its watch on the page reaches zero (R171 step 3). -/
def holdTell (die : Nat) (pg : Option (Nat × Nat)) (d : Dyn) : Dyn :=
  match pg with
  | none => d
  | some (ld, page) =>
    if !d.xlt.heldPg.contains (die, ld, page) || d.flights.any fun f => f.die == die && f.page == pg then d
    else forAll ((List.range 64).filter fun i => rd d .xltMigStsState i == 4 && rd d .xltMigStsLd i == ld && rd d .xltMigPagePage i == page)
      (fun i d => emit (.holdAns (i / 16) (i % 16) die) d) d

/-- The flight of a request. -/
def flightOf (d : Dyn) (id : Nat) : Option Flight := d.flights.find? fun f => f.req.id == id

/-- A request commits: it leaves the table of flights, a watch on its page may reach zero, and a SYNC barrier may be met (R166, R171, R275,
R276). -/
def commit (id : Nat) (d : Dyn) : Dyn :=
  let f := flightOf d id
  let d := { d with flights := d.flights.filter fun f => f.req.id != id }
  syncCheck (match f with
    | some f => holdTell f.die f.page d
    | none => d)

/-- Change the flight of a request. -/
def setFlight (id : Nat) (f : Flight → Flight) (d : Dyn) : Dyn :=
  { d with flights := mapIf (fun x => x.req.id == id) f d.flights }

/-- Class of a request (Table 3.1). -/
def clsOf : ReqKind → Nat
  | .memRd | .memSpecRd | .memWr | .memInv | .memClnEvct => 0
  | .cacheRd | .cacheWr => 2
  | .ioRd | .ioWr | .ioWrNp | .ioAtomic | .ioCfg => 3
  | .biSnp => 4

/-- Return a credit of a class to the link partner (R97). -/
def credit (lp cls : Nat) (d : Dyn) : Dyn := emit (.credit lp cls) d

/-- A shared request is a MemWr (Table 6.4). -/
def isWr (op : SOp) : Bool := op == .wrI || op == .wrS || op == .wrA

/-- An earlier shared request keeps a later one of its port unit from being sent: same line; a MemWr waits only behind its own host's, for it
may be the writeback that another host's request waits for (R237; assumption 148). -/
def sharedBars (q y : SReq) : Bool := q.key == y.key && (if isWr y.op then q.host == y.host else q.src == y.src)

/-- The shared requests kept: the first 256 of each port unit; further ones wait in ingress staging (R247). -/
def sharedKept : List (Nat × SReq) → List SReq → List (Nat × SReq)
  | [], _ => []
  | y :: t, seen =>
    let r := sharedKept t (y.2 :: seen)
    if decide (256 ≤ (seen.filter fun q => q.src == y.2.src).length) then r else y :: r

/-- Those of the requests kept that no earlier one bars (R237). -/
def sharedFirst : List (Nat × SReq) → List SReq → List (Nat × SReq)
  | [], _ => []
  | y :: t, seen =>
    let r := sharedFirst t (y.2 :: seen)
    if seen.any fun q => sharedBars q y.2 then r else y :: r

/-- The shared requests that the port units have open at home slices (R237, R247). -/
def sharedOpen (l : List (Nat × SReq)) : List (Nat × SReq) := sharedFirst (sharedKept l []) []

/-- A shared request waits at its port unit and is not open at its home slice (R237, R247). -/
def sharedWaits (d : Dyn) (id : Nat) : Bool :=
  (d.coh.shared.any fun y => y.2.id == id) && !((sharedOpen d.coh.shared).any fun y => y.2.id == id)

/-- A message of a port unit to a home slice of another package leaves by the exit die of the route there; the number of such a slice
holds that die, `homeNo` (R395). -/
def farMsg (n pu plane : Nat) (d : Dyn) : Dyn :=
  if n < 48 then d
  else
    let exit := (n / 48 - 1) / 8
    let src := cluRouter (pu / 2)
    let m := farTx d plane ((n / 48 - 1) % 8) (cluRouter (n % 48 / 2)) src (2 + n % 2)
    inject src plane (svcRouter (2 * exit)) ⟨0, 0, 64, 4 * pu, 192 + exit, none, none, 0, 0, 0, 0, false, .far m⟩ d

/-- The open snoop record at a port unit that a MemWr of a host to a line matches (R239). -/
def recOf (d : Dyn) (h key : Nat) : Option SnoopRec := d.coh.recs.find? fun r => r.host == h && r.key == key && r.wrote.isNone

/-- A shared request is sent to its home slice, which a slice fenced with its failed region refuses at the interface; of a MemWr only the header, and none where a snoop record takes it (R237, R239, R240, R352, R356). -/
def sharedSend (n : Nat) (q : SReq) (d : Dyn) : Dyn :=
  if n < 48 ∧ fenced d n then fenceRefuse (cluRouter (q.src / 2 % 24)) n d
  else if isWr q.op then
    if (recOf d q.host q.key).isSome || (flightOf d q.id).any fun f => decide (9 ≤ f.grant) then d
    else farMsg n q.src 0 (emit (.toSlice n 3 q.key [q.id]) d)
  else farMsg n q.src 0 (emit (.toHome n q) d)

/-- A shared request is kept: its credit returns to its link partner (R97, R247). -/
def sharedCredit (id : Nat) (d : Dyn) : Dyn :=
  match flightOf d id with
  | some f => doIf (decide (id < 2 ^ 79) && lpLinkUp d f.req.lport) (credit f.req.lport (clsOf f.req.kind)) d
  | none => d

/-- Change the shared requests at the port units: those newly kept return their credit, and those that may go now are sent to their home
slices with the time as token (R237, R243, R247). -/
def sharedPut (f : List (Nat × SReq) → List (Nat × SReq)) (d : Dyn) : Dyn :=
  let l := d.coh.shared
  let ids (l : List (Nat × SReq)) : List Nat := l.map fun y => y.2.id
  let go := (sharedOpen (f l)).filter fun y => !(ids (sharedOpen l)).contains y.2.id
  let kept := (sharedKept (f l) []).filter fun y => !(ids (sharedKept l [])).contains y.2.id
  let stamp (y : Nat × SReq) : Nat × SReq := (y.1, { y.2 with token := d.now % 4294967296 })
  let d := { d with coh := { d.coh with shared := mapIf (fun y => (ids go).contains y.2.id) stamp (f l) } }
  forAll (ids kept) sharedCredit (forAll go (fun y d => sharedSend y.1 (stamp y).2 d) d)

/-- A flight writes a writeback to memory (R239 to R241). -/
def isWb (f : Flight) : Bool := decide (9 ≤ f.grant)

/-- A shared request is answered: DONE to its home slice, WB_DONE for a writeback, and the port unit sends its next request to that line
(R236, R237, R241). -/
def tellDone (id : Nat) (d : Dyn) : Dyn :=
  match flightOf d id with
  | none => d
  | some f => match f.home with
    | none => d
    | some x =>
      let d := farMsg x.1 (lpPu f.req.lport) 1 (emit (.toSlice x.1 (if isWb f then 2 else 1) x.2 [id]) d)
      sharedPut (fun l => l.filter fun y => y.2.id != id) d

/-- The switch's own write of poison to a lost line, from 2^90 on; it has no requester (R251). -/
def isPoisonWrite (id : Nat) : Bool := decide (2 ^ 90 ≤ id)

/-- The credit of a request that ends without having been sent on has not returned to its link partner yet; that of a shared request
returned when its port unit kept it (R97, R247). -/
def creditOwed (d : Dyn) (id : Nat) : Bool :=
  match flightOf d id with
  | some f => f.devs.isEmpty && f.via.isNone && decide (id < 2 ^ 79) && lpLinkUp d f.req.lport
      && (f.home.isNone || (d.coh.shared.any fun y => y.2.id == id) && !((sharedKept d.coh.shared []).any fun y => y.2.id == id))
  | none => false

/-- A slot of a logical port is counted in one of the four classes and in TOTAL, where the fixed counters of its port unit
follow it (R502, R550): 0 DELIVERED, 1 WASTED, 2 STARVED_FRONT, 3 BLOCKED_BACK. -/
def slotCount (lp cls n : Nat) (d : Dyn) : Dyn :=
  let d := slotMod lp (fun a => a - n * slotDen) d
  let j := lp / 48 * 1024 + 16 * (lp / 4 % 12)
  if qualTakes (rd d .pmcSelQual j) (some (lp % 4)) then
    forAll [j + cls, j + 4] (fun k d => if rd d .pmcSelEn k = 1 then ctrAdd k n d else d) d
  else d

/-- An answer whose data is poisoned (R91). -/
def isPoison (k : RespKind) : Bool := k == .memDataPoison || k == .memDataPoisonS || k == .memDataPoisonE || k == .cplPoison

/-- A poisoned packet leaves by a port and is counted (R91). -/
def poisTally (lp : Nat) (p : Bool) (d : Dyn) : Dyn :=
  if p then { d with port := { d.port with poisCnt := aset 0 d.port.poisCnt lp (aget 0 d.port.poisCnt lp + 1) } } else d

/-- An S2M response of CXL.mem. -/
def isS2m (k : RespKind) : Bool :=
  match k with
  | .memData | .memDataS | .memDataE | .memDataPoison | .memDataPoisonS | .memDataPoisonE | .cmp | .cmpS | .cmpE => true
  | .cplPoison | .cpl | .ur | .ca | .goErr | .cacheFail | .biRspI => false

/-- The least DevLoad of a response that the switch makes toward a port: that of a red-marked host (R301). -/
def ownLoad (d : Dyn) (lp : Nat) (k : RespKind) : DevLoad :=
  if isS2m k then ((d.port.vcsPort.cells.find? fun c => c.2 == lp + 1).map fun c => redLevel d c.1).getD .light else .light

/-- Send an answer that the switch makes itself, in a slot of its own: WASTED when the switch poisoned its data, else DELIVERED (R91,
R502, Table 17.3). -/
def ownResp (id lp : Nat) (k : RespKind) (d : Dyn) : Dyn :=
  let d := slotCount lp (b2n (isPoison k)) 1 (poisTally lp (isPoison k) d)
  tallyPort lp 0x11 1 (emit (.resp id lp k (ownLoad d lp k)) d)

/-- The response toward the package that a request came by GnokuLink-P: message and packet, with the congestion bit, from a place of this
package; the exit die is that of the route there, or none (R124, R395, R396). -/
def farRsp (f : Flight) (via src : Nat) (k : RespKind) (d : Dyn) : Option Pkt :=
  let exit := via % 8
  let data := !(isS2m k) || k == .memData || k == .memDataS || k == .memDataE || isPoison k
  let plane := if data && decide (k ≠ .ur) then 3 else 1
  let m := { farTx d plane (via / 8 % 8) (via / 64) src (18 + f.req.id) with cg := f.cg }
  if 4 ≤ exit then none
  else some ⟨f.req.id, 1, if plane = 3 then 16 + f.req.len else 64, 0, 192 + exit, none, f.slice, 0, f.color, 0, 0, false, .far m⟩

/-- Answer a request at its ingress port and commit it; with no answer owed it only commits. A shared request's home slice
hears DONE (R236), and a credit still held returns (R97). -/
def answer (r : Req) (k : Option RespKind) (d : Dyn) : Dyn :=
  let d := tellDone r.id (doIf (creditOwed d r.id) (credit r.lport (clsOf r.kind)) d)
  commit r.id (if isPoisonWrite r.id then d else match k, (flightOf d r.id).bind Flight.via with
    | some k, some via =>
      let die := ((flightOf d r.id).map Flight.die).getD 0
      (match (flightOf d r.id).bind fun f => farRsp f via (svcRouter (2 * die)) k d with
      | some p => inject (svcRouter (2 * die)) (planeOf p) (svcRouter (2 * (p.dst - 192))) { p with src := 196 + die } d
      | none => d)
    | some k, none => ownResp r.id r.lport k d
    | none, _ => d)

/-- How a CXL.mem request is answered when its page cannot be reached: poison for a read, Cmp for a write (R143, R158,
R159); MemSpecRd draws no response (R233). -/
def memAnswer : ReqKind → Option RespKind
  | .memRd => some .memDataPoison
  | .memWr | .memInv | .memClnEvct => some .cmp
  | .ioRd | .ioWrNp | .ioAtomic => some .ur
  | .cacheRd | .cacheWr => some .goErr
  | _ => none

/-- Requests to an unmapped or quarantined page are counted in UNMAP_CNT, event 0x0309 at most once per second per LD (R143). -/
def unmapTell (die ld n : Nat) (d : Dyn) : Dyn :=
  let d := bump .xltUnmapCntCount die n d
  if n ≠ 0 ∧ aget 0 d.xlt.unmapAt ld ≤ d.now then
    raise 0x0309 die [ld] { d with xlt := { d.xlt with unmapAt := aset 0 d.xlt.unmapAt ld (d.now + 1000000000) } } else d

/-- Answer a request to an unmapped or quarantined page (R143). -/
def answerUnmapped (r : Req) (die ld : Nat) (d : Dyn) : Dyn := answer r (memAnswer r.kind) (unmapTell die ld 1 d)

/-! ## The translation cache (R144 to R146, R150) -/

/-- The set of a run of 2^k pages on a die (R144; the hash is Config.xltSet). -/
def xltSetOf (die ld page k : Nat) : Nat := die * 4096 + Config.xltSet (pgKey ld (page / 2 ^ k)) % 4096

/-- The cache entry of a page for one run size. -/
def xltProbe (d : Dyn) (die ld page k : Nat) : Option CEnt :=
  (aget [] d.xlt.cache (xltSetOf die ld page k)).find? fun c => c.ld == ld && c.k == k && c.page == page / 2 ^ k

/-- Probe the three run sizes (R144). -/
def xltLookup (d : Dyn) (die ld page : Nat) : Option CEnt :=
  match xltProbe d die ld page 0 with
  | some c => some c
  | none => match xltProbe d die ld page 4 with
    | some c => some c
    | none => xltProbe d die ld page 9

/-- Put an entry at the front of its set; the least recently used of 16 leaves (R145). -/
def xltInstall (die : Nat) (c : CEnt) (d : Dyn) : Dyn :=
  let k := xltSetOf die c.ld (c.page * 2 ^ c.k) c.k
  let l := (aget [] d.xlt.cache k).filter fun x => !(x.ld == c.ld && x.k == c.k && x.page == c.page)
  { d with xlt := { d.xlt with cache := aset [] d.xlt.cache k ((c :: l).take 16) } }

/-- The cache entry of a page's placement entry: the run's first page (R141, R144). -/
def cacheEnt (d : Dyn) (ld page : Nat) : CEnt :=
  let e := ptGet d ld page
  let k := runLog e.run
  ⟨ld, k, page / 2 ^ k, { e with bpage := e.bpage - page % 2 ^ k }, twGet d e.twin⟩

/-- Install the entry of a page, and with prefetch every entry of its 64 B line whose run is not cached (R146). -/
def xltFill (g : Cfg) (die ld page : Nat) (d : Dyn) : Dyn :=
  let d := xltInstall die (cacheEnt d ld page) d
  if cg g .xltCtlXltPrefetch 0 = 0 then d
  else
    let e0 := (ldFirst g ld + page) / 8 * 8
    forAll (List.range 8) (fun i d => match entryOwner g (e0 + i) with
      | some (l, p) => if (xltLookup d die l p).isSome then d else xltInstall die (cacheEnt d l p) d
      | none => d) d

/-- Remove every cache entry of a die that covers a page of a range (R150). -/
def xltInvalidate (die ld lo n : Nat) (d : Dyn) : Dyn :=
  let hit (c : CEnt) : Bool := c.ld == ld && decide (c.page * 2 ^ c.k < lo + n) && decide (lo < (c.page + 1) * 2 ^ c.k)
  let cells := d.xlt.cache.cells.filterMap fun x =>
    if x.1 / 4096 = die then
      let l := x.2.filter fun c => !hit c
      if l.isEmpty then none else some (x.1, l)
    else some x
  { d with xlt := { d.xlt with cache := ⟨cells⟩ } }

/-- The translation bank of the engine that a page's lookup goes to: die * 4 + the low two bits of the hash (R144). -/
def xltBank (die ld page : Nat) : Nat := die * 4 + Config.xltSet (pgKey ld page) % 4

/-! ## Hotness (R161) -/

/-- The set of the hotness table a page falls in. -/
def hotSet (die ld page : Nat) : Nat := die * 1024 + Config.xltSet (pgKey ld page) % 1024

/-- Replace the lowest count of a full set, the lowest way on a tie. -/
def hotReplace (h : Hot) (l : List Hot) : List Hot :=
  let low := l.foldl (fun m x => min m x.count) 65536
  let rec go : List Hot → List Hot
    | [] => []
    | x :: t => if x.count = low then h :: t else x :: go t
  go l

/-- One sample of a page (R161). -/
def hotSample (die ld page : Nat) (d : Dyn) : Dyn :=
  let k := hotSet die ld page
  let l := aget [] d.xlt.hot k
  let l' := if l.any fun h => h.ld == ld && h.page == page
    then mapIf (fun h => h.ld == ld && h.page == page) (fun h => { h with count := min (h.count + 1) 65535 }) l
    else if l.length < 8 then l ++ [⟨ld, page, 1⟩] else hotReplace ⟨ld, page, 1⟩ l
  { d with xlt := { d.xlt with hot := aset [] d.xlt.hot k l' } }

/-- Count a translated request; every 64th is sampled (R161; assumption 24). -/
def hotCount (die ld page : Nat) (d : Dyn) : Dyn :=
  let n := aget 0 d.xlt.sample die
  let d := { d with xlt := { d.xlt with sample := aset 0 d.xlt.sample die ((n + 1) % 64) } }
  if n + 1 = 64 then hotSample die ld page d else d

/-! ## From a translation to packets -/

/-- Class of a response to a request. -/
def rspCls : ReqKind → Nat
  | .memRd | .memSpecRd | .memWr | .memInv | .memClnEvct => 1
  | .cacheRd | .cacheWr => 2
  | .ioRd | .ioWr | .ioWrNp | .ioAtomic | .ioCfg => 3
  | .biSnp => 4

/-- Bytes of a request's packet: one slot for a CXL.mem or CXL.cache message; a 16 B header and the payload for a TLP
(assumption 25). -/
def reqBytes (k : ReqKind) (len : Nat) : Nat :=
  match k with
  | .ioWr | .ioWrNp | .ioAtomic => 16 + len
  | .ioRd | .ioCfg => 16
  | _ => 64

/-- Bytes of a port unit's 24 KiB staging that back the credits of a class: two of the largest TLPs for CXL.io, equal parts for the others
(R97; the split is a DESIGN CHOICE, assumption 141). -/
def stagShare (cls : Nat) : Nat := if cls = 3 then 9216 else 3072

/-- Bytes of a class that came from a port unit's link partners and still hold its credit: packets in staging, and requests that wait for
their translation (R97, R145). -/
def stagUsed (d : Dyn) (pu cls : Nat) : Nat :=
  let qs := ([0, 1, 2, 3].flatMap fun s => aget [] d.fwd.stag ((4 * pu + s) * 8 + cls)).filter Staged.orig
  let ids := qs.map fun x => x.pkt.flow
  let fs := d.flights.filter fun f => lpPu f.req.lport == pu && clsOf f.req.kind == cls && creditOwed d f.req.id && !ids.contains f.req.id
  (qs.map fun x => x.pkt.bytes).sum + (fs.map fun f => reqBytes f.req.kind f.req.len).sum

/-- The link partner holds credit for a packet of a class; without it the packet stays with the partner (R97). -/
def stagRoom (d : Dyn) (lp cls bytes : Nat) : Bool := decide (stagUsed d (lpPu lp) cls + bytes ≤ stagShare cls)

/-- Put a packet at the end of its port's staging (R97). -/
def stage (lp : Nat) (x : Staged) (d : Dyn) : Dyn :=
  let k := lp * 8 + x.pkt.cls
  { d with fwd := { d.fwd with stag := aset [] d.fwd.stag k (aget [] d.fwd.stag k ++ [x]) } }

/-- The packet of a flight toward a logical port, for the LD with an LD-ID of the device there (R63, R134). -/
def reqPkt (g : Cfg) (d : Dyn) (f : Flight) (dst ldId addr charge : Nat) (near : Bool) : Pkt :=
  ⟨f.req.id, clsOf f.req.kind, reqBytes f.req.kind f.req.len, f.req.lport, dst, if isPoisonWrite f.req.id then none else reqHost g d f.req, f.slice,
   weightOf (qCfg g d) d f.slice, 0, charge, lpRate d f.req.lport, near, .req f.req addr ldId⟩

/-- The package whose memory a shared request reads or writes: the home package of its line (`homeNo`); none for this one (R253). -/
def farPkg (f : Flight) : Option Nat :=
  match f.home with
  | some x => if x.1 < 48 then none else some ((x.1 / 48 - 1) % 8)
  | none => none

/-- The charge of a flight's request; a forbidden one never reaches here (R290, R291). -/
def flightCharge (f : Flight) : Nat := chargeOf f.req.kind f.req.len

/-- Route a translated request: unmapped, poisoned and lost pages are answered here; a read goes to DEV, a write to DEV
and the twin; each device owes an answer. The page of a line whose home is another package lies on that package's devices, and the
request goes there (assumption 149) (R134, R143, R152, R154, R158, R159). -/
def routeEnt (g : Cfg) (f : Flight) (ld page : Nat) (e : PtEnt) (tw : Option (Nat × Nat)) (d : Dyn) : Dyn :=
  let r := f.req
  if e.state = 0 ∨ e.state = 3 then answerUnmapped r f.die ld d
  else if e.poison then answer r (memAnswer r.kind) d
  else
    let off := r.addr % 2097152
    let far := farPkg f
    let ok (b : Nat) : Bool := far.isSome || devOk d b
    let twOk := match tw with
      | some t => ok t.1
      | none => false
    let t := tw.getD (0, 0)
    let d := hotCount f.die ld page d
    let wr := r.kind == .memWr
    let send (b bp charge : Nat) (orig : Bool) (d : Dyn) : Dyn :=
      let f := (flightOf d r.id).getD f
      let who := match far with
        | some p => 3000 + p
        | none => b
      let a := bp * 2097152 + off
      let d' := setFlight r.id (fun x => { x with devs := x.devs ++ [who], page := some (ld, page), addr := a }) d
      let p := match f.home, far with
        | some x, some _ => { reqPkt g d f 0 0 a charge false with
            dst := 192 + (x.1 / 48 - 1) / 8,
            body := .remote { r with addr := a }
              (farTx d (if wr then 2 else 0) ((x.1 / 48 - 1) % 8) (cluRouter (lpClu (rd d .xltBedevLport b))) (cluRouter (lpClu r.lport)) 4) }
        | _, _ => reqPkt g d f (rd d .xltBedevLport b) (rd d .xltBedevLdId b) a charge false
      stage r.lport ⟨p, none, orig && f.home.isNone⟩ d'
    if r.kind == .memSpecRd then answer r none d
    else if ok e.dev then
      let d := send e.dev e.bpage (flightCharge f) true d
      if wr && twOk then send t.1 t.2 0 false d else d
    else if twOk then send t.1 t.2 (flightCharge f) true d
    else answer r (memAnswer r.kind) d

/-- The outstanding misses of a die, at most 256 (R145). -/
def missActive (d : Dyn) (die : Nat) : List Miss := d.xlt.miss.filter fun m => m.die == die

/-- The device a placement read goes to: PRIM_DEV, or COPY_DEV for the second read (R139). -/
def ptReadDev (d : Dyn) (second : Bool) : Nat := if second then rd d .xltPtLocCopyDev 0 else rd d .xltPtLocPrimDev 0

/-- A page is held on a die by a migration's hold (R171). -/
def pageHeld (d : Dyn) (die ld page : Nat) : Bool := d.xlt.heldPg.contains (die, ld, page)

/-- Requests a die holds; the hold buffer shows at most 64, further ones wait in staging (R171). -/
def heldCount (d : Dyn) (die : Nat) : Nat := min 64 ((d.xlt.hold.filter fun x => x.1 == die).length)

/-- Translation on a die stands still: the clock of the region with its translation banks is stopped, or their service block sleeps (R38,
R39). -/
def xltHalted (d : Dyn) (die : Nat) : Bool := rtrStopped d (svcRouter (2 * die + 1)) || decide (2 ≤ domPwr d (domSvc (2 * die + 1)))

/-- One try at a request that waits for its translation on its ingress die; `blocked` when an earlier request of its port still waits,
behind which it may go no further. A page beyond the LD is answered; a held page takes it into the hold buffer of 64; a hit is routed; a
miss merges into the page's outstanding miss or starts one of the 256. Answers whether the request left the queue (R118, R134, R143 to
R145, R171). -/
def xltStep (g : Cfg) (f : Flight) (n : Nat) (blocked : Bool) (d : Dyn) : Bool × Dyn :=
  let page := f.req.addr / 2097152
  if ldPages g n ≤ page then (true, answerUnmapped f.req f.die n d)
  else if pageHeld d f.die n page then
    if blocked || decide (64 ≤ heldCount d f.die) then (false, d)
    else
      let d := { d with xlt := { d.xlt with hold := d.xlt.hold ++ [(f.die, f.req.id)] } }
      (true, peak .xltHoldStsPeak f.die (heldCount d f.die) d)
  else match xltLookup d f.die n page with
    | some c =>
      if blocked then (false, d)
      else
        let off := page % 2 ^ c.k
        let tw := if c.ptw.v then some (c.ptw.dev, c.ptw.bpage + off) else none
        (true, routeEnt g f n page { c.ent with bpage := c.ent.bpage + off } tw (xltInstall f.die c d))
    | none =>
      if (missActive d f.die).any (fun m => m.ld == n && m.page == page) || decide (256 ≤ (missActive d f.die).length) then (false, d)
      else
        let dev := ptReadDev d false
        (false, emit (.ptRead f.die dev n page) { d with xlt := { d.xlt with miss := d.xlt.miss ++ [⟨f.die, n, page, dev, false, 0⟩] } })

/-- A request leaves the queue of those that wait for their translation. -/
def xltLeave (id : Nat) (d : Dyn) : Dyn := { d with xlt := { d.xlt with xwait := d.xlt.xwait.filter fun x => x != id } }

/-- Try the waiting requests of a die in order; `stuck` holds the ports with an earlier one still waiting. A shared request comes from its
home slice and keeps no order with the others of its port (R118, R236). -/
def xltPass (g : Cfg) (die : Nat) : List Nat → List Nat → Dyn → Dyn
  | [], _, d => d
  | id :: t, stuck, d =>
    match flightOf d id with
    | none => xltPass g die t stuck (xltLeave id d)
    | some f =>
      match f.req.tgt with
      | .ld n =>
        if f.die ≠ die then xltPass g die t stuck d
        else
          let lp := f.req.lport.val
          let r := xltStep g f n (f.home.isNone && stuck.contains lp) d
          if r.1 then xltPass g die t stuck (xltLeave id r.2)
          else xltPass g die t (if f.home.isNone then lp :: stuck else stuck) r.2
      | _ => xltPass g die t stuck (xltLeave id d)

/-- Translation of a die goes on with the requests that wait, unless it stands still (R38, R39, R118, R145). -/
def xltDrain (g : Cfg) (die : Nat) (d : Dyn) : Dyn := if xltHalted d die then d else xltPass g die d.xlt.xwait [] d

/-- A managed request comes to translation on its ingress die behind those that wait; it counts as a hit or a miss once, on arrival; a
sleeping service block is woken (R118, R134, R144, R349, Table 17.1). -/
def xlate (g : Cfg) (id : Nat) (d : Dyn) : Dyn :=
  match flightOf d id with
  | none => d
  | some f =>
    match f.req.tgt with
    | .ld n =>
      let page := f.req.addr / 2097152
      let d := ungate (152 + xltBank f.die n page) d
      let d := if ldPages g n ≤ page || pageHeld d f.die n page then d
        else tallyDie f.die (if (xltLookup d f.die n page).isSome then 0x40 else 0x41) none 1 d
      let d := if 2 ≤ domPwr d (domSvc (2 * f.die + 1)) then emit (.wake (1000 + svcRouter (2 * f.die + 1))) d else d
      xltDrain g f.die { d with xlt := { d.xlt with xwait := d.xlt.xwait ++ [id] } }
    | _ => d

/-- A miss leaves its entry (R145). -/
def missDrop (m : Miss) (d : Dyn) : Dyn := { d with xlt := { d.xlt with miss := dropOne m d.xlt.miss } }

/-! ## Poisoned ranges (R160) -/

/-- The UUID of Table 4.5, in the order it is written. -/
def poisonUuid : List Nat := [0x5d, 0x7f, 0x0a, 0x3c, 0x21, 0xe4, 0x4b, 0x96, 0x9c, 0x18, 0x7a, 0x40, 0xe2, 0xd6, 0x1b, 0x55]

/-- A Poisoned Range record: the CXL common header of 48 bytes, with its length of 128, the severity of the Failure log, its handle and the
time (PRESUMED layout, assumption 145), and the 80 bytes of Table 4.6. -/
def poisonBytes (handle ts page n reason dev : Nat) : List Nat :=
  poisonUuid ++ [128, 2, 0, 0] ++ leBytes 2 handle ++ leBytes 2 0 ++ leBytes 8 ts ++ List.replicate 16 0
    ++ leBytes 8 (page * 2097152) ++ leBytes 4 n ++ [reason % 256, dev % 256] ++ List.replicate 66 0

/-- Place a Poisoned Range record in an LD's log and raise 0x0303; a full log takes no more and counts what is lost, as CXL's overflow
rules say (R160, Table 4.6). -/
def poisonRecord (ld page n reason dev : Nat) (d : Dyn) : Dyn :=
  let l := aget [] d.xlt.ldLog ld
  let ts := dieTs d (leadOr0 d)
  let d := { d with xlt := { d.xlt with why := forAll (List.range n) (fun i w => aset 0 w (pgKey ld (page + i)) reason) d.xlt.why } }
  let d := if l.length < Config.ldLogSlots then
      let h := aget 0 d.xlt.ldNext ld + 1
      { d with xlt := { d.xlt with ldLog := aset [] d.xlt.ldLog ld (l ++ [(h, poisonBytes h ts page n reason dev)])
                                   ldNext := aset 0 d.xlt.ldNext ld h } }
    else
      let o := aget (0, 0, 0) d.xlt.ldOver ld
      { d with xlt := { d.xlt with ldOver := aset (0, 0, 0) d.xlt.ldOver ld (min 65535 (o.1 + 1), if o.1 = 0 then ts else o.2.1, ts) } }
  raise 0x0303 (leadOr0 d) [ld, page, n, reason] d

/-! ## Placement writes and shootdowns (R139, R150) -/

/-- Write a range of entries to both copies; `remap` when a shootdown must follow, with `each` one for each run or single page; `k` what
follows then (R139, R150, R199). -/
def ptWriteEach (ld lo n : Nat) (f : Nat → PtEnt → PtEnt) (remap each : Bool) (k : Cont) (d : Dyn) : Dyn :=
  let d := forAll (List.range n) (fun i d => ptSet ld (lo + i) (f (lo + i) (ptGet d ld (lo + i))) d) d
  let x := freshId d
  let d := x.2
  emit (.ptWrite x.1 ld lo n) { d with xlt := { d.xlt with pws := d.xlt.pws ++ [⟨x.1, ld, lo, n, remap, each, k⟩] } }

/-- Write a range of entries to both copies, with one shootdown for the whole when it is a remap (R139, R150). -/
def ptWriteRange (ld lo n : Nat) (f : Nat → PtEnt → PtEnt) (remap : Bool) (k : Cont) (d : Dyn) : Dyn :=
  ptWriteEach ld lo n f remap false k d

/-- Who must answer a shootdown: the four dies of this package and the members now reachable (R150, R174). -/
def everyDie (d : Dyn) : Nat := 15 + (rd d .gklSysStsReach 0 - (if bitAt (rd d .gklSysStsReach 0) (rd d .dieDieIdPkgId 0)
  then 2 ^ rd d .dieDieIdPkgId 0 else 0)) * 16

/-- Send a shootdown to all dies with the LD, the pages and the new entry, in the group of the write it follows (R150, R199). -/
def shootStart (ld lo n grp : Nat) (k : Cont) (d : Dyn) : Dyn :=
  let x := freshId d
  let d := xchOpen x.1 x.2
  emit (.shootReq x.1 ld lo n (ptWord (ptGet d ld lo)))
    { d with xlt := { d.xlt with shoots := d.xlt.shoots ++ [⟨x.1, ld, lo, n, everyDie d, 0, 0, grp, k⟩] } }

/-- The runs and single pages of a range, first page and length, as its entries now say (R141, R199). -/
def runsIn (d : Dyn) (ld : Nat) : Nat → Nat → Nat → List (Nat × Nat)
  | 0, _, _ => []
  | fuel + 1, lo, n =>
    if n = 0 then []
    else
      let k := 2 ^ runLog (ptGet d ld lo).run
      let m := min n (k - lo % k)
      (lo, m) :: runsIn d ld fuel (lo + m) (n - m)

/-- The shootdowns that follow a remap: one for its range, or one for each run or single page (R150, R199). -/
def shootsFor (w : PWrite) (d : Dyn) : Dyn :=
  let l := if w.each then runsIn d w.ld w.n w.lo w.n else [(w.lo, w.n)]
  forAll l (fun x d => shootStart w.ld x.1 x.2 w.wid w.cont d) d

/-- A die receives a shootdown: its cache entries go, the result of its outstanding misses to the range will be discarded and they are read
again, it is noted that the shootdown has run there, and it answers (R150, R151). -/
def shootAt (die : Nat) (x : Shoot) (d : Dyn) : Dyn :=
  let d := xltInvalidate die x.ld x.lo x.n d
  let hit (m : Miss) : Bool := m.die == die && m.ld == x.ld && decide (x.lo ≤ m.page) && decide (m.page < x.lo + x.n)
  let again := (missActive d die).filter hit
  let dev := ptReadDev d false
  let d := { d with xlt := { d.xlt with
    miss := mapIf hit (fun m => { m with second := false, dev := dev, stale := m.stale + 1 }) d.xlt.miss
    shoots := mapIf (fun y => y.rid == x.rid) (fun y => { y with ran := bitSet y.ran die }) d.xlt.shoots } }
  let d := forAll again (fun m d => emit (.ptRead m.die dev m.ld m.page) d) d
  emit (.shootAns x.rid die) d

/-! ## The twin table (R547) -/

/-- Change a twin table entry; the free list of indices is journalled (R218, R547). -/
def twPut (i : Nat) (e : TwEnt) (d : Dyn) : Dyn := journalNote (twSet i e d)

end Machine
end Sys2Proof
end

