-- ==== Sys2Proof/Machine/Pool.lean ====
section
/-! DEFINITION. The block pool (spec/05): block states, taking and returning pages, zeroing, devices joining and leaving. -/

namespace Sys2Proof
namespace Machine

/-! ## Blocks (R182 to R187, Table 5.1) -/

/-- All 128 pages of a block. -/
def full128 : Nat := 2 ^ 128 - 1

/-- A block of a joined device that nothing has touched: every page still to zero (R186). -/
def blk0 : Blk := ⟨false, false, full128, 0⟩

/-- Key of a block. -/
def blkKey (dev k : Nat) : Nat := dev * 1048576 + k

/-- Block k of a device. -/
def blkGet (d : Dyn) (dev k : Nat) : Blk := aget blk0 d.alloc.blks (blkKey dev k)

/-- The bits of the page map for a block: 1 for a page free and zero (R185). -/
def mapBits (b : Blk) : Nat := full128 - (b.used ||| b.dirty)

/-- Write block k of a device; where its bits in the page map change, they are written to PRIM_DEV and, under the rule of R139, to COPY_DEV
(R185). -/
def blkSet (dev k : Nat) (b : Blk) (d : Dyn) : Dyn :=
  let old := blkGet d dev k
  let d := { d with alloc := { d.alloc with blks := aset blk0 d.alloc.blks (blkKey dev k) b } }
  if mapBits old = mapBits b ∨ rd d .xltPtLocReady 0 = 0 then d
  else
    let d := emit (.mapWr dev k (mapBits b) (rd d .xltPtLocPrimDev 0)) d
    if rd d .xltPtLocCopyV 0 = 1 then emit (.mapWr dev k (mapBits b) (rd d .xltPtLocCopyDev 0)) d else d

/-- Block states: 0 RESERVED, 1 ZEROING, 2 FREE, 3 PARTIAL, 4 FULL (Table 5.1). -/
def blkState (b : Blk) : Nat :=
  if b.resv then 0 else if b.used = full128 then 4 else if b.dirty ≠ 0 then 1 else if b.used = 0 then 2 else 3

/-- Blocks a device brings to the pool (R182, R183). -/
def nblk (d : Dyn) (dev : Nat) : Nat := aget 0 d.alloc.nblk dev

/-- The listed blocks of a device, rising. -/
def devBlks (d : Dyn) (dev : Nat) : List (Nat × Blk) :=
  d.alloc.blks.cells.filterMap fun c => if c.1 / 1048576 = dev ∧ c.1 % 1048576 < nblk d dev
    then some (c.1 % 1048576, c.2) else none

/-- FREE blocks of a device, lowest first. -/
def freeBlks (d : Dyn) (dev : Nat) : List Nat := ((devBlks d dev).filter fun x => blkState x.2 == 2 && !x.2.leave).map Prod.fst

/-- Pages of a block neither in use nor waiting for zeros; none of a block that is withdrawn (R140). -/
def freePgs (b : Blk) : Nat := if b.resv || b.leave then 0 else 128 - popCount b.dirty 128 - popCount b.used 128

/-- A device gives pages to grants and migrations: usable, joined, not draining. -/
def devGives (d : Dyn) (dev : Nat) : Bool :=
  devOk d dev && d.alloc.joined.contains dev && !d.alloc.drains.contains dev

/-- The devices of a tier that give pages, lowest first. -/
def tierDevs (d : Dyn) (t : Nat) : List Nat :=
  (List.range 128).filter fun b => devGives d b && rd d .xltBedevTier b == t

/-- Failure group of a device. -/
def fgOf (d : Dyn) (b : Nat) : Nat := rd d .xltBedevFgrp b

/-- FREE blocks of a tier. -/
def tierFree (d : Dyn) (t : Nat) : Nat := (tierDevs d t).foldl (fun n b => n + (freeBlks d b).length) 0

/-- Pages as a mask of their block. -/
def pgMask (page n : Nat) : Nat := (2 ^ n - 1) * 2 ^ (page % 128)

/-- Mark pages of a block in use; `page` is the backend page of the first. -/
def usePages (dev page n : Nat) (d : Dyn) : Dyn :=
  let b := blkGet d dev (page / 128)
  blkSet dev (page / 128) { b with used := b.used ||| pgMask page n } d

/-- Clear a mask's bits. -/
def maskOff (x m : Nat) : Nat := x - (x &&& m)

/-- Pages return unused and still zero, such as a destination never written. -/
def unusePages (dev page n : Nat) (d : Dyn) : Dyn :=
  let b := blkGet d dev (page / 128)
  let used := maskOff b.used (pgMask page n)
  blkSet dev (page / 128) { b with used := used, resv := b.resv || (b.leave && used == 0), leave := b.leave && used != 0 } d

/-- The die whose data mover works on a device (R165, R187). -/
def devDie (d : Dyn) (b : Nat) : Nat := lpDie (rd d .xltBedevLport b)

/-- The flow number of the zero writes of a page: a work item above every ring's, one for each device (R187). -/
def zeroFlow (dev page : Nat) : Nat := (2 ^ 20 + dev) * 2 ^ 64 + page

/-- The zero writes of pages leave the data mover of the device's die in class Q5; one packet stands for those of a page (R187;
assumption 146). -/
def zeroSend (dev page n : Nat) (d : Dyn) : Dyn :=
  let lp := rd d .xltBedevLport dev
  let die := devDie d dev
  forAll (List.range n) (fun i d =>
    let p : Pkt := ⟨zeroFlow dev (page + i), 5, 64, 192 + die, lp, none, none, 1, 0, 0, 0, false, .zero dev (page + i)⟩
    inject (svcRouter (2 * die + 1)) 2 (cluRouter (lpClu lp)) p d) (ungate (172 + die) d)

/-- A packet carries zero writes of a page of a range. -/
def isZero (dev page n : Nat) (p : Pkt) : Bool :=
  match p.body with
  | .zero b k => b == dev && decide (page ≤ k) && decide (k < page + n)
  | _ => false

/-- Zero writes of a range are still inside the switch. -/
def zeroInside (d : Dyn) (dev page n : Nat) : Bool :=
  (d.noc.net.any fun f => isZero dev page n f.pkt) || (d.noc.wait.any fun w => isZero dev page n w.pkt)
    || (d.fwd.eject.cells.any fun c => c.2.any (isZero dev page n))
    || (d.fwd.buf.cells.any fun c => c.2.any fun b => isZero dev page n b.pkt)

/-- Hand pages of one block to zeroing; pages of a device that is gone do not return, and those of a block withdrawn for the second copy
leave the pool (R140, R186, R204, R216). -/
def zeroPages (dev page n : Nat) (d : Dyn) : Dyn :=
  if devOk d dev && d.alloc.joined.contains dev then
    let b := blkGet d dev (page / 128)
    let used := maskOff b.used (pgMask page n)
    if b.leave then blkSet dev (page / 128) { b with used := used, resv := decide (used = 0), leave := decide (used ≠ 0) } d
    else zeroSend dev page n (blkSet dev (page / 128) { b with used := used, dirty := b.dirty ||| pgMask page n } d)
  else d

/-- Hand `n` pages from a page on to zeroing, block by block. -/
def zeroRange (dev page n : Nat) (d : Dyn) : Dyn :=
  if n ≤ 128 then zeroPages dev page n d
  else forAll (List.range (n / 128)) (fun i d => zeroPages dev (page + 128 * i) 128 d) d

/-- The shared region of a region of an LD (R209, R225). -/
def srOf (g : Cfg) (n r : Nat) : Option Nat :=
  if cg g .cohSrmapV (n * 8 + r) = 1 then some (cg g .cohSrmapSr (n * 8 + r)) else none

/-- The members of a shared region: LD and region. -/
def srMembers (g : Cfg) (sr : Nat) : List (Nat × Nat) :=
  (List.range 1024).filterMap fun i => if srOf g (i / 8) (i % 8) = some sr then some (i / 8, i % 8) else none

/-- A region stands for its placement at start: one that is not shared, and of a shared region's members the first (R209). -/
def placesFirst (g : Cfg) (i : Nat) : Bool :=
  cg g .allocRpolShared i == 0 || match srOf g (i / 8) (i % 8) with
    | some sr => (srMembers g sr).head? == some (i / 8, i % 8)
    | none => true

/-- Regions with an initial grant, in LD order and then region order; a shared region is placed from its first member LD's region policy
(R208, R209). -/
def initList (g : Cfg) : List (Nat × Nat) :=
  (List.range 1024).filterMap fun i =>
    if cg g .allocRpolDefined i = 1 ∧ 0 < cg g .allocRpolInitBlocks i ∧ placesFirst g i then some (i / 8, i % 8) else none

/-- The zeroing share of a data mover in percent: ZERO_RATE, above 100 as 100, and 100 until the initial grants are placed (R187, R208). -/
def zeroRate (g : Cfg) (d : Dyn) : Nat :=
  if (initList g).all fun x => d.alloc.inited.contains x then min 100 (cg g .allocCtlZeroRate 0) else 100

/-- Zeroing is busy on a die's data mover: pages of a device there wait for zeros (R187). -/
def zeroBusy (d : Dyn) (die : Nat) : Bool :=
  (d.alloc.joined.filter fun b => devDie d b == die).any fun b =>
    decide (aget 0 d.alloc.front b < nblk d b) || (devBlks d b).any fun x => !x.2.resv && x.2.dirty != 0

/-! ## Choosing devices and pages (R193, R195) -/

/-- The better of two devices: more FREE blocks, the lower number on a tie (R193). -/
def betterDev (d : Dyn) (best : Option Nat) (b : Nat) : Option Nat :=
  match best with
  | none => some b
  | some a => if (freeBlks d a).length < (freeBlks d b).length then some b else some a

/-- The device with the most FREE blocks of a list. -/
def mostFree (d : Dyn) (l : List Nat) : Option Nat := l.foldl (betterDev d) none

/-- Pick `n` devices of a list by R193; with `spread` from different failure groups while such remain, then from groups
already used. Answers the picked devices and whether a group was used twice though spread was asked. -/
def pickDevs (d : Dyn) (spread : Bool) : Nat → List Nat → List Nat → List Nat × Bool
  | 0, _, got => (got, false)
  | n + 1, cand, got =>
    let fresh := if spread then cand.filter fun b => !(got.any fun x => fgOf d x == fgOf d b) else cand
    match mostFree d fresh with
    | some b => pickDevs d spread n (cand.filter fun x => x != b) (got ++ [b])
    | none => match mostFree d cand with
      | some b => let r := pickDevs d spread n (cand.filter fun x => x != b) (got ++ [b]); (r.1, true)
      | none => (got, false)

/-- The lowest free page of a block that is not withdrawn. -/
def lowFreePg (b : Blk) : Option Nat := firstFrom (fun i => !bitAt b.used i && !bitAt b.dirty i) 0 128

/-- The lowest free page of the PARTIAL blocks of some devices, lowest block first (R195). -/
def partialPg (d : Dyn) (devs : List Nat) : Option (Nat × Nat) :=
  (d.alloc.blks.cells.find? fun c => devs.contains (c.1 / 1048576) && decide (c.1 % 1048576 < nblk d (c.1 / 1048576))
      && blkState c.2 == 3 && !c.2.leave && (lowFreePg c.2).isSome).map
    fun c => (c.1 / 1048576, c.1 % 1048576 * 128 + (lowFreePg c.2).getD 0)

/-- A page for a migration or a twin rebuild: from PARTIAL blocks first, from FREE blocks only when none remain (R195). -/
def singlePg (d : Dyn) (devs : List Nat) : Option (Nat × Nat) :=
  match partialPg d devs with
  | some x => some x
  | none => match mostFree d (devs.filter fun b => !(freeBlks d b).isEmpty) with
    | some b => ((freeBlks d b).head?).map fun k => (b, k * 128)
    | none => none

/-! ## Migration slots (R165, R167, Table 4.7) -/

/-- A slot's working state when it is FREE. -/
def mig0 : MigSt := ⟨0, 0, 0, 0, 0, 0, 0, 0, none, 0, 0, 0, 0, false, false, none⟩

/-- Slot s of a die as die * 16 + s. -/
def migGet (d : Dyn) (i : Nat) : MigSt := aget mig0 d.xlt.mig i
/-- Replace a slot's working state. -/
def migSet (i : Nat) (m : MigSt) (d : Dyn) : Dyn := { d with xlt := { d.xlt with mig := aset mig0 d.xlt.mig i m } }
/-- STATE of a slot (Table 4.7). -/
def migState (d : Dyn) (i : Nat) : Nat := rd d .xltMigStsState i
/-- LD of a slot's page. -/
def migLd (d : Dyn) (i : Nat) : Nat := rd d .xltMigStsLd i
/-- A slot's page. -/
def migPage (d : Dyn) (i : Nat) : Nat := rd d .xltMigPagePage i

/-- The slot that moves a page, if one does. -/
def slotOf (d : Dyn) (ld page : Nat) : Option Nat :=
  firstFrom (fun i => migState d i != 0 && migLd d i == ld && migPage d i == page) 0 64

/-- Some slot is not FREE: the service block of local region 1 of every die stays no deeper than IDLE (R167). -/
def anyMig (d : Dyn) : Bool := (List.range 64).any fun i => migState d i != 0

/-! ## Pool status (R191) -/

/-- The tier-0 free blocks are below T0_RESV (R191). -/
def isLow (g : Cfg) (d : Dyn) : Bool := decide (tierFree d 0 < cg g .allocT0ResvBlocks 0)

/-- Blocks became free: the pool may be at T0_RESV again (R191, Table 5.7). -/
def poolUp (g : Cfg) (d : Dyn) : Dyn :=
  if d.alloc.lowTold && !isLow g d then { d with alloc := { d.alloc with lowTold := false } } else d

/-- Blocks were taken: event 0x0409 when tier-0 free falls below T0_RESV; `lowTold` holds from reset until the pool first reaches it
(R191, Table 5.7). -/
def poolLow (g : Cfg) (d : Dyn) : Dyn :=
  if isLow g d && !d.alloc.lowTold then raise 0x0409 (leadOr0 d) [] { d with alloc := { d.alloc with lowTold := true } }
  else poolUp g d

/-- A device holds pages: of placement entries or twins, of grants that have not written them yet, or of migrations on their way there
(R136, R217). -/
def devInUse (d : Dyn) (dev : Nat) : Bool :=
  (d.xlt.pt.cells.any fun c => c.2.state != 0 && !c.2.poison && c.2.dev == dev)
    || (d.xlt.tw.cells.any fun c => c.2.v && c.2.dev == dev)
    || (((d.alloc.ctxs.cells.map Prod.snd).filter fun c => c.busy) ++ d.alloc.paused).any (fun c => c.runs.any fun p =>
        decide (c.base + c.done ≤ p.lo) && (p.dev == dev || (p.twin != 0 && p.tdev == dev)))
    || (d.hlth.assigns.any fun a => a.dstDev == dev)
    || (List.range 64).any fun i => rd d .xltMigStsState i != 0 && (aget mig0 d.xlt.mig i).dstDev == dev

/-! ## Devices joining and leaving (R183, R215, R216) -/

/-- Segments of 8,192 blocks now taken. -/
def segsTaken (d : Dyn) : Nat := d.alloc.nseg.cells.foldl (fun n c => n + c.2) 0

/-- A device joins with the blocks its segments hold; those left out raise 0x0408 (R183). Its blocks are zeroed first, in block order, once
READY is set (R187, R208, R215). -/
def devJoin (dev bytes : Nat) (d : Dyn) : Dyn :=
  let blocks := bytes / 268435456
  let want := (blocks + 8191) / 8192
  let got := min want (128 - segsTaken d)
  let n := min blocks (got * 8192)
  let d := { d with alloc := { d.alloc with nblk := aset 0 d.alloc.nblk dev n, nseg := aset 0 d.alloc.nseg dev got,
                                            joined := d.alloc.joined.filter (fun x => x != dev) ++ [dev] } }
  let d := if rd d .xltPtLocReady 0 = 1 ∧ 0 < n then zeroSend dev 0 128 d else d
  if n < blocks then raise 0x0408 (leadOr0 d) [dev, blocks - n] d else d

/-- A device leaves the pool: its blocks and segments go (R183, R216, R217). -/
def devLeave (dev : Nat) (d : Dyn) : Dyn :=
  { d with alloc := { d.alloc with nblk := aset 0 d.alloc.nblk dev 0, nseg := aset 0 d.alloc.nseg dev 0,
                                   joined := d.alloc.joined.filter fun x => x != dev,
                                   drains := d.alloc.drains.filter fun x => x != dev,
                                   blks := akeep (fun k _ => k / 1048576 != dev) d.alloc.blks } }

/-- A lost entry that no page names any more, with every write and shootdown that took its pages away complete, is freed, and its segments
return (R136, R151). -/
def freeLostDev (dev : Nat) (d : Dyn) : Dyn :=
  let waits (k : Cont) : Bool := match k with
    | .poison b _ => b == dev
    | _ => false
  if rd d .xltBedevLost dev = 1 ∧ !devInUse d dev ∧ !(d.xlt.pws.any fun w => waits w.cont) ∧ !(d.xlt.shoots.any fun x => waits x.cont) then
    devLeave dev (put .xltBedevV dev 0 (put .xltBedevLost dev 0 d))
  else d

/-- Failure groups differ from a device's and it is on a page's die. -/
def devPu (d : Dyn) (b : Nat) : Nat := lpPu (rd d .xltBedevLport b)

end Machine
end Sys2Proof
end

