-- ==== Sys2Proof/Machine/RingCore.lean ====
section
/-! DEFINITION. Work rings (spec/09): ring state, the structures in host memory, malformed entries, completion in ring order
and result records. -/

namespace Sys2Proof
namespace Machine

/-! ## Rings and result rings -/

/-- A ring at reset: OFF, LOG2SIZE 4 (RCFG). -/
def ring0 : Ring :=
  { state := 0, why := 0, err := 0, ridx := 0, rbase := 0, rcba := 0, irqMode := 0, vec := 0, log2 := 4, ver := 0, poll := 0
    tail := 0, head := 0, disp := 0, host := 0, die := 0, fetched := [], ents := [], stale := [], cbBusy := false
    cbAgain := false, taking := false, cbAt := 0, cbDirty := false, heldAt := none, heldTold := false, errPend := false
    pollAt := 0 }

/-- A result ring at reset. -/
def res0 : ResRing :=
  { on := false, host := 0, closing := false, rbase := 0, rcba := 0, irqMode := 0, vec := 0, log2 := 4, prod := 0, cons := 0, cbBusy := false
    taking := false, cbAt := 0, cbDirty := false, retryAt := 0 }

/-- Ring n of the package, n = 4s + k (R310). -/
def ringGet (d : Dyn) (n : Nat) : Ring := aget ring0 d.ring.rings n
/-- Replace ring n. -/
def ringSet (n : Nat) (r : Ring) (d : Dyn) : Dyn := { d with ring := { d.ring with rings := aset ring0 d.ring.rings n r } }
/-- The result ring of a slice. -/
def resGet (d : Dyn) (s : Nat) : ResRing := aget res0 d.ring.res s
/-- Replace the result ring of a slice. -/
def resSet (s : Nat) (r : ResRing) (d : Dyn) : Dyn := { d with ring := { d.ring with res := aset res0 d.ring.res s r } }

/-- Indices are 32-bit counts (R313). -/
def idxMod : Nat := 4294967296
/-- One index less another, modulo 2^32. -/
def idxSub (a b : Nat) : Nat := (a + idxMod - b % idxMod) % idxMod
/-- An index plus a number. -/
def idxAdd (a n : Nat) : Nat := (a + n) % idxMod
/-- Slots of a ring: LOG2SIZE held to 4 to 16 (R312, RCFG). -/
def ringSlots (log2 : Nat) : Nat := 2 ^ clamp 4 16 log2
/-- The expected mark of an index (R313). -/
def expMark (log2 i : Nat) : Nat := if i / ringSlots log2 % 2 = 0 then 1 else 0
/-- The host address of a slot. -/
def slotAddr (base log2 i : Nat) : Nat := base + i % ringSlots log2 * 64

/-- Entries dispatched and not complete (RSTS.INFLT). -/
def inflt (r : Ring) : Nat := (r.ents.filter fun e => !e.done).length

/-- Send toward a host, which the link must allow (R335). -/
def hostSend (g : Cfg) (h : Nat) (o : Out) (d : Dyn) : Dyn := if hostUp g d h then emit o d else d

/-- Write a structure of 32-bit words to a host's memory, little-endian (R2). -/
def hostPut (g : Cfg) (h addr : Nat) (ws : List Nat) (d : Dyn) : Dyn := hostSend g h (.hostWr h addr (wordBytes ws)) d

/-! ## Entry words (Tables 9.2 to 9.4) -/

/-- Word i of a structure. -/
def wAt (w : List Nat) (i : Nat) : Nat := (w[i]?).getD 0 % 4294967296
/-- ARGi. -/
def argAt (w : List Nat) (i : Nat) : Nat := wAt w (2 + 2 * i) + 4294967296 * wAt w (3 + 2 * i)
/-- OPCODE. -/
def opOf (w : List Nat) : Nat := bits (wAt w 0) 0 8
/-- FLAGS. -/
def flagsOf (w : List Nat) : Nat := bits (wAt w 0) 16 12
/-- SG. -/
def sgOf (w : List Nat) : Bool := bitAt (wAt w 0) 28
/-- PHASE. -/
def phaseOf (w : List Nat) : Nat := bits (wAt w 0) 31 1
/-- NSEG of an extension. -/
def nsegOf (x : List Nat) : Nat := bits (wAt x 0) 8 2
/-- SEG_ADDR_j of an extension. -/
def segAddr (x : List Nat) (j : Nat) : Nat := wAt x (4 + 4 * j) + 4294967296 * wAt x (5 + 4 * j)
/-- SEG_LEN_j of an extension. -/
def segLen (x : List Nat) (j : Nat) : Nat := wAt x (6 + 4 * j)
/-- The segments in use. -/
def segsOf (x : List Nat) : List (Nat × Nat) := (List.range (nsegOf x)).map fun j => (segAddr x j, segLen x j)

/-- LEN of a COPY, FILL or AMEND. -/
def lenOf (w : List Nat) : Nat := if opOf w = 10 then bits (argAt w 1) 0 32 else bits (argAt w 2) 0 32
/-- The source of a COPY: its pieces, and true when in host memory. -/
def srcOf (w x : List Nat) : List (Nat × Nat) × Bool :=
  (if sgOf w && bitAt (flagsOf w) 2 then segsOf x else [(argAt w 0, lenOf w)], bitAt (flagsOf w) 0)
/-- The destination of a COPY or FILL. -/
def dstOf (w x : List Nat) : List (Nat × Nat) × Bool :=
  (if sgOf w && !bitAt (flagsOf w) 2 then segsOf x else [(argAt w 1, lenOf w)], bitAt (flagsOf w) 1)

/-- The FLAGS bits an opcode uses (Table 9.4). -/
def flagMask (op : Nat) : Nat :=
  match op with
  | 3 => 7 | 4 => 2 | 5 => 3 | 7 => 1 | 8 => 15 | 9 => 1 | _ => 0

/-- The bits of ARG0 to ARG3 that an opcode uses (Table 9.4); ARG0 of a QUERY of KIND 0 is unused (R319). -/
def argMask (w : List Nat) (i : Nat) : Nat :=
  let all := 2 ^ 64 - 1
  match opOf w, i with
  | 1, 0 => 7 | 1, 1 => all
  | 2, 0 => all | 2, 1 => all
  | 3, 0 => all | 3, 1 => all | 3, 2 => 2 ^ 32 - 1
  | 4, 1 => all | 4, 2 => 2 ^ 32 - 1 | 4, 3 => all
  | 5, 0 => all | 5, 1 => 2 ^ 28 - 1
  | 6, 0 => all | 6, 1 => 1
  | 8, 0 => if flagsOf w = 0 then 0 else all
  | 9, 0 => 2 ^ 10 - 1 + (2 ^ 11 - 1) * 2 ^ 16 + 3 * 2 ^ 32 | 9, 1 => all
  | 10, 0 => all | 10, 1 => 2 ^ 32 - 1
  | _, _ => 0

/-- A reserved or unused bit is set, or a FLAGS field holds an undefined value (R319). -/
def rsvdSet (w : List Nat) : Bool :=
  bits (wAt w 0) 8 8 != 0 || (flagsOf w &&& flagMask (opOf w)) != flagsOf w
    || ([10, 11, 12, 13, 14, 15].any fun i => wAt w i != 0)
    || ([0, 1, 2, 3].any fun i => (argAt w i &&& argMask w i) != argAt w i)
    || (opOf w == 8 && decide (4 ≤ flagsOf w))

/-- Reserved fields of an extension that are not 0 (R318). -/
def extRsvd (x : List Nat) : Bool :=
  bits (wAt x 0) 10 21 != 0 || ([1, 2, 3, 7, 11, 15].any fun i => wAt x i != 0)

/-- A length is out of range (R319). -/
def badLen (w : List Nat) : Bool :=
  let n := lenOf w
  match opOf w with
  | 1 | 2 => argAt w 1 == 0
  | 5 => bits (argAt w 1) 0 28 == 0
  | 3 => n == 0 || ((!bitAt (flagsOf w) 0 || !bitAt (flagsOf w) 1) && n % 64 != 0)
  | 4 => n == 0 || n % 8 != 0 || (!bitAt (flagsOf w) 1 && n % 64 != 0)
  | 9 =>
    let first := bits (argAt w 0) 0 10
    let cnt := bits (argAt w 0) 16 11
    cnt == 0 || decide ((if flagsOf w = 0 then 8 else 1024) < first + cnt)
  | 10 => n == 0 || decide (1048576 < n)
  | _ => false

/-- An address is misaligned (R319). -/
def badAlign (w : List Nat) : Bool :=
  match opOf w with
  | 3 => (!bitAt (flagsOf w) 0 && argAt w 0 % 64 != 0) || (!bitAt (flagsOf w) 1 && argAt w 1 % 64 != 0)
  | 4 => argAt w 1 % 8 != 0 || (!bitAt (flagsOf w) 1 && argAt w 1 % 64 != 0)
  | 5 | 6 => argAt w 0 % 2097152 != 0
  | 9 => argAt w 1 % 16 != 0
  | _ => false

/-- An extension fails R318: NSEG, the ARG it replaces, segments after NSEG, the sum of the lengths, alignment, and the byte
0xFE of Table 9.3. -/
def badExt (w x : List Nat) : Bool :=
  let side := bitAt (flagsOf w) 2
  let ld := !bitAt (flagsOf w) (if side then 0 else 1)
  nsegOf x == 0 || bits (wAt x 0) 0 8 != 254
    || argAt w (if side then 0 else 1) != 0
    || ([0, 1, 2].any fun j => decide (nsegOf x ≤ j) && (segAddr x j != 0 || segLen x j != 0))
    || (segsOf x).foldl (fun n p => n + p.2) 0 != lenOf w
    || (ld && (segsOf x).any fun p => p.1 % 64 != 0 || p.2 % 64 != 0)

/-- The code of Table 9.6 for an entry, the lowest that applies; none when it is well formed (R317 to R319). -/
def malformed (ver : Nat) (w x : List Nat) : Option Nat :=
  let two := sgOf w && opOf w == 3 && ver == 1
  if 10 < opOf w then some 1
  else if sgOf w && !two then some 2
  else if rsvdSet w || (two && extRsvd x) then some 3
  else if badLen w then some 4
  else if badAlign w then some 5
  else if two && badExt w x then some 6
  else none

/-! ## Completion and result records (R329, R332, R333, Table 9.7) -/

/-- An entry writes a result record (R329). -/
def needsRecord (e : RingEnt) : Bool :=
  !e.mute && ([1, 2, 6, 8, 9, 10].contains (opOf e.w) || bitAt (wAt e.w 0) 30 || e.status != 0)

/-- The result ring has a free record (R332). -/
def resRoom (r : ResRing) : Bool := r.on && decide (idxSub r.prod r.cons < ringSlots r.log2)

/-- The 16 words of a result record (Table 9.7). -/
def recordWords (mark k err status op idx tag detail ts : Nat) (data : List Nat) : List Nat :=
  let w64 (x : Nat) : List Nat := [x % 4294967296, x / 4294967296 % 4294967296]
  [mark * 2 ^ 31 + k * 2 ^ 26 + err * 2 ^ 25 + status * 2 ^ 16 + op, idx, tag, detail] ++ w64 ts
    ++ w64 ((data[0]?).getD 0) ++ w64 ((data[1]?).getD 0) ++ w64 ((data[2]?).getD 0) ++ w64 ((data[3]?).getD 0) ++ [0, 0]

/-- Interrupt bits of IRQ_MODE: 0b01 entries with IRQ = 1, 0b10 every record written (RCFG). -/
def irqBit (mode k : Nat) : Bool := bitAt mode k

/-- Write one record to the result ring of a slice: PROD moves, and the modes of both rings that ask for it interrupt. -/
def putRecord (g : Cfg) (n : Nat) (err status op idx tag detail : Nat) (data : List Nat) (d : Dyn) : Dyn :=
  let s := n / 4
  let q := resGet d s
  let r := ringGet d n
  let words := recordWords (expMark q.log2 q.prod) (n % 4) err status op idx tag detail (dieTs d r.die) data
  let d := hostPut g r.host (slotAddr q.rbase q.log2 q.prod) words d
  let d := resSet s { q with prod := idxAdd q.prod 1, cbDirty := true } d
  let d := if irqBit r.irqMode 1 then hostSend g r.host (.irq r.host r.vec) d else d
  if irqBit q.irqMode 1 then hostSend g r.host (.irq r.host q.vec) d else d

/-- The word of a host address read by a chunk or entry belongs to a ring whose link to the host is up. -/
def ringLink (g : Cfg) (d : Dyn) (r : Ring) : Bool := hostUp g d r.host

/-- The head of a ring passes one complete entry, its record written first; a record without room holds the ring (R329,
R332); toward a host that cannot be reached records are discarded (R335). -/
def passOne (g : Cfg) (n : Nat) (d : Dyn) : Option Dyn :=
  let r := ringGet d n
  match r.ents with
  | [] => none
  | e :: t =>
    if !e.done then none
    else
      let up := ringLink g d r
      let rec1 := needsRecord e && up
      if rec1 && !resRoom (resGet d (n / 4)) then
        match r.heldAt with
        | some _ => none
        | none => some (ringSet n { r with heldAt := some d.now, heldTold := false, cbDirty := r.cbDirty } d)
      else
        let d := if rec1 then putRecord g n 0 e.status (opOf e.w) e.idx (wAt e.w 1) e.detail e.data d else d
        let d := ringSet n { r with ents := t, head := idxAdd r.head e.slots, heldAt := none, heldTold := false,
                                    cbDirty := true } d
        some (if bitAt (wAt e.w 0) 29 && irqBit r.irqMode 0 && !e.mute then hostSend g r.host (.irq r.host r.vec) d else d)

/-- Pass every entry that may be passed. -/
def passAll (g : Cfg) (n : Nat) : Nat → Dyn → Dyn
  | 0, d => d
  | k + 1, d =>
    match passOne g n d with
    | some d' => passAll g n k d'
    | none => d

/-- A result ring told to close turns OFF once the slice's work rings are OFF (R310, R335). -/
def resClose (s : Nat) (d : Dyn) : Dyn :=
  let q := resGet d s
  if q.closing && [0, 1, 2, 3].all fun k => (ringGet d (4 * s + k)).state == 0 then
    resSet s { q with on := false, closing := false, cbBusy := false, taking := false, cbDirty := true } d
  else d

/-- The result ring of a slice is to close with the slice's rings (R310, R335). -/
def resEnd (s : Nat) (d : Dyn) : Dyn :=
  if (resGet d s).on then resClose s (resSet s { resGet d s with closing := true } d) else d

/-- A ring whose head moved: the error record once the entries before the error are complete, and OFF at the end of HALTING
(R333, Table 9.11). -/
def ringSettle (g : Cfg) (n : Nat) (d : Dyn) : Dyn :=
  let d := passAll g n ((ringGet d n).ents.length + 2) d
  let r := ringGet d n
  if r.ents.isEmpty && r.errPend && r.state == 2 then
    let d := if resRoom (resGet d (n / 4)) && ringLink g d r
      then putRecord g n 1 32 (opOf (match r.fetched with
        | f :: _ => f.w.getD []
        | [] => [])) r.ridx 0 r.err [] d else d
    ringSet n { ringGet d n with errPend := false } d
  else if r.ents.isEmpty && r.state == 3 then
    resClose (n / 4) (ringSet n { r with state := 0, fetched := [], stale := [], heldAt := none, cbDirty := true } d)
  else d

/-- Every ring of a slice, when its result ring has room again. -/
def sliceSettle (g : Cfg) (s : Nat) (d : Dyn) : Dyn := forAll [0, 1, 2, 3] (fun k d => ringSettle g (4 * s + k) d) d

/-- Stop a ring in ERROR at an index with a code: latched, event 0x0601, interrupt, head held at that index (R333). -/
def ringError (g : Cfg) (n idx code : Nat) (d : Dyn) : Dyn :=
  let r := ringGet d n
  let d := ringSet n { r with state := 2, err := code, ridx := idx, errPend := true, cbDirty := true } d
  let d := slcAdd (some (n / 4)) 5 1 (raise 0x0601 r.die [n / 4, n % 4, idx, code] d)
  ringSettle g n (hostSend g r.host (.irq r.host r.vec) d)

/-- The dispatched entry of an index. -/
def entOf (d : Dyn) (n idx : Nat) : Option RingEnt := (ringGet d n).ents.find? fun e => e.idx == idx

/-- Change the dispatched entry of an index. -/
def setEnt (n idx : Nat) (f : RingEnt → RingEnt) (d : Dyn) : Dyn :=
  let r := ringGet d n
  ringSet n { r with ents := mapIf (fun e => e.idx == idx) f r.ents } d

/-- An entry that its opcode command may run: dispatched, not started, of that opcode, on a die whose ring engine is not stopped (R38). -/
def entReady (d : Dyn) (n idx op : Nat) : Option RingEnt :=
  match entOf d n idx with
  | some e => if !e.started && !e.done && opOf e.w == op && !xltHalted d (ringGet d n).die then some e else none
  | none => none

/-- An entry completes with its status and data (R329); MOVER_ERR and AMEND_ENTRY events (Table 9.13). -/
def entDone (g : Cfg) (n idx status detail : Nat) (data : List Nat) (d : Dyn) : Dyn :=
  match entOf d n idx with
  | none => d
  | some e =>
    if e.done then d
    else
      let r := ringGet d n
      let d := setEnt n idx (fun e => { e with started := true, done := true, status := status, detail := detail,
                                               data := data, job := none }) d
      let op := opOf e.w
      let d := if (op == 3 || op == 4) && (status == 0x14 || status == 0x13)
        then raise 0x0603 r.die [n / 4, n % 4, idx, status] d else d
      let d := if op == 10 then raise 0x0605 r.die [n / 4, n % 4, idx, status] d else d
      let d := slcAdd (some (n / 4)) 4 1 (tallyDie r.die 0x45 none 1 d)
      ringSettle g n d

/-- Halt a ring (Table 9.11): nothing new is dispatched; event 0x0604 with HALT_WHY 1 or 2. -/
def ringHalt (g : Cfg) (n why : Nat) (d : Dyn) : Dyn :=
  let r := ringGet d n
  if r.state = 0 ∨ (r.state = 3 ∧ why = 0) then d
  else
    let d := ringSet n { r with state := 3, why := why, err := 0, errPend := false, fetched := [], stale := [],
                                cbDirty := true } d
    let d := if why ≠ 0 then raise 0x0604 r.die [n / 4, n % 4, why] d else d
    ringSettle g n d

/-- The rings that are listed. -/
def ringsListed (d : Dyn) : List Nat := d.ring.rings.cells.map Prod.fst

/-- Every ring of a host halts when its upstream link is lost, and its result rings close with them (R89, R335, Table 9.11). -/
def ringsLinkLost (g : Cfg) (h : Nat) (d : Dyn) : Dyn :=
  let d := forAll (ringsListed d) (fun n d => if (ringGet d n).host == h then ringHalt g n 2 d else d) d
  forAll (d.ring.res.cells.map Prod.fst) (fun s d => if (resGet d s).host == h then resEnd s d else d) d

/-- The rings and the result ring of a slice halt when the slice becomes invalid or changes hands (R310). -/
def ringsSlice (g : Cfg) (s : Nat) (d : Dyn) : Dyn :=
  resEnd s (forAll [0, 1, 2, 3] (fun k d => ringHalt g (4 * s + k) 1 d) d)

/-! ## Serving a ring -/

/-- A host's page of a slice: true when the host owns the slice; else the page is inert, and a write to it counts in the
host's gate violations (R73). -/
def pageWrite (g : Cfg) (h s : Nat) (f : Dyn → Dyn) (d : Dyn) : Dyn :=
  if owns (qCfg g d) d h s then f d else bump .gateHviolCount h 1 d

/-- Read a ring's control block, or remember that one more read is wanted (R330). -/
def readRcb (g : Cfg) (n : Nat) (d : Dyn) : Dyn :=
  let r := ringGet d n
  if r.cbBusy then ringSet n { r with cbAgain := true } d
  else hostSend g r.host (.hostRd r.host r.rcba 64) (ringSet n { r with cbBusy := true } d)

/-- Read a result ring's control block. -/
def readRes (g : Cfg) (h s : Nat) (d : Dyn) : Dyn :=
  let q := resGet d s
  hostSend g h (.hostRd h q.rcba 64) (resSet s { q with cbBusy := true, retryAt := d.now } d)

/-- A ring's slot at an index is wanted: not yet dispatched or kept, and inside HEAD + size - 1 (R330). -/
def slotWanted (r : Ring) (i : Nat) : Bool :=
  decide (idxSub i r.head < ringSlots r.log2) && decide (idxSub r.disp r.head ≤ idxSub i r.head)
    && !(r.fetched.any fun f => f.idx == i)

/-- Read the slots from the next undispatched index to TAIL and up to 8 beyond it, that index itself when it lies beyond TAIL, never
past HEAD + size - 1 (R330). -/
def readSlots (g : Cfg) (n : Nat) (d : Dyn) : Dyn :=
  let r := ringGet d n
  let ahead := idxSub r.tail r.disp
  let past := idxSub r.disp r.tail
  let upto := if ahead ≤ ringSlots r.log2 then ahead + 8 else max 1 (8 - past)
  let want := min upto (ringSlots r.log2 - idxSub r.disp r.head)
  forAll ((List.range want).filter fun i => slotWanted r (idxAdd r.disp i))
    (fun i d => hostSend g r.host (.hostRd r.host (slotAddr r.rbase r.log2 (idxAdd r.disp i)) 64) d) d

end Machine
end Sys2Proof
end

