-- ==== Sys2Proof/Machine/Mover.lean ====
section
/-! DEFINITION. The data movers (spec/04, spec/09): migration windows and copy passes, and the chunks of COPY and FILL. -/

namespace Sys2Proof
namespace Machine

/-! ## Copy packets (R169, R337) -/

/-- The flow number of a copy write: the mover's work item and its chunk. Items below 16 are migration slots; 16 + n is
ring n. -/
def copyFlow (slot blk : Nat) : Nat := slot * 2 ^ 64 + blk

/-- The 64 B class-Q5 writes of a piece toward a backend device, poisoned where their source is known to be, leave the data mover of a
die in ascending order (R169, R323, R337). -/
def copyOut (die slot blk dev addr len : Nat) (poison : Bool) (d : Dyn) : Dyn :=
  let lp := rd d .xltBedevLport dev
  let r := svcRouter (2 * die + 1)
  let p (k : Nat) : Pkt :=
    ⟨copyFlow slot blk, 5, 64, 192 + die, lp, none, none, 1, 0, 0, 0, false, .copy die slot blk dev (addr / 64 + k) poison⟩
  forAll (List.range ((len + 63) / 64)) (fun k d => inject r 2 (cluRouter (lpClu lp)) (p k) d) d

/-- A packet is a write of a chunk. -/
def isCopy (die slot blk : Nat) (p : Pkt) : Bool :=
  match p.body with
  | .copy a b c _ _ _ => a == die && b == slot && c == blk
  | _ => false

/-- Writes of a chunk still inside the switch. -/
def copyInside (d : Dyn) (die slot blk : Nat) : Bool :=
  (d.noc.net.any fun f => isCopy die slot blk f.pkt) || (d.noc.wait.any fun w => isCopy die slot blk w.pkt)
    || (d.fwd.eject.cells.any fun c => c.2.any (isCopy die slot blk))
    || (d.fwd.buf.cells.any fun c => c.2.any fun b => isCopy die slot blk b.pkt)

/-! ## Migration slots (R165 to R170, Table 4.7) -/

/-- A write's completion from a source device passes its port unit: its blocks are marked in every window on that page
(R165). -/
def markWindow (dev bpage off len : Nat) (d : Dyn) : Dyn :=
  let lo := off / 4096
  let hi := (off + len - 1) / 4096
  forAll ((List.range 64).filter fun i => migState d i != 0 && (migGet d i).srcDev == dev && (migGet d i).srcPage == bpage)
    (fun i d => let m := migGet d i
                migSet i { m with window := m.window ||| ((2 ^ (hi - lo + 1) - 1) * 2 ^ lo) } d) d

/-- HOLD_MAX in force: 0 acts as 1, above 64 as 64. -/
def holdMax (g : Cfg) : Nat := clamp 1 64 (cg g .xltMigCtlHoldMax 0)
/-- MAX_PASS in force: 0 acts as 7. -/
def maxPass (g : Cfg) : Nat := let n := cg g .xltMigCtlMaxPass 0; if n = 0 then 7 else n
/-- MIG_RATE in force: above 100 acts as 100. -/
def migRate (g : Cfg) : Nat := min 100 (cg g .xltCtlMigRate 0)

/-- The lowest block of a mask. -/
def lowBlk (m : Nat) : Option Nat := firstFrom (fun k => bitAt m k) 0 512

/-- Ring work of a die waits on its data mover: a COPY or FILL has begun and not ended (R336). -/
def ringWaits (d : Dyn) (die : Nat) : Bool :=
  d.ring.rings.cells.any fun c => c.2.die == die && c.2.ents.any fun e => e.job.isSome

/-- The bandwidth of a die's data mover that migration may use, in hundredths of a GB/s of its 256 GB/s: MIG_RATE percent; while zeroing is
busy no more than zeroing leaves; and while ring work waits, less what MOV_MIN lacks of the rest (R168, R187, R336). -/
def migShare (g : Cfg) (d : Dyn) (die : Nat) : Nat :=
  let zer := if zeroBusy d die then 256 * zeroRate g d else 0
  let mig := min (256 * migRate g) (25600 - zer)
  if ringWaits d die then mig - (100 * cg g .ringCtlMovMin die - (25600 - zer - mig)) else mig

/-- A migration has bandwidth: twin rebuilds and drains by the floor, others while the share of migration is above 0 (R168, R187). -/
def migFed (g : Cfg) (d : Dyn) (i : Nat) : Bool :=
  rd d .xltMigStsRebuild i == 1 || (migGet d i).drain || decide (0 < migShare g d (i / 16))

/-- Issue the next chunk of a slot's pass in ascending block order, felled chunks at the end of the pass (R169): the mover
reads 4 KiB of the source and sends 64 writes. -/
def migIssue (g : Cfg) (i : Nat) (d : Dyn) : Dyn :=
  let m := migGet d i
  if m.busy.isSome || !migFed g d i then d
  else
    let m := if m.todo = 0 then { m with todo := m.again, again := 0 } else m
    match lowBlk m.todo with
    | none => migSet i m d
    | some b =>
      let d := migSet i { m with todo := bitClr m.todo b, busy := some b } d
      let d := tallyDie (i / 16) 0x43 none 1 (ungate (172 + i / 16) d)
      let d := emit (.copyRd m.srcDev (m.srcPage * 2097152 + b * 4096) 4096 (copyFlow i b)) d
      copyOut (i / 16) (i % 16) b m.dstDev (m.dstPage * 2097152 + b * 4096) 4096 false d

/-! ## Chunks of COPY and FILL (R321 to R323, R336, R337) -/

/-- The number of the flight that stands for a running entry (R322), below which its chunk's flights count up. -/
def jobId (n idx : Nat) : Nat := 2 ^ 80 + (n * 4294967296 + idx) * 16

/-- The part of a list of pieces that covers an offset range. -/
def subPieces : List (Nat × Nat) → Nat → Nat → List (Nat × Nat)
  | [], _, _ => []
  | (a, l) :: t, lo, n =>
    if n = 0 then []
    else if l ≤ lo then subPieces t (lo - l) n
    else
      let k := min n (l - lo)
      (a + lo, k) :: subPieces t 0 (n - k)

/-- A piece cut at 2 MiB pages. -/
def cutPages : Nat → Nat → Nat → List (Nat × Nat)
  | 0, _, _ => []
  | k + 1, a, n =>
    let room := 2097152 - a % 2097152
    if n = 0 then [] else if n ≤ room then [(a, n)] else (a, room) :: cutPages k (a + room) (n - room)

/-- Pieces cut at pages. -/
def pagePieces (l : List (Nat × Nat)) : List (Nat × Nat) := l.flatMap fun p => cutPages 3 p.1 p.2

/-- A request of the data mover on behalf of a host's upstream port (R321). -/
def jobReq (g : Cfg) (d : Dyn) (h id : Nat) (k : ReqKind) (addr len : Nat) : Req :=
  ⟨id, ⟨((hostPort g d h).getD 0) % 192, Nat.mod_lt _ (by decide)⟩, k, .ld ⟨h % 128, Nat.mod_lt _ (by decide)⟩, addr, len,
   none, .i, false, none, false⟩

/-- A page takes no access: UNMAPPED or QUARANTINED, or outside the LD (R143). -/
def pageGone (g : Cfg) (d : Dyn) (ld page : Nat) : Bool :=
  let e := ptGet d ld page
  e.state == 0 || e.state == 3 || decide (ldPages g ld ≤ page)

/-- Channels on ring work of a die (R336). -/
def chRing (d : Dyn) (die : Nat) : Nat :=
  d.ring.rings.cells.foldl (fun n c => if c.2.die = die then
    c.2.ents.foldl (fun n e => match e.job with
      | some j => n + j.ch
      | none => n) n else n) 0

/-- The flight of one page that a chunk reads or writes, which the die's watch counts (R166, R322). -/
def chunkFlight (g : Cfg) (h die gen id : Nat) (k : ReqKind) (p : Nat × Nat) (d : Dyn) : Dyn :=
  let e := ptGet d h (p.1 / 2097152)
  let f : Flight := ⟨jobReq g d h id k p.1 p.2, die, gen, none, 0, some (h, p.1 / 2097152), [e.dev], false, .light, none, 0, 0, none, false⟩
  { d with flights := d.flights ++ [f] }

/-- Issue the chunk a job has come to; it waits while a page of it is held by a migration (R171, R337). Each 64 B request to an
unmapped page is answered under R143 and noted (R322); poisoned sources carry on (R323). -/
def chunkIssue (g : Cfg) (n idx : Nat) (d : Dyn) : Dyn :=
  match entOf d n idx with
  | none => d
  | some e => match e.job with
    | none => d
    | some j =>
      let r := ringGet d n
      let h := r.host
      let lo := j.next * 4096
      let len := min 4096 (lenOf e.w - lo)
      let fill := opOf e.w == 4
      let s := srcOf e.w e.ext
      let t := dstOf e.w e.ext
      let src := if fill then [] else pagePieces (subPieces s.1 lo len)
      let dst := pagePieces (subPieces t.1 lo len)
      let ldSrc := if s.2 then [] else src
      let ldDst := if t.2 then [] else dst
      if j.ch = 0 || j.flying then d
      else if (ldSrc ++ ldDst).any fun p => pageHeld d r.die h (p.1 / 2097152) then
        setEnt n idx (fun e => { e with job := some { j with stalled := true } }) d
      else
        let gone (p : Nat × Nat) : Bool := pageGone g d h (p.1 / 2097152)
        let pois (p : Nat × Nat) : Bool := (ptGet d h (p.1 / 2097152)).poison
        let lost := ((ldSrc ++ ldDst).filter gone).foldl (fun n p => n + (p.2 + 63) / 64) 0
        let d := unmapTell r.die h lost (ungate (172 + r.die) d)
        let okDst := ldDst.filter fun p => !gone p && !pois p
        let okSrc := ldSrc.filter fun p => !gone p && !pois p
        let wrote := if t.2 then len else okDst.foldl (fun n p => n + p.2) 0
        let j' := { j with flying := true, stalled := false, redo := false, unm := j.unm || decide (0 < lost),
                           nowPois := ldSrc.any fun p => gone p || pois p, nowLen := wrote }
        let d := setEnt n idx (fun e => { e with job := some j' }) d
        let d := forAll (okSrc.zipIdx) (fun p d =>
          let e := ptGet d h (p.1.1 / 2097152)
          emit (.copyRd e.dev (e.bpage * 2097152 + p.1.1 % 2097152) p.1.2 (copyFlow (16 + n) (idx * 2 ^ 24 + j.next)))
            (chunkFlight g h r.die j.gen (jobId n idx + 1 + p.2) .memRd p.1 d)) d
        let d := if s.2 && !fill then forAll src (fun p d => hostSend g h (.hostRd h p.1 p.2) d) d else d
        if t.2 then d
        else forAll (okDst.zipIdx) (fun p d =>
          let e := ptGet d h (p.1.1 / 2097152)
          let d := chunkFlight g h r.die j.gen (jobId n idx + 8 + p.2) .memWr p.1 d
          let d := copyOut r.die (16 + n) (idx * 2 ^ 24 + j.next) e.dev (e.bpage * 2097152 + p.1.1 % 2097152) p.1.2 j'.nowPois d
          match twinOf d e (p.1.1 / 2097152) with
          | some tw => copyOut r.die (16 + n) (idx * 2 ^ 24 + j.next) tw.1 (tw.2 * 2097152 + p.1.1 % 2097152) p.1.2 j'.nowPois d
          | none => d) d

/-- Slots of a die that waited for bandwidth issue their next chunk (R168, R187). -/
def migKick (g : Cfg) (die : Nat) (d : Dyn) : Dyn :=
  forAll (List.range 16) (fun s d =>
    let i := die * 16 + s
    let m := migGet d i
    if (migState d i = 2 ∨ migState d i = 3) ∧ (m.todo ≠ 0 ∨ m.again ≠ 0) then migIssue g i d else d) d

/-- Give waiting jobs of a die the channels that are free: one for up to 64 KiB, up to 4 beyond, 32 in all (R336). -/
def jobsStart (g : Cfg) (die : Nat) (d : Dyn) : Dyn :=
  forAll (ringsListed d) (fun n d => if (ringGet d n).die == die then
    forAll (ringGet d n).ents (fun e d => match e.job with
      | some j =>
        let room := 32 - chRing d die
        if j.ch = 0 ∧ 0 < room then
          chunkIssue g n e.idx (setEnt n e.idx
            (fun e => { e with job := some { j with ch := min room (if lenOf e.w ≤ 65536 then 1 else 4) } }) d)
        else d
      | none => d) d
    else d) d

/-- Jobs of a die that waited for a held page try again (R171). -/
def jobsResume (g : Cfg) (die : Nat) (d : Dyn) : Dyn :=
  forAll (ringsListed d) (fun n d => if (ringGet d n).die == die then
    forAll (ringGet d n).ents (fun e d => match e.job with
      | some j => if j.stalled then chunkIssue g n e.idx d else d
      | none => d) d
    else d) d

/-- A job ends: its flight commits, its channels go to waiting jobs and the entry completes with DATA0 the bytes written
(R322, R323). -/
def jobEnd (g : Cfg) (n idx status wrote : Nat) (d : Dyn) : Dyn :=
  let die := (ringGet d n).die
  let d := commit (jobId n idx) d
  jobsStart g die (entDone g n idx status 0 [wrote] d)

/-- The status of a job whose last chunk is done: UNMAPPED before POISON_SEEN (R322, R323). -/
def jobStatus (j : Job) : Nat := if j.unm then 0x11 else if j.pois then 0x13 else 0

/-- The part of a chunk that goes to host memory leaves, poisoned where its source was (R323, R337). -/
def chunkHost (g : Cfg) (n : Nat) (e : RingEnt) (j : Job) (poison : Bool) (d : Dyn) : Dyn :=
  let t := dstOf e.w e.ext
  let h := (ringGet d n).host
  if t.2 then forAll (subPieces t.1 (j.next * 4096) j.nowLen) (fun p d => hostSend g h (.hostData h p.1 p.2 (poison || j.nowPois)) d) d
  else d

/-- A chunk's writes complete: windows of migrating pages are marked, the watches fall, and the next chunk, the same chunk
again after a felling, or the end follows; a failed host read stops the copy with the prefix written (R165, R166, R323,
R337). -/
def chunkDone (g : Cfg) (n idx : Nat) (poison err : Bool) (d : Dyn) : Dyn :=
  match entOf d n idx with
  | none => d
  | some e => match e.job with
    | none => d
    | some j =>
      if !j.flying || copyInside d (ringGet d n).die (16 + n) (idx * 2 ^ 24 + j.next) then d
      else
        let mine (f : Flight) : Bool := decide (jobId n idx < f.req.id) && decide (f.req.id < jobId n idx + 16)
        let wr := d.flights.filter fun f => mine f && f.req.kind == .memWr
        let d := forAll wr (fun f d => match f.page with
          | some (ld, pg) => let e := ptGet d ld pg
                             markWindow e.dev e.bpage (f.req.addr % 2097152) f.req.len d
          | none => d) d
        let pgs := (d.flights.filter mine).map Flight.page
        let d := { d with flights := d.flights.filter fun f => !mine f }
        let d := forAll pgs.dedup (fun p d => holdTell (ringGet d n).die p d) d
        if err then jobEnd g n idx 0x14 j.wrote d
        else if j.redo then
          chunkIssue g n idx (setEnt n idx (fun e => { e with job := some { j with flying := false, redo := false } }) d)
        else
          let d := chunkHost g n e j poison d
          let units := (j.nowLen + 63) / 64
          let d := slcAdd (some (n / 4)) 6 units (tallyDie (ringGet d n).die 0x46 none units d)
          let j := { j with flying := false, next := j.next + 1, pois := j.pois || poison || j.nowPois,
                            wrote := j.wrote + j.nowLen }
          let d := setEnt n idx (fun e => { e with job := some j }) d
          if lenOf e.w ≤ j.next * 4096 then jobEnd g n idx (jobStatus j) j.wrote d else chunkIssue g n idx d

end Machine
end Sys2Proof
end

