-- ==== Sys2Proof/Machine/Mig.lean ====
section
/-! DEFINITION. Migration (spec/04): placement reads, shootdowns, felling notices, epochs, and migration slots from
assignment to the flip. -/

namespace Sys2Proof
namespace Machine

/-! ## Splitting runs, degraded regions (R142, R153, R547) -/

/-- The region of a page. -/
def pageRegion (g : Cfg) (ld page : Nat) : Nat := (regionOf g ld (page * 2097152)).getD 8

/-- The policy index of a page's region. -/
def pagePol (g : Cfg) (ld page : Nat) : Nat := ld * 8 + min 7 (pageRegion g ld page)

/-- Mark a page's region degraded; event 0x0304 once per region (R153). -/
def degrade (g : Cfg) (ld page : Nat) (d : Dyn) : Dyn :=
  let k := (ld, pageRegion g ld page)
  if d.xlt.degraded.contains k then d
  else raise 0x0304 (leadOr0 d) [ld, k.2] { d with xlt := { d.xlt with degraded := d.xlt.degraded ++ [k] } }

/-- A twin table index that no placement entry carries returns to the free list, which is journalled (R218, R547). -/
def twRelease (i : Nat) (d : Dyn) : Dyn :=
  if i != 0 && twGet d i != tw0 && !(d.xlt.pt.cells.any fun c => c.2.twin == i) then twPut i tw0 d else d

/-- Give one page of a split run its own twin index; without a free index it keeps no twin (R547). -/
def splitTwin (g : Cfg) (ld lo : Nat) (t : TwEnt) (i : Nat) (d : Dyn) : Dyn :=
  match twFree d with
  | some k => ptSet ld (lo + i) { ptGet d ld (lo + i) with twin := k } (twSet k { t with bpage := t.bpage + i } d)
  | none => degrade g ld (lo + i) (ptSet ld (lo + i) { ptGet d ld (lo + i) with twin := 0 } d)

/-- Split the run of a page: every entry becomes a single page with its own twin index, then a shootdown (R142, R547). -/
def splitRun (g : Cfg) (ld page : Nat) (d : Dyn) : Dyn :=
  let e := ptGet d ld page
  if e.run = 0 then d
  else
    let n := 2 ^ runLog e.run
    let lo := page / n * n
    let t := twGet d e.twin
    let d := if t.v then journalNote (forAll (List.range (n - 1)) (fun i d => splitTwin g ld lo t (i + 1) d) d) else d
    ptWriteRange ld lo n (fun _ x => { x with run := 0 }) true .nothing d

/-- Split the runs that cross the ends of a range (R142). -/
def splitEnds (g : Cfg) (ld lo n : Nat) (d : Dyn) : Dyn :=
  let cut (p : Nat) (d : Dyn) : Dyn :=
    if p % 2 ^ runLog (ptGet d ld p).run = 0 then d else splitRun g ld p d
  cut (lo + n) (cut lo d)

/-! ## Asking for a migration (R162, R164, R176) -/

/-- Regions on the copy path: the source's, the mover's and those the writes pass (Table 16.4). -/
def copyRegions (d : Dyn) (srcPu dstPu die : Nat) : List Nat :=
  let r := svcRouter (2 * die + 1)
  let w := bankWord (bankOf d (injBank d)) r 2 (cluRouter (dstPu / 2))
  [puRegion srcPu, 2 * die + 1, puRegion dstPu] ++ (wordPath w r).1.map fun l => rtrRegion l.1

/-- Assign a page to a migration: its destination page is taken and the arbiter asked (R176, R482). -/
def migAsk (g : Cfg) (ld page dst dpg : Nat) (rebuild drain : Bool) (ring : Option (Nat × Nat)) (d : Dyn) : Dyn :=
  let e := ptGet d ld page
  let die := devDie d e.dev
  let q := actReq 0 [devPu d e.dev, devPu d dst] (copyRegions d (devPu d e.dev) (devPu d dst) die)
  let r := arbAsk q 0 (poolLow g (usePages dst dpg 1 d))
  { r.2 with hlth := { r.2.hlth with assigns := r.2.hlth.assigns ++ [⟨r.1, die, ld, page, dst, dpg, rebuild, drain, ring⟩] } }

/-- A page already has an assignment or a slot. -/
def migBusy (d : Dyn) (ld page : Nat) : Bool :=
  (slotOf d ld page).isSome || d.hlth.assigns.any fun a => a.ld == ld && a.page == page

/-- Assignments and busy slots of a die. -/
def migLoad (d : Dyn) (die : Nat) : Nat :=
  ((List.range 16).filter fun s => migState d (die * 16 + s) != 0).length
    + (d.hlth.assigns.filter fun a => a.die == die).length

/-- Devices of a tier outside the failure group of a page's twin. -/
def migDevs (d : Dyn) (ld page t : Nat) : List Nat :=
  let e := ptGet d ld page
  let tw := twGet d e.twin
  (tierDevs d t).filter fun b => !(tw.v && fgOf d b == fgOf d tw.dev) && b != e.dev

/-- A destination page for a page on a tier (R195). -/
def migDst (d : Dyn) (ld page t : Nat) : Option (Nat × Nat) := singlePg d (migDevs d ld page t)

/-- Tier of the device a page lies on. -/
def pageTier (d : Dyn) (ld page : Nat) : Nat := (ptGet d ld page).tier

/-- A page may be chosen for automatic migration (R164). -/
def autoOk (g : Cfg) (d : Dyn) (ld page : Nat) : Bool :=
  let e := ptGet d ld page
  e.state == 1 && !e.poison && e.hint != 1 && e.hint != 3
    && !(cg g .allocRpolTierPref (pagePol g ld page) == e.tier)
    && decide (aget 0 d.xlt.backoff (pgKey ld page) ≤ d.xlt.epoch) && !migBusy d ld page

/-- The count of a page in a die's hotness table; none when it is not held. -/
def hotOf (d : Dyn) (die ld page : Nat) : Option Nat :=
  ((aget [] d.xlt.hot (hotSet die ld page)).find? fun h => h.ld == ld && h.page == page).map Hot.count

/-- PROMOTE_TH for a page; HINT 0b10 halves it (R164). -/
def promoteTh (g : Cfg) (d : Dyn) (ld page : Nat) : Nat :=
  let th := cg g .xltHotThPromoteTh 0
  if (ptGet d ld page).hint = 2 then th / 2 else th

/-- Put a pair of key and count before the first with a lower count; equal counts keep an order the spec leaves open
(assumption 1). -/
def rankPut (x : Nat × Nat) : List (Nat × Nat) → List (Nat × Nat)
  | [] => [x]
  | y :: t =>
    if y.2 < x.2 ∨ (y.2 = x.2 ∧ Config.freeNat x.1 < Config.freeNat y.1) then x :: y :: t else y :: rankPut x t

/-- Ranked, highest first. -/
def rankAll (l : List (Nat × Nat)) : List (Nat × Nat) := l.foldl (fun acc x => rankPut x acc) []

/-- A die's report: pages on tier 1 with a count of at least PROMOTE_TH, at most 1,024, highest first (R162). -/
def hotReport (g : Cfg) (d : Dyn) (die : Nat) : List (Nat × Nat) :=
  let l := d.xlt.hot.cells.flatMap fun c => if c.1 / 1024 = die then c.2 else []
  (rankAll ((l.filter fun h => decide (promoteTh g d h.ld h.page ≤ h.count) && pageTier d h.ld h.page == 1
    && (ptGet d h.ld h.page).state != 0).map fun h => (pgKey h.ld h.page, h.count))).take 1024

/-- Add up the reports of the dies for each page. -/
def addReports (l : List (Nat × Nat)) : List (Nat × Nat) :=
  (l.foldl (fun (a : Arr Nat) x => aset 0 a x.1 (aget 0 a x.1 + x.2)) arrEmpty).cells

/-- Halve every count (R162). -/
def hotHalve (d : Dyn) : Dyn :=
  { d with xlt := { d.xlt with hot := ⟨d.xlt.hot.cells.map fun c => (c.1, c.2.map fun h => { h with count := h.count / 2 })⟩ } }

/-- The next cold tier-0 page from the scan pointer, in placement order (R163). -/
def coldPage (g : Cfg) (cold : Nat → Bool) (d : Dyn) : Option Nat :=
  let ok (c : Nat × PtEnt) : Bool := c.2.tier == 0 && cold c.1 && autoOk g d (c.1 / 2 ^ 27) (c.1 % 2 ^ 27)
    && decide (migLoad d (devDie d c.2.dev) < 16)
  match (d.xlt.pt.cells.filter fun c => decide (d.xlt.scan ≤ c.1)).find? ok with
  | some c => some c.1
  | none => (d.xlt.pt.cells.find? ok).map Prod.fst

/-- Demote the next cold page, if there is one and tier 1 has room. -/
def demoteOne (g : Cfg) (cold : Nat → Bool) (d : Dyn) : Dyn :=
  match coldPage g cold d with
  | none => d
  | some k =>
    match migDst d (k / 2 ^ 27) (k % 2 ^ 27) 1 with
    | some x => migAsk g (k / 2 ^ 27) (k % 2 ^ 27) x.1 x.2 false false none { d with xlt := { d.xlt with scan := k + 1 } }
    | none => d

/-- Promote a page to tier 0, or demote a cold page to make room for it (R162, R163). -/
def promoteOne (g : Cfg) (cold : Nat → Bool) (k : Nat) (d : Dyn) : Dyn :=
  let ld := k / 2 ^ 27
  let page := k % 2 ^ 27
  if autoOk g d ld page && decide (migLoad d (devDie d (ptGet d ld page).dev) < 16) then
    match migDst d ld page 0 with
    | some x => migAsk g ld page x.1 x.2 false false none d
    | none => demoteOne g cold d
  else d

/-- EPOCH_MS in ns; 0 acts as 100 ms. -/
def epochNs (g : Cfg) : Nat := (let n := cg g .xltCtlEpochMs 0; if n = 0 then 100 else n) * 1000000

/-- Automatic migration runs: MIG_EN, a share of the mover, WARM_EPOCHS whole epochs since READY, no supply sag (R149, R168,
R487). -/
def autoOn (g : Cfg) (d : Dyn) : Bool :=
  cg g .xltCtlMigEn 0 == 1 && decide (0 < migRate g)
    && decide (d.xlt.startAt + cg g .xltCtlWarmEpochs 0 * epochNs g ≤ d.now / epochNs g * epochNs g)
    && rd d .nvmSagStsSag 0 == 0 && rd d .xltPtLocReady 0 == 1

/-! ## A slot's life (Table 4.8) -/

/-- The twin table index whose entry names a destination page. -/
def twIdxOf (d : Dyn) (dev bpage : Nat) : Nat :=
  match d.xlt.tw.cells.find? fun c => c.2.v && c.2.dev == dev && c.2.bpage == bpage with
  | some c => c.1
  | none => 0

/-- A slot returns to FREE: window and watches go, its grant is released, a ring's MIGRATE gets its result (R175, R325). -/
def migFree (g : Cfg) (i reason : Nat) (d : Dyn) : Dyn :=
  let m := migGet d i
  let d := put .xltMigStsState i 0 (put .xltMigStsReason i reason d)
  let d := arbFree m.act (migSet i mig0 d)
  match m.ring with
  | some x =>
    let t := pageTier d (migLd d i) (migPage d i)
    if reason = 0 then entDone g x.1 x.2 0 0 [t] d else entDone g x.1 x.2 0x17 reason [t] d
  | none => d

/-- Abort a migration: STATE MAPPED again, the destination to zeroing, backoff, event 0x0301; a hold is released; a flip is
past aborting (R176, R177). -/
def migAbort (g : Cfg) (i reason : Nat) (d : Dyn) : Dyn :=
  let s := migState d i
  if s = 0 || 5 ≤ s then d
  else
    let m := migGet d i
    let ld := migLd d i
    let page := migPage d i
    let rb := rd d .xltMigStsRebuild i == 1
    let d := if (ptGet d ld page).state = 2 then ptWriteRange ld page 1 (fun _ e => { e with state := 1 }) false .nothing d else d
    let d := if rb then twRelease (twIdxOf d m.dstDev m.dstPage) d else d
    let d := zeroPages m.dstDev m.dstPage 1 d
    let till := d.xlt.epoch + cg g .xltMigCtlBackoff 0 + 1
    let d := { d with xlt := { d.xlt with backoff := aset 0 d.xlt.backoff (pgKey ld page) till } }
    let d := bump .xltMigCntAbort (i / 16) 1 (raise 0x0301 (i / 16) [i % 16, ld, page, reason] d)
    let d := if s = 1 then xchClose (watchXid (i / 16) (i % 16)) d else d
    let d := if s = 4 then xchClose (holdXid (i / 16) (i % 16)) (emit (.holdRel (i / 16) (i % 16)) d) else d
    migFree g i reason d

/-- A migration of a range's page aborts (R204 step 1, R212). -/
def migAbortRange (g : Cfg) (ld lo n reason : Nat) (d : Dyn) : Dyn :=
  forAll (List.range 64) (fun i d =>
    if migState d i != 0 && migLd d i == ld && decide (lo ≤ migPage d i) && decide (migPage d i < lo + n)
    then migAbort g i reason d else d) d

/-- Steps 5 and 6 of the hold: write the new entry, then a shootdown (R171); a rebuild sets TWIN instead (R157). -/
def migFlip (i : Nat) (d : Dyn) : Dyn :=
  let m := migGet d i
  let ld := migLd d i
  let page := migPage d i
  let d := xchClose (holdXid (i / 16) (i % 16)) (put .xltMigStsState i 5 d)
  if rd d .xltMigStsRebuild i = 1 then
    let k := twIdxOf d m.dstDev m.dstPage
    let d := migSet i { m with found := (ptGet d ld page).twin } d
    ptWriteRange ld page 1 (fun _ e => { e with state := if e.state = 3 then 3 else 1, twin := k }) true (.twinSet (i / 16) (i % 16)) d
  else
    let t := rd d .xltBedevTier m.dstDev
    ptWriteRange ld page 1 (fun _ e => { e with state := if e.state = 3 then 3 else 1, dev := m.dstDev, bpage := m.dstPage, tier := t }) true
      (.migFlip (i / 16) (i % 16)) d

/-- The hold's steps 1 to 4 are done: flip within 1.4 µs of the hold's start (R172). -/
def holdCheck (i : Nat) (d : Dyn) : Dyn :=
  let m := migGet d i
  if migState d i = 4 && m.swept && m.todo == 0 && m.again == 0 && m.busy.isNone && decide (d.now ≤ m.holdAt + 1400)
  then migFlip i d else d

/-- Everyone has answered HOLD: the final sweep, and the copy of its blocks with those of the last sweep (R171 step 4). -/
def holdSweep (g : Cfg) (i : Nat) (d : Dyn) : Dyn :=
  let m := migGet d i
  if migState d i = 4 && !m.swept && (m.ack &&& everyDie d) == everyDie d then
    let f := m.found ||| m.window
    let d := put .xltMigStsDirty i (popCount m.window 512) d
    holdCheck i (migIssue g i (migSet i { m with found := f, todo := f, window := 0, swept := true } d))
  else d

/-- A sweep after a pass: the hold, another pass, or WRITE_HOT (R165, R170). -/
def migSweep (g : Cfg) (i : Nat) (d : Dyn) : Dyn :=
  let m := migGet d i
  let n := popCount m.window 512
  let d := put .xltMigStsDirty i n d
  if n ≤ holdMax g then
    let d := migSet i { m with found := m.window, window := 0, ack := 0, swept := false, holdAt := d.now } (put .xltMigStsState i 4 d)
    xchOpen (holdXid (i / 16) (i % 16)) (emit (.holdReq (i / 16) (i % 16) (migLd d i) (migPage d i)) d)
  else if maxPass g ≤ rd d .xltMigStsPass i then migAbort g i 1 d
  else
    let d := put .xltMigStsPass i (rd d .xltMigStsPass i + 1) (put .xltMigStsState i 3 d)
    migIssue g i (migSet i { m with todo := m.window, window := 0 } d)

/-- A chunk of a slot's pass completes; a pass ends when every chunk has (R169). -/
def migChunkDone (g : Cfg) (i b : Nat) (d : Dyn) : Dyn :=
  let m := migGet d i
  if m.busy != some b || copyInside d (i / 16) (i % 16) b then d
  else
    let d := tallyDie (i / 16) 0x46 none 64 (migSet i { m with busy := none } d)
    if m.todo != 0 || m.again != 0 then migIssue g i d
    else if migState d i = 4 then holdCheck i d
    else migSweep g i d

/-- A hold abandoned at 1.4 µs: RELEASE to all, event 0x0302, copying again with the held blocks dirty, or with none the next sweep at
once; the second time the migration aborts (R173). That the copying again is a pass of PASS and MAX_PASS is not said by the spec (DESIGN
CHOICE, assumption 134). -/
def holdAbandon (g : Cfg) (i : Nat) (d : Dyn) : Dyn :=
  let m := migGet d i
  let die := i / 16
  let d := bump .xltHoldStsAbandon die 1 (raise 0x0302 die [i % 16, migLd d i, migPage d i] d)
  if 1 ≤ m.abandons then migAbort g i 2 d
  else
    let d := xchClose (holdXid die (i % 16)) (emit (.holdRel die (i % 16)) d)
    let d := put .xltMigStsPass i (min 7 (rd d .xltMigStsPass i + 1)) (put .xltMigStsState i 3 d)
    let d := migSet i { m with abandons := 1, todo := m.found, again := 0, swept := false } d
    if m.found = 0 ∧ m.busy.isNone then migSweep g i d else migIssue g i d

/-- Requests of a die held for a page go on under the entry now in the table (R171 step 6, R173). -/
def releaseHeld (g : Cfg) (die ld page : Nat) (d : Dyn) : Dyn :=
  let mine (x : Nat × Nat) : Bool := x.1 == die && match flightOf d x.2 with
    | some f => decide (f.req.addr / 2097152 = page) && f.req.tgt == .ld ⟨ld % 128, Nat.mod_lt _ (by decide)⟩
    | none => true
  let go := (d.xlt.hold.filter mine).map Prod.snd
  let d := { d with xlt := { d.xlt with hold := d.xlt.hold.filter fun x => !mine x, xwait := go ++ d.xlt.xwait,
                                        heldPg := d.xlt.heldPg.filter fun x => x != (die, ld, page) } }
  jobsResume g die (xltDrain g die d)

/-- The flip's shootdown is answered by all: the slot returns to FREE, the source page goes to zeroing (R175); a rebuild frees
the twin it replaced. -/
def migFinish (g : Cfg) (die slot : Nat) (d : Dyn) : Dyn :=
  let i := die * 16 + slot
  if migState d i = 5 then
    let m := migGet d i
    let d := if rd d .xltMigStsRebuild i = 1 then
        let t := twGet d m.found
        if t.v then twRelease m.found (zeroPages t.dev t.bpage 1 d) else d
      else zeroPages m.srcDev m.srcPage 1 d
    migFree g i 0 (bump .xltMigCntDone die 1 d)
  else d

/-- Every page of a degraded region has a twin again: event 0x0305 (R157). -/
def twinCheck (g : Cfg) (ld page : Nat) (d : Dyn) : Dyn :=
  let r := pageRegion g ld page
  let lack := d.xlt.pt.cells.any fun c => c.1 / 2 ^ 27 == ld && pageRegion g ld (c.1 % 2 ^ 27) == r
    && (c.2.state == 1 || c.2.state == 2) && !c.2.poison && !(twGet d c.2.twin).v
  if d.xlt.degraded.contains (ld, r) && !lack then
    raise 0x0305 (leadOr0 d) [ld, r] { d with xlt := { d.xlt with degraded := d.xlt.degraded.filter fun x => x != (ld, r) } }
  else d

/-! ## Meanings -/


/-- SHOOTDOWN: a die replaces or invalidates its entries and answers; a duplicate is answered again (R150, R358). A flip's
shootdown releases the requests the die held (R171 step 6). A die whose translation stands still answers after it goes on (R38). -/
def execShootdown (die : Die) (rid : Nat) (s : State) : Host.Outcome State Fault Refusal :=
  nextDyn s fun g d =>
    match d.xlt.shoots.find? fun x => x.rid == rid with
    | some x =>
      if xltHalted d die then d
      else
      let d := tallyDie die 0x49 none 1 (shootAt die x d)
      match x.cont with
      | .migFlip _ _ | .twinSet _ _ => releaseHeld g die x.ld x.lo d
      | _ => d
    | none => d

/-- An unreadable entry is rewritten as a poisoned page, out of its run and without twin, with its record; its backend page and its twin are
not known any more and stay out of the pool (R142, R147). -/
def poisonEntry (g : Cfg) (ld page : Nat) (d : Dyn) : Dyn :=
  let d := splitRun g ld page d
  let tw := (ptGet d ld page).twin
  let d := ptWriteRange ld page 1 (fun _ _ => ⟨1, true, 0, 0, 0, 0, 0, 0⟩) true .nothing d
  let d := { d with xlt := { d.xlt with rewrite := aset 0 d.xlt.rewrite (pgKey ld page) 0 } }
  poisonRecord ld page 1 3 255 (twRelease tw d)

/-- The read of a miss goes out again, to the device it now goes to (R139, R150). -/
def missRead (m : Miss) (second : Bool) (d : Dyn) : Dyn :=
  let dev := ptReadDev d second
  emit (.ptRead m.die dev m.ld m.page)
    { d with xlt := { d.xlt with miss := mapIf (fun x => x == m) (fun x => { x with dev := dev, second := second }) d.xlt.miss } }

/-- The requests of a die that wait for a page. -/
def waitersOf (d : Dyn) (die ld page : Nat) : List Flight :=
  d.xlt.xwait.filterMap fun id => (flightOf d id).bind fun f =>
    if f.die = die ∧ f.req.addr / 2097152 = page ∧ f.req.tgt = .ld ⟨ld % 128, Nat.mod_lt _ (by decide)⟩ then some f else none

/-- PLACEMENT_READ_DONE: a placement read of a die returns. The result of a read that a shootdown overtook is discarded. A readable entry is
installed and its requests go on; a poisoned read goes to the second copy, one of a device that is no longer the primary to the new primary;
two unreadable copies are answered, counted and rewritten as a poisoned page (R139, R146, R147, R150). `rewriteOk` says whether that rewrite
succeeded. -/
def execPlacementReadDone (die : Die) (ld : Host) (page : Nat) (poison rewriteOk : Bool) (s : State) :
    Host.Outcome State Fault Refusal :=
  nextDyn s fun g d =>
    match (missActive d die).find? fun m => m.ld == ld.val && m.page == page with
    | none => d
    | some m =>
      if m.stale ≠ 0 then
        { d with xlt := { d.xlt with miss := mapIf (fun x => x == m) (fun x => { x with stale := x.stale - 1 }) d.xlt.miss } }
      else if !poison then xltDrain g die (missDrop m (xltFill g die ld page d))
      else if !m.second && m.dev != ptReadDev d false then missRead m false d
      else if !m.second && rd d .xltPtLocCopyV 0 == 1 then missRead m true d
      else
        let d := forAll (waitersOf d die ld page) (fun f d =>
          answer f.req (memAnswer f.req.kind) (bump .xltUnmapCntCount die 1 (raise 0x0308 die [ld, page] (xltLeave f.req.id d)))) (missDrop m d)
        let d := if aget 0 d.xlt.rewrite (pgKey ld page) > d.now then d
          else if rewriteOk then poisonEntry g ld page d
          else { d with xlt := { d.xlt with rewrite := aset 0 d.xlt.rewrite (pgKey ld page) (d.now + 1000000000) } }
        xltDrain g die d

/-- PT_REWRITE_RETRY: a failed rewrite of an unreadable entry is tried again at most once per second (R147). -/
def execPtRewriteRetry (ld : Host) (page : Nat) (ok : Bool) (s : State) : Host.Outcome State Fault Refusal :=
  nextDyn s fun g d =>
    let t := aget 0 d.xlt.rewrite (pgKey ld page)
    if t = 0 ∨ d.now < t then d
    else if ok then poisonEntry g ld page d
    else { d with xlt := { d.xlt with rewrite := aset 0 d.xlt.rewrite (pgKey ld page) (d.now + 1000000000) } }

/-- CLEAR_EVENT_RECORDS: the host clears the oldest records of its LD's log, which makes room and ends an overflow (R160). -/
def execClearEventRecords (ld : Host) (n : Nat) (s : State) : Host.Outcome State Fault Refusal :=
  nextDyn s fun _ d =>
    { d with xlt := { d.xlt with ldLog := aset [] d.xlt.ldLog ld ((aget [] d.xlt.ldLog ld).drop n)
                                 ldOver := if n = 0 then d.xlt.ldOver else aset (0, 0, 0) d.xlt.ldOver ld (0, 0, 0) } }

/-- FELLING_NOTICE: the data mover hears that a write of a chunk was felled, and issues the chunk again at the end of the
pass; the zero writes of a page go again (R108, R169, R187, R337). -/
def execFellingNotice (die : Die) (tag : Nat) (s : State) : Host.Outcome State Fault Refusal :=
  nextDyn s fun _ d =>
    let w := tag / 2 ^ 64
    let blk := tag % 2 ^ 64
    if w < 16 then
      let i := die.val * 16 + w
      let st := migState d i
      if (st = 2 ∨ st = 3 ∨ st = 4) ∧ blk < 512 then
        let m := migGet d i
        migSet i { m with again := if bitAt m.todo blk then m.again else bitSet m.again blk } d
      else d
    else if 2 ^ 20 ≤ w then
      let dev := w - 2 ^ 20
      if bitAt (blkGet d dev (blk / 128)).dirty (blk % 128) && devOk d dev then zeroSend dev blk 1 d else d
    else
      match entOf d (w - 16) (blk / 2 ^ 24) with
      | some e => match e.job with
        | some j => if j.flying ∧ j.next = blk % 2 ^ 24 then
            setEnt (w - 16) (blk / 2 ^ 24) (fun e => { e with job := some { j with redo := true } }) d else d
        | none => d
      | none => d

/-- TWIN_REBUILD_START: a page of a degraded region gets a new twin when an index and capacity are free; MIG_EN does not
matter (R153, R157, R195, R547). -/
def execTwinRebuildStart (ld : Host) (page : Nat) (s : State) : Host.Outcome State Fault Refusal :=
  nextDyn s fun g d =>
    let e := ptGet d ld page
    if e.state = 1 ∧ e.poison = false ∧ (twGet d e.twin).v = false ∧ cg g .allocRpolTwin (pagePol g ld page) = 1
        ∧ d.xlt.degraded.contains (ld.val, pageRegion g ld page) ∧ migBusy d ld page = false then
      match twFree d with
      | none => d
      | some k =>
        let other (t : Nat) := (tierDevs d t).filter fun b => fgOf d b != fgOf d e.dev
        let dst := match singlePg d (other e.tier) with
          | some x => some x
          | none => singlePg d (other (1 - e.tier))
        match dst with
        | some x => migAsk g ld page x.1 x.2 true false none (twPut k ⟨true, x.1, x.2⟩ d)
        | none => d
    else d

/-- EPOCH_END: every die reports, counts halve, promotions are assigned highest total first, and cold pages demoted where
tier 0 lacks room (R161 to R164). Cold pages are told by the counts before they are halved; the spec gives no order (DESIGN CHOICE,
assumption 133). An epoch ends once at each multiple of EPOCH_MS of the package timestamp. -/
def execEpochEnd (s : State) : Host.Outcome State Fault Refusal :=
  nextDyn s fun g d =>
    let n := d.now / epochNs g
    if n ≤ d.xlt.epochAt then d
    else
      let reports := rankAll (addReports ((List.range 4).flatMap fun k => hotReport g d k))
      let hot := d
      let cold (k : Nat) : Bool := (List.range 4).all fun die =>
        match hotOf hot die (k / 2 ^ 27) (k % 2 ^ 27) with
        | some c => decide (c ≤ cg g .xltHotThDemoteTh 0)
        | none => true
      let d := hotHalve { d with xlt := { d.xlt with epochAt := n,
                                                     epoch := d.xlt.epoch + rd d .xltPtLocReady 0 } }
      if autoOn g d then
        let d := forAll reports (fun x d => promoteOne g cold x.1 d) d
        let low := decide (tierFree d 0 < cg g .allocT0ResvBlocks 0)
        if low then forAll (List.range 64) (fun _ d => demoteOne g cold d) d else d
      else d

/-- MIGRATION_ASSIGN: a granted assignment of the die enters a FREE slot: run split, entry MIGRATING, window opened, watches
asked for (R142, R166, R167, R176). A quarantined page, which a drain moves too, stays QUARANTINED (R212, R217; assumption 147). -/
def execMigrationAssign (die : Die) (slot : MigSlot) (s : State) : Host.Outcome State Fault Refusal :=
  nextDyn s fun g d =>
    let i := die.val * 16 + slot.val
    match d.hlth.assigns.find? fun a => a.die == die.val && granted d a.act with
    | none => d
    | some a =>
      if migState d i ≠ 0 then d
      else
        let d := { d with hlth := { d.hlth with assigns := dropOne a d.hlth.assigns } }
        let e := ptGet d a.ld a.page
        if (e.state ≠ 1 ∧ !(e.state = 3 ∧ a.drain)) ∨ e.poison ∨ devDie d e.dev ≠ die.val ∨ !devOk d a.dstDev then
          let d := if a.rebuild then twRelease (twIdxOf d a.dstDev a.dstPage) d else d
          let d := arbFree a.act (unusePages a.dstDev a.dstPage 1 d)
          match a.ring with
          | some x => entDone g x.1 x.2 0x11 0 [e.tier] d
          | none => d
        else
          let d := splitRun g a.ld a.page d
          let e := ptGet d a.ld a.page
          let d := if e.state = 1 then ptWriteRange a.ld a.page 1 (fun _ e => { e with state := 2 }) false .nothing d else d
          let d := put .xltMigStsState i 1 (put .xltMigStsPass i 0 (put .xltMigStsDirty i 0 (put .xltMigStsReason i 0 d)))
          let d := put .xltMigStsRebuild i (b2n a.rebuild) (put .xltMigStsLd i a.ld (put .xltMigPagePage i a.page d))
          let d := migSet i { mig0 with act := a.act, srcDev := e.dev, srcPage := e.bpage, dstDev := a.dstDev,
                                        dstPage := a.dstPage, drain := a.drain, ring := a.ring } d
          let d := forAll (List.range 4) (fun k d => emit (.wake (2000 + 2 * k + 1)) d) (ungate (172 + die.val) d)
          xchOpen (watchXid die slot) (emit (.watchReq die slot a.ld a.page) d)

/-- ARMED ends once every die and package in reach has set its watch: pass 1 starts (R166, R170). -/
def armedCheck (g : Cfg) (i : Nat) (d : Dyn) : Dyn :=
  let m := migGet d i
  if migState d i = 1 ∧ (m.ack &&& everyDie d) = everyDie d then
    let d := xchClose (watchXid (i / 16) (i % 16)) d
    migIssue g i (migSet i { m with ack := 0, todo := 2 ^ 512 - 1 } (put .xltMigStsState i 2 (put .xltMigStsPass i 1 d)))
  else d

/-- WATCH_SET: a die (0 to 3) or package (4 + p) has set its watch, which a die does once the service block of its local region 1 has woken;
when all have, pass 1 starts (R166, R167, R170, R174). -/
def execWatchSet (die : Die) (slot : MigSlot) (who : Fin 12) (s : State) : Host.Outcome State Fault Refusal :=
  nextDyn s fun g d =>
    let i := die.val * 16 + slot.val
    if migState d i = 1 ∧ (4 ≤ who.val ∨ domPwr d (domSvc (2 * who + 1)) ≤ 1) then
      let m := migGet d i
      armedCheck g i (migSet i { m with ack := bitSet m.ack who } d)
    else d

/-- CHUNK_DONE: the writes of a data mover chunk complete, of a migration's pass or of a COPY or FILL; `poison` when the
source read returned poison, `err` when a host read completed with an error (R169, R323, R337). -/
def execChunkDone (w : ChunkOf) (poison err : Bool) (s : State) : Host.Outcome State Fault Refusal :=
  nextDyn s fun g d =>
    match w with
    | .mig die slot blk => migChunkDone g (die * 16 + slot) blk d
    | .ring n idx => chunkDone g n idx poison err d

/-- HOLD_REQUEST: a die receives HOLD and stops issuing requests to the page; it answers at once when its watch is zero, else as it comes to
zero (R171 steps 1 to 3). -/
def execHoldRequest (die mdie : Die) (slot : MigSlot) (s : State) : Host.Outcome State Fault Refusal :=
  nextDyn s fun _ d =>
    let i := mdie.val * 16 + slot.val
    if migState d i = 4 ∧ !xltHalted d die then
      let k := (die.val, migLd d i, migPage d i)
      let d := if d.xlt.heldPg.contains k then d else { d with xlt := { d.xlt with heldPg := d.xlt.heldPg ++ [k] } }
      holdTell die (some (migLd d i, migPage d i)) d
    else d

/-- HOLD_ANSWER: a die answers HOLD once its watch is zero (a package answers by itself); when all have answered, the final
sweep and copy run (R171 steps 3 and 4). -/
def execHoldAnswer (mdie : Die) (slot : MigSlot) (who : Fin 12) (s : State) : Host.Outcome State Fault Refusal :=
  nextDyn s fun g d =>
    let i := mdie.val * 16 + slot.val
    let k := (who.val, migLd d i, migPage d i)
    let quiet := decide (4 ≤ who.val) || (d.xlt.heldPg.contains k
      && !(d.flights.any fun f => f.die == who.val && f.page == some (k.2.1, k.2.2)))
    if migState d i = 4 ∧ quiet then
      let m := migGet d i
      holdSweep g i (migSet i { m with ack := bitSet m.ack who } d)
    else d

/-- HOLD_TIMEOUT: a hold whose steps 1 to 4 are not done 1.4 µs after its start is abandoned (R172, R173). -/
def execHoldTimeout (die : Die) (slot : MigSlot) (s : State) : Host.Outcome State Fault Refusal :=
  nextDyn s fun g d =>
    let i := die.val * 16 + slot.val
    if migState d i = 4 ∧ (migGet d i).holdAt + 1400 < d.now then holdAbandon g i d else d

/-- HOLD_RELEASE: a die receives RELEASE for a page whose hold was given up and releases its requests under the old entry
(R173, R177). -/
def execHoldRelease (die : Die) (ld : Host) (page : Nat) (s : State) : Host.Outcome State Fault Refusal :=
  nextDyn s fun g d =>
    let holding := match slotOf d ld page with
      | some i => decide (4 ≤ migState d i)
      | none => false
    if d.xlt.heldPg.contains (die.val, ld.val, page) ∧ holding = false then releaseHeld g die ld page d else d

end Machine
end Sys2Proof
end

