-- ==== Sys2Proof/Machine/Place.lean ====
section
/-! DEFINITION. Placing a grant (spec/05, R191 to R195): devices, stripes, single pages and twins. -/

namespace Sys2Proof
namespace Machine

/-- A device in a rotation with the block it is filling: block, pages of it given, and whether one is open. -/
structure Lane where
  dev : Nat
  blk : Nat
  off : Nat
  opn : Bool
deriving DecidableEq, Repr

/-- A lane that has opened no block. -/
def lane0 (dev : Nat) : Lane := ⟨dev, 0, 0, false⟩

/-- Take a stripe of n pages (n divides 128) from a lane; a FREE block is opened whole. -/
def laneTake (n : Nat) (l : Lane) (d : Dyn) : Option (Nat × Lane × Dyn) :=
  if l.opn then some (l.blk * 128 + l.off, { l with off := l.off + n, opn := decide (l.off + n < 128) }, d)
  else match (freeBlks d l.dev).head? with
    | some k => some (k * 128, ⟨l.dev, k, n, decide (n < 128)⟩, usePages l.dev (k * 128) 128 d)
    | none => none

/-- Return what an open block has left. -/
def laneClose (l : Lane) (d : Dyn) : Dyn :=
  if l.opn then unusePages l.dev (l.blk * 128 + l.off) (128 - l.off) d else d

/-- Stripes of n pages in rotation; a device without room leaves the rotation (R192). Answers the runs, newest first, the
stripes still to place, and the lanes. -/
def spin (n : Nat) : Nat → Nat → List Lane → Nat → List Place → Dyn → List Place × Nat × List Lane × Dyn
  | 0, left, ls, _, acc, d => (acc, left, ls, d)
  | _, 0, ls, _, acc, d => (acc, 0, ls, d)
  | _, left, [], _, acc, d => (acc, left, [], d)
  | fuel + 1, left + 1, l :: t, lo, acc, d =>
    match laneTake n l d with
    | some (bp, l', d') => spin n fuel left (t ++ [l']) (lo + n) (⟨lo, n, l.dev, bp, 0, 0, 0⟩ :: acc) d'
    | none => spin n fuel (left + 1) t lo acc d

/-- Ways of a policy: 2^WAYS up to 16, reduced to the largest power of two that divides the block count (R192). -/
def waysOf (g : Cfg) (pol blocks : Nat) : Nat :=
  let w := 2 ^ min 4 (cg g .allocRpolWays pol)
  ([16, 8, 4, 2, 1].find? fun x => decide (x ≤ w) && blocks % x == 0).getD 1

/-- Sort device numbers rising. -/
def sortUp (l : List Nat) : List Nat := (List.range 128).filter fun b => l.contains b

/-- Devices of a tier outside some failure groups. -/
def candDevs (d : Dyn) (t : Nat) (avoid : List Nat) : List Nat := (tierDevs d t).filter fun b => !avoid.contains (fgOf d b)

/-- The devices of an interleaved grant: those that hold an equal share, or when they are too few those that hold a stripe;
and whether SPREAD fell short (R192, R193). -/
def waysDevs (g : Cfg) (d : Dyn) (pol blocks : Nat) (cand : List Nat) : List Nat × Bool :=
  let w := waysOf g pol blocks
  let spread := cg g .allocRpolSpread pol == 1
  let full := cand.filter fun b => decide (blocks / w ≤ (freeBlks d b).length)
  let r := pickDevs d spread w full []
  if r.1.length = w then r
  else pickDevs d spread w (cand.filter fun b => !(freeBlks d b).isEmpty) []

/-- Place blocks in stripes of n pages; when the picked devices run out, others are picked. -/
def placeStripes (g : Cfg) (pol t : Nat) (avoid : List Nat) (n : Nat) :
    Nat → Nat → Nat → List Place → Bool → Dyn → List Place × Nat × Bool × Dyn
  | 0, left, _, acc, short, d => (acc, left, short, d)
  | fuel + 1, left, lo, acc, short, d =>
    if left = 0 then (acc, 0, short, d)
    else
      let p := waysDevs g d pol ((left * n + 127) / 128) (candDevs d t avoid)
      if p.1.isEmpty then (acc, left, short, d)
      else
        let r := spin n (left + 128) left ((sortUp p.1).map lane0) lo acc d
        let d := forAll r.2.2.1 laneClose r.2.2.2
        placeStripes g pol t avoid n fuel r.2.1 (lo + (left - r.2.1) * n) r.1 (short || p.2) d

/-- The first of four aligned FREE blocks of a device. -/
def quadOf (d : Dyn) (b : Nat) : Option Nat :=
  let l := freeBlks d b
  l.find? fun k => k % 4 == 0 && l.contains (k + 1) && l.contains (k + 2) && l.contains (k + 3)

/-- The device of the next 1 GiB stripe: a failure group not used yet while SPREAD finds one, then the most FREE blocks
(R193). -/
def quadDev (g : Cfg) (d : Dyn) (pol : Nat) (used cand : List Nat) : Option Nat :=
  let c := cand.filter fun b => (quadOf d b).isSome
  let fresh := c.filter fun b => !used.contains (fgOf d b)
  if cg g .allocRpolSpread pol = 1 ∧ !fresh.isEmpty then mostFree d fresh else mostFree d c

/-- 1 GiB stripes of 512 pages (Table 5.2, INTLV 0b00). -/
def placeQuads (g : Cfg) (pol t : Nat) (avoid : List Nat) :
    Nat → Nat → List Nat → List Place → Dyn → List Place × Nat × Nat × List Nat × Dyn
  | 0, lo, used, acc, d => (acc, 0, lo, used, d)
  | n + 1, lo, used, acc, d =>
    match quadDev g d pol used (candDevs d t avoid) with
    | none => (acc, n + 1, lo, used, d)
    | some b =>
      let k := (quadOf d b).getD 0
      let d := forAll [0, 1, 2, 3] (fun i d => usePages b ((k + i) * 128) 128 d) d
      placeQuads g pol t avoid n (lo + 512) (used ++ [fgOf d b]) (⟨lo, 512, b, k * 128, 0, 0, 0⟩ :: acc) d

/-- The rest of an INTLV 0b00 share in 32 MiB runs, on one device that holds it when there is one (Table 5.2). -/
def placeRest (g : Cfg) (pol t : Nat) (avoid used : List Nat) (blocks lo : Nat) (acc : List Place) (d : Dyn) :
    List Place × Dyn :=
  let cand := (candDevs d t avoid).filter fun b => decide (blocks ≤ (freeBlks d b).length)
  let one := match quadDev g d pol used cand with
    | some b => some b
    | none => mostFree d cand
  let ls := match one with
    | some b => [lane0 b]
    | none => ((candDevs d t avoid).filter fun b => !(freeBlks d b).isEmpty).map lane0
  let r := spin 16 (blocks * 8 + 128) (blocks * 8) ls lo acc d
  (r.1, forAll r.2.2.1 laneClose r.2.2.2)

/-- Whole blocks of a tier's share that lie in no 1 GiB stripe, by INTLV (Table 5.2; 0b11 acts as 0b01). -/
def placeMid (g : Cfg) (pol t : Nat) (avoid used : List Nat) (blocks lo : Nat) (acc : List Place) (d : Dyn) :
    List Place × Bool × Dyn :=
  if blocks = 0 then (acc, false, d)
  else match cg g .allocRpolIntlv pol with
  | 0 => let r := placeRest g pol t avoid used blocks lo acc d; (r.1, false, r.2)
  | 2 => let r := placeStripes g pol t avoid 1 130 (blocks * 128) lo acc false d; (r.1, r.2.2.1, r.2.2.2)
  | _ => let r := placeStripes g pol t avoid 16 130 (blocks * 8) lo acc false d; (r.1, r.2.2.1, r.2.2.2)

/-- Single pages of PARTIAL blocks, lowest block first (R195). -/
def placeSingles (devs : List Nat) : Nat → Nat → List Place → Dyn → List Place × Nat × Dyn
  | 0, _, acc, d => (acc, 0, d)
  | n + 1, lo, acc, d =>
    match partialPg d devs with
    | none => (acc, n + 1, d)
    | some x => placeSingles devs n (lo + 1) (⟨lo, 1, x.1, x.2, 0, 0, 0⟩ :: acc) (usePages x.1 x.2 1 d)

/-- Fewer pages than a block from a FREE block: runs of 16 where INTLV and the alignment of R141 allow, then single pages. -/
def placePart (g : Cfg) (pol : Nat) (devs : List Nat) (n lo : Nat) (acc : List Place) (d : Dyn) : List Place × Dyn :=
  match (if n = 0 then none else mostFree d (devs.filter fun b => !(freeBlks d b).isEmpty)) with
  | none => (acc, d)
  | some b =>
    let k := ((freeBlks d b).head?).getD 0
    let m := if cg g .allocRpolIntlv pol ≠ 2 ∧ lo % 16 = 0 then n / 16 else 0
    let acc := (List.range m).foldl (fun a i => ⟨lo + 16 * i, 16, b, k * 128 + 16 * i, 0, 0, 0⟩ :: a) acc
    let acc := (List.range (n - 16 * m)).foldl
      (fun a i => ⟨lo + 16 * m + i, 1, b, k * 128 + 16 * m + i, 0, 0, 0⟩ :: a) acc
    (acc, usePages b (k * 128) n d)

/-- FREE blocks of a tier outside some failure groups. -/
def freeOf (d : Dyn) (t : Nat) (avoid : List Nat) : Nat :=
  (candDevs d t avoid).foldl (fun n b => n + (freeBlks d b).length) 0

/-- Free pages of the PARTIAL blocks of a tier outside some failure groups. -/
def partialOf (d : Dyn) (t : Nat) (avoid : List Nat) : Nat :=
  (candDevs d t avoid).foldl (fun n b => (devBlks d b).foldl (fun n x => if blkState x.2 = 3 then n + freePgs x.2 else n) n) 0

/-- What a tier takes of a grant: whole FREE blocks, pages short of a block from one more FREE block, and single pages of
PARTIAL blocks when no FREE block is left (R191, R195). -/
def shareOf (d : Dyn) (t : Nat) (avoid : List Nat) (pages : Nat) : Nat × Nat × Nat :=
  let f := freeOf d t avoid
  let nb := min (pages / 128) f
  let rest := pages - nb * 128
  if nb < f then (nb, rest, 0) else (nb, 0, min rest (partialOf d t avoid))

/-- Pages of a share. -/
def sharePages (x : Nat × Nat × Nat) : Nat := x.1 * 128 + x.2.1 + x.2.2

/-- Place pages by a region's policy: the preferred tier, then with FALLBACK the other; none when they do not all fit (R191).
The 1 GiB stripes of both tiers come first in the range, then their other whole blocks, then what is short of a block, so
every run is aligned in DPA pages (R141). Answers the runs in page order and whether SPREAD fell short. -/
def planPages (g : Cfg) (pol : Nat) (avoid : List Nat) (pages lo : Nat) (d : Dyn) : Option (List Place × Bool × Dyn) :=
  let t := cg g .allocRpolTierPref pol
  let a := shareOf d t avoid pages
  let need := pages - sharePages a
  let b := if cg g .allocRpolFallback pol = 1 then shareOf d (1 - t) avoid need else (0, 0, 0)
  if sharePages b < need then none
  else
    let quads (n : Nat) : Nat := if cg g .allocRpolIntlv pol = 0 ∧ lo % 512 = 0 then n / 4 else 0
    let qa := placeQuads g pol t avoid (quads a.1) lo [] [] d
    let qb := placeQuads g pol (1 - t) avoid (quads b.1) qa.2.2.1 [] qa.1 qa.2.2.2.2
    let na := a.1 - 4 * (quads a.1 - qa.2.1)
    let nb := b.1 - 4 * (quads b.1 - qb.2.1)
    let lo := qb.2.2.1
    let ma := placeMid g pol t avoid qa.2.2.2.1 na lo qb.1 qb.2.2.2.2
    let mb := placeMid g pol (1 - t) avoid qb.2.2.2.1 nb (lo + na * 128) ma.1 ma.2.2
    let lo := lo + (na + nb) * 128
    let pa := placePart g pol (candDevs mb.2.2 t avoid) a.2.1 lo mb.1 mb.2.2
    let pb := placePart g pol (candDevs pa.2 (1 - t) avoid) b.2.1 (lo + a.2.1) pa.1 pa.2
    let lo := lo + a.2.1 + b.2.1
    let sa := placeSingles (candDevs pb.2 t avoid) a.2.2 lo pb.1 pb.2
    let sb := placeSingles (candDevs sa.2.2 (1 - t) avoid) b.2.2 (lo + a.2.2) sa.1 sa.2.2
    some (sb.1.reverse, ma.2.1 || mb.2.1, sb.2.2)

/-- A region's pages get twins: TWIN, and not a tier-0-preferring region while TWIN_HOT is 0 (R152). -/
def twinOn (g : Cfg) (pol : Nat) : Bool :=
  cg g .allocRpolTwin pol == 1 && (cg g .xltCtlTwinHot 0 == 1 || cg g .allocRpolTierPref pol == 1)

/-- Space for one twin on a tier: a stripe of the lane's block, of a device with the most FREE blocks, or for a single page
one of a PARTIAL block (R194). -/
def twinSpace (grps : List Nat) (t n : Nat) (l : Option Lane) (d : Dyn) : Option (Nat × Nat × Option Lane × Dyn) :=
  let cand := (tierDevs d t).filter fun b => !grps.contains (fgOf d b)
  if n = 512 then
    match mostFree d (cand.filter fun b => (quadOf d b).isSome) with
    | some b =>
      let k := (quadOf d b).getD 0
      some (b, k * 128, l, forAll [0, 1, 2, 3] (fun i d => usePages b ((k + i) * 128) 128 d) d)
    | none => none
  else
    let l' := match l with
      | some x => if x.opn then some x else (mostFree d (cand.filter fun b => !(freeBlks d b).isEmpty)).map lane0
      | none => (mostFree d (cand.filter fun b => !(freeBlks d b).isEmpty)).map lane0
    match l' with
    | some x => match laneTake n x d with
      | some (bp, y, d') => some (x.dev, bp, some y, d')
      | none => none
    | none =>
      if n = 1 then (partialPg d cand).map fun x => (x.1, x.2, l, usePages x.1 x.2 1 d) else none

/-- Twins for the runs of a grant, in the primary's tier when it has room, else in the other; a run without space or index
has none and its region is degraded (R153, R194, R547). -/
def placeTwins (g : Cfg) (ld : Nat) (grps : List Nat) :
    List Place → List Place → Option Lane → Option Lane → Dyn → List Place × Dyn
  | [], acc, l0, l1, d =>
    let d := match l0 with
      | some l => laneClose l d
      | none => d
    (acc.reverse, match l1 with
      | some l => laneClose l d
      | none => d)
  | p :: t, acc, l0, l1, d =>
    let tier := rd d .xltBedevTier p.dev
    let try1 := twinSpace grps tier p.n (if tier = 0 then l0 else l1) d
    let r := match try1 with
      | some x => some (tier, x)
      | none => (twinSpace grps (1 - tier) p.n (if tier = 0 then l1 else l0) d).map fun x => (1 - tier, x)
    match r, twFree d with
    | some (tt, b, bp, l, d'), some k =>
      let d' := twSet k ⟨true, b, bp⟩ d'
      let q := { p with twin := k, tdev := b, tpage := bp }
      if tt = 0 then placeTwins g ld grps t (q :: acc) l l1 d' else placeTwins g ld grps t (q :: acc) l0 l d'
    | _, _ => placeTwins g ld grps t (p :: acc) l0 l1 (degrade g ld p.lo d)

/-- Plan a grant with its twins; SPREAD_SHORT is raised here (R193, R194). -/
def planGrant (g : Cfg) (ld pol pages lo : Nat) (d : Dyn) : Option (List Place × Dyn) :=
  match planPages g pol [] pages lo d with
  | none => none
  | some (runs, short, d) =>
    let d := if short then raise 0x0409 (leadOr0 d) [ld, 1] d else d
    if twinOn g pol then some (placeTwins g ld (runs.map fun p => fgOf d p.dev) runs [] none none d)
    else some (runs, d)

/-- The RUN code of a placed run (Table 4.2). -/
def runCode (n : Nat) : Nat := if n = 512 then 2 else if n = 16 then 1 else 0

/-- The placement entry of a page of a placed run (R141). -/
def placeEnt (d : Dyn) (p : Place) (page : Nat) : PtEnt :=
  ⟨1, false, rd d .xltBedevTier p.dev, runCode p.n, 0, p.dev, p.bpage + (page - p.lo), p.twin⟩

/-- The run that holds a page. -/
def runAt (runs : List Place) (page : Nat) : Option Place :=
  runs.find? fun p => decide (p.lo ≤ page) && decide (page < p.lo + p.n)

/-- Return the space of runs whose pages were never written. -/
def unplace (runs : List Place) (d : Dyn) : Dyn :=
  forAll runs (fun p d =>
    let give (dev bp : Nat) (d : Dyn) : Dyn :=
      if p.n ≤ 128 then unusePages dev bp p.n d
      else forAll (List.range (p.n / 128)) (fun i d => unusePages dev (bp + 128 * i) 128 d) d
    let d := give p.dev p.bpage d
    if p.twin ≠ 0 then twRelease p.twin (give p.tdev p.tpage d) else d) d

end Machine
end Sys2Proof
end

