-- ==== Sys2Proof/Machine/Alloc.lean ====
section
/-! DEFINITION. The allocator (spec/05): admission, grant contexts, extents, release, the pool at start, host states and the
journal. -/

namespace Sys2Proof
namespace Machine

/-! ## Extents and quotas (R189, R190, R196, R197) -/

/-- Contexts at work and between pieces, with their numbers. -/
def allCtxs (d : Dyn) : List Ctx := (d.alloc.ctxs.cells.map Prod.snd) ++ d.alloc.paused

/-- A context with nothing to do. -/
def ctx0 : Ctx := ⟨false, 0, 0, 4096, 0, 0, 0, 0, 0, [], 0, 0, 0, [], []⟩
/-- Context k. -/
def ctxGet (d : Dyn) (k : Nat) : Ctx := aget ctx0 d.alloc.ctxs k
/-- Replace context k. -/
def ctxSet (k : Nat) (c : Ctx) (d : Dyn) : Dyn := { d with alloc := { d.alloc with ctxs := aset ctx0 d.alloc.ctxs k c } }

/-- Pages a context has reserved and not yet charged. -/
def ctxOpen (c : Ctx) : Nat := c.pages - c.done

/-- Blocks reserved by contexts for a slice. -/
def resvSlice (d : Dyn) (s : Nat) : Nat :=
  (allCtxs d).foldl (fun n c => if c.slice = s then n + ctxOpen c / 128 else n) 0
/-- Blocks reserved by contexts for a host. -/
def resvHost (d : Dyn) (h : Nat) : Nat := (allCtxs d).foldl (fun n c => if c.host = h then n + ctxOpen c / 128 else n) 0

/-- Charge blocks to a host, and to a slice when the grant came through one (R189). -/
def chargeBlocks (h : Nat) (s : Option Nat) (n : Nat) (d : Dyn) : Dyn :=
  let d := put .allocHqUsed h (rd d .allocHqUsed h + n) d
  match s with
  | some s => put .allocSqUsed s (rd d .allocSqUsed s + n) d
  | none => d

/-- Return a charge. -/
def unchargeBlocks (h : Nat) (s : Option Nat) (n : Nat) (d : Dyn) : Dyn :=
  let d := put .allocHqUsed h (rd d .allocHqUsed h - n) d
  match s with
  | some s => put .allocSqUsed s (rd d .allocSqUsed s - n) d
  | none => d

/-- LD ranges taken: extents and reservations. -/
def takenRanges (d : Dyn) (ld : Nat) : List (Nat × Nat) :=
  (d.alloc.exts.filter fun e => e.ld == ld).map (fun e => (e.base, e.pages))
    ++ ((allCtxs d).filter fun c => c.host == ld).map fun c => (c.base, c.pages)

/-- Round up to a multiple. -/
def alignUp (x n : Nat) : Nat := (x + n - 1) / n * n

/-- The lowest free range of a region, aligned to 256 MiB, to 1 GiB for INTLV 0b00 (R196). -/
def dpaFree (g : Cfg) (d : Dyn) (ld r pages : Nat) : Option Nat :=
  let i := ld * 8 + r
  let lo := cg g .allocRgnBase i
  let hi := lo + cg g .allocRgnPages i
  let al := if cg g .allocRpolIntlv i = 0 then 512 else 128
  let tk := takenRanges d ld
  let cands := (alignUp lo al) :: tk.map fun x => alignUp (x.1 + x.2) al
  let ok (p : Nat) : Bool := decide (lo ≤ p) && decide (p + pages ≤ hi)
    && tk.all fun x => decide (p + pages ≤ x.1) || decide (x.1 + x.2 ≤ p)
  (cands.filter ok).foldl (fun m p => match m with
    | none => some p
    | some q => some (min p q)) none

/-- Pieces of a request (R202). -/
def piecesOf (pages : Nat) : Nat := (pages + 32767) / 32768
/-- Extent records in use or promised (R197, R199). -/
def extsUsed (d : Dyn) : Nat := d.alloc.exts.length + (allCtxs d).foldl (fun n c => n + piecesOf (ctxOpen c)) 0

/-- A shared region is defined and was not rejected (R227). -/
def srValid (g : Cfg) (d : Dyn) (i : Nat) : Bool := cg g .cohSrCfgV i == 1 && rd d .cohSrCfgCfgBad i == 0

/-- A region of an LD belongs to a shared region that is not valid, or is SHARED without one: it offers nothing (R227). -/
def srDead (g : Cfg) (d : Dyn) (n r : Nat) : Bool :=
  match srOf g n r with
  | some i => !srValid g d i
  | none => cg g .allocRpolShared (n * 8 + r) == 1

/-- The status of steps 1 and 2 up to NO_EXTENT, in the order of R199; none when all pass. -/
def allocCheck (g : Cfg) (d : Dyn) (s h region size : Nat) : Option Nat :=
  let i := h * 8 + region
  let blocks := size / 268435456
  if !hasLd g d h then some 7
  else if size = 0 || size % 268435456 != 0 then some 6
  else if cg g .allocRpolDefined i = 0 || cg g .allocRpolShared i = 1 || srDead g d h region then some 5
  else if cg g .allocSqQuota s < rd d .allocSqUsed s + resvSlice d s + blocks then some 2
  else if cg g .allocHqQuota h < rd d .allocHqUsed h + resvHost d h + blocks then some 3
  else if (dpaFree g d h region (blocks * 128)).isNone then some 4
  else if 65536 < extsUsed d + piecesOf (blocks * 128) then some 9
  else none

/-- An ALLOC ends refused: its result, and event 0x0401 or 0x0402 (Table 5.7). -/
def allocRefuse (g : Cfg) (ring idx s h status : Nat) (d : Dyn) : Dyn :=
  let code := if status = 1 ∨ status = 4 ∨ status = 9 then 0x0401 else if status = 2 ∨ status = 3 then 0x0402 else 0
  let d := if code ≠ 0 then raise code (leadOr0 d) [h, s, status] d else d
  entDone g ring idx status 0 [] d

/-! ## Grant contexts (R198 to R203) -/

/-- A free context of the eight. -/
def freeCtx (d : Dyn) : Option Nat := firstFrom (fun k => !(ctxGet d k).busy) 0 8

/-- Pages of the piece a context works on; an initial grant is one piece (R202, R208). -/
def pieceLen (k : Nat) (c : Ctx) : Nat := if k = 8 then c.pages else min 32768 (c.pages - c.done)

/-- The tag of a shared region's extents, the model's own number (assumption 27). -/
def srTag (sr : Nat) : Nat := 2 ^ 40 + sr

/-- The LD ranges a grant writes: its own, or for a shared region every member's (R209). -/
def targetsOf (g : Cfg) (h region base : Nat) : List (Nat × Nat) :=
  match (if cg g .allocRpolShared (h * 8 + region) = 1 then srOf g h region else none) with
  | some sr => (srMembers g sr).map fun m => (m.1, cg g .allocRgnBase (m.1 * 8 + m.2))
  | none => [(h, base)]

/-- The fields of a region's policy and bounds. -/
def polFlds : List CFld :=
  [.allocRpolDefined, .allocRpolShared, .allocRpolTwin, .allocRpolSpread, .allocRpolFallback, .allocRpolTierPref, .allocRpolIntlv,
   .allocRpolWays, .allocRgnBase, .allocRgnPages]

/-- A region's policy as it stands: what a request accepted now keeps (R188). -/
def polNow (g : Cfg) (pol : Nat) : List Nat := polFlds.map fun f => cg g f pol

/-- The configuration as a context sees it: its region's policy as it was at acceptance (R188). -/
def ctxCfg (g : Cfg) (c : Ctx) : Cfg := forAll (polFlds.zip c.pol) (fun x g => cput x.1 (c.host * 8 + c.region) x.2 g) g

/-- Step 4: write the placement entries of the piece, with one shootdown for each run or single page to follow (R199). -/
def ctxWrite (k : Nat) (d : Dyn) : Dyn :=
  let c := ctxGet d k
  let n := pieceLen k c
  let d := ctxSet k { c with step := 4 } d
  forAll c.targets (fun t d =>
    let put1 (page : Nat) (e : PtEnt) : PtEnt :=
      let own := page - t.2 + c.base
      match runAt c.runs own with
      | some p => placeEnt d p own
      | none => e
    ptWriteEach t.1 (t.2 + c.done) n put1 true true (.grant k) d) d

/-- Step 6 is journalled: the piece becomes extents and is charged; those whose entries were QUARANTINED meanwhile are quarantined extents
(R189, R197, R199, R212). -/
def ctxWritten (k : Nat) (d : Dyn) : Dyn :=
  let c := ctxGet d k
  if c.busy && c.step == 6 then
    let n := pieceLen k c
    let sl := if c.slice = 4096 then none else some c.slice
    let shared := decide (1 < c.targets.length) || c.pol[1]? == some 1
    let tag := if k = 8 then c.tag else c.tag + c.done / 32768
    let d := forAll c.targets (fun t d =>
      let quar := (ptGet d t.1 (t.2 + c.done)).state == 3
      let e : Ext := ⟨d.alloc.nextEid, t.1, t.2 + c.done, n, sl, tag, false, 0, quar, shared, false⟩
      let d := { d with alloc := { d.alloc with exts := d.alloc.exts ++ [e], nextEid := d.alloc.nextEid + 1 } }
      chargeBlocks t.1 sl (n / 128) d) d
    slcAdd (if k = 8 then none else sl) 7 (n / 128) (ctxSet k { c with done := c.done + n, step := 7 } d)
  else d

/-- Every die has answered the piece's shootdowns: step 6 (R199). -/
def ctxShot (k : Nat) (d : Dyn) : Dyn :=
  let c := ctxGet d k
  let left (x : Cont) : Bool := x == .grant k
  if c.busy && c.step == 4 && !(d.xlt.pws.any fun w => left w.cont) && !(d.xlt.shoots.any fun x => left x.cont)
  then journalPut (.grantWritten k) (ctxWritten k) (ctxSet k { c with step := 6 } d) else d

/-- Step 7: the Add Capacity event of an extent (R199, R203). ACK_TMO_S 0 acts as 1. -/
def offerExt (g : Cfg) (eid : Nat) (d : Dyn) : Dyn :=
  match d.alloc.exts.find? fun e => e.eid == eid with
  | none => d
  | some e =>
    let t := d.now + max 1 (cg g .allocCtlAckTmoS 0) * 1000000000
    emit (.dcEvent e.ld 0 e.base e.pages e.tag)
      { d with alloc := { d.alloc with exts := mapIf (fun x => x.eid == eid) (fun x => { x with byAt := t, took := false }) d.alloc.exts } }

/-- The Add Capacity event of an extent that still holds capacity (R214). -/
def offerOpen (g : Cfg) (eid : Nat) (d : Dyn) : Dyn :=
  if d.alloc.exts.any fun e => e.eid == eid && !e.going && !e.quar then offerExt g eid d else d

/-- A context is free again. -/
def ctxEnd (k : Nat) (d : Dyn) : Dyn := ctxSet k ctx0 d

/-- A waiting slice in rotation after the slice admitted last (R198). -/
def nextSlice (d : Dyn) : Option Nat :=
  let l := d.alloc.queue.map AllocReq.slice ++ d.alloc.paused.map Ctx.slice
  let up := l.filter fun s => decide (d.alloc.lastSlc < s)
  let low (l : List Nat) : Option Nat := l.foldl (fun m s => match m with
    | none => some s
    | some q => some (min s q)) none
  if up.isEmpty then low l else low up

/-- The host of a slice. -/
def sliceHost (g : Cfg) (d : Dyn) (s : Nat) : Nat := cg (qCfg g d) .qosSliceKeyHost s

/-- ALLOC: a ring entry enters the admission queue (R198, R320). -/
def execAlloc (n : RingId) (idx : Nat) (s : State) : Host.Outcome State Fault Refusal :=
  nextDyn s fun _ d =>
    match entReady d n idx 1 with
    | none => d
    | some e =>
      let sl := n.val / 4
      if (d.alloc.queue.any fun q => q.slice == sl) || (allCtxs d).any fun c => c.slice == sl then d
      else
        let d := setEnt n idx (fun e => { e with started := true }) d
        { d with alloc := { d.alloc with queue := d.alloc.queue ++ [⟨sl, n, idx, bits (argAt e.w 0) 0 3, argAt e.w 1⟩] } }

/-- Start a context on an admitted request: checks, reservation, journal (R199 steps 1 to 3). -/
def ctxStart (g : Cfg) (k : Nat) (q : AllocReq) (d : Dyn) : Dyn :=
  let h := sliceHost g d q.slice
  match allocCheck g d q.slice h q.region q.size with
  | some st => allocRefuse g q.ring q.idx q.slice h st d
  | none =>
    let pages := q.size / 2097152
    let lo := (dpaFree g d h q.region pages).getD 0
    match planGrant g h (h * 8 + q.region) pages lo d with
    | none => allocRefuse g q.ring q.idx q.slice h 1 d
    | some (runs, d) =>
      let tag := d.alloc.nextTag
      let d := { d with alloc := { d.alloc with nextTag := tag + piecesOf pages } }
      let c : Ctx := ⟨true, q.ring, q.idx, q.slice, h, q.region, lo, pages, 0, runs, 3, tag, d.now,
        polNow g (h * 8 + q.region), targetsOf g h q.region lo⟩
      poolLow g (journalPut (.grantReserved k) (ctxWrite k) (ctxSet k c d))

/-- ALLOC_ACCEPT: the next slice in rotation enters a free context: a new request is checked and reserved, or the next piece
of a grant goes on (R198, R199, R202). Admission waits for READY and for a rebuilt allocator, and only the lead package's allocator admits
(R29, R207, R490). -/
def execAllocAccept (s : State) : Host.Outcome State Fault Refusal :=
  nextDyn s fun g d =>
    if rd d .xltPtLocReady 0 = 0 ∨ d.alloc.rebuild ∨ quorumLost d ∨ !leadsSystem d then d
    else
    let d := ungate (176 + leadOr0 d) d
    match nextSlice d, freeCtx d with
      | some sl, some k =>
        let d := { d with alloc := { d.alloc with lastSlc := sl } }
        match d.alloc.paused.find? fun c => c.slice == sl with
        | some c =>
          let d := { d with alloc := { d.alloc with paused := dropOne c d.alloc.paused } }
          ctxWrite k (ctxSet k c d)
        | none => match d.alloc.queue.find? fun q => q.slice == sl with
          | some q => ctxStart g k q { d with alloc := { d.alloc with queue := dropOne q d.alloc.queue } }
          | none => d
      | _, _ => d

/-- The extents of a context's pieces that have not been offered to the host yet. -/
def newExts (d : Dyn) (c : Ctx) : List Ext :=
  d.alloc.exts.filter fun e => e.byAt == 0 && !e.took && !e.quar && c.targets.any fun t => t.1 == e.ld
    && decide (t.2 ≤ e.base) && decide (e.base + e.pages ≤ t.2 + c.done)

/-- GRANT_PIECE: a context's piece reaches step 7: the Add Capacity event; after the last piece step 8, else the context
returns to the rotation (R199, R202). Context 8 is the initial grant. -/
def execGrantPiece (k : Fin 9) (s : State) : Host.Outcome State Fault Refusal :=
  nextDyn s fun g d =>
    let c := ctxGet d k
    if c.busy && c.step == 7 then
      let d := forAll (newExts d c) (fun e d => offerExt g e.eid d) d
      let d := if k.val < 8 then peak .allocGntStsPeakUs 0 ((d.now - c.at0) / 8000) d else d
      if c.done < c.pages then
        { ctxEnd k d with alloc := { (ctxEnd k d).alloc with paused := d.alloc.paused ++ [c] } }
      else if k.val = 8 then ctxEnd k d
      else entDone g c.ring c.idx 0 0 [c.base * 2097152, c.pages * 2097152, c.tag] (ctxEnd k d)
    else d

/-! ## Release (R204 to R206, R209) -/

/-- Give the backend pages of one LD page back: to zeroing, unless poisoned (R204 step 6, R206). -/
def freePage (ld page : Nat) (share : Bool) (d : Dyn) : Dyn :=
  let e := ptGet d ld page
  let d := ptSet ld page pt0 { d with xlt := { d.xlt with why := aset 0 d.xlt.why (pgKey ld page) 0 } }
  if share || e.poison then twRelease e.twin d
  else
    let t := twGet d e.twin
    let d := zeroPages e.dev e.bpage 1 d
    twRelease e.twin (if t.v then zeroPages t.dev (t.bpage + page % 2 ^ runLog e.run) 1 d else d)

/-- Steps 4 to 6 of a release once its shootdowns are answered; a degraded region may have lost its last page without a twin (R157,
R204). -/
def releaseFinish (g : Cfg) (eid : Nat) (d : Dyn) : Dyn :=
  match d.alloc.exts.find? fun e => e.eid == eid with
  | none => d
  | some e =>
    let d := { d with alloc := { d.alloc with exts := d.alloc.exts.filter fun x => x.eid != eid } }
    let share := e.shared && d.alloc.exts.any fun x => x.tag == e.tag && x.shared
    let d := unchargeBlocks e.ld e.slice (e.pages / 128) d
    twinCheck g e.ld e.base (journalNote (forAll (List.range e.pages) (fun i d => freePage e.ld (e.base + i) share d) d))

/-- Release an extent, or an aligned part of one: the rest stays as extents of its own (R197, R204 steps 1 to 3). -/
def releaseExt (g : Cfg) (e : Ext) (base pages : Nat) (d : Dyn) : Dyn :=
  if e.going || pages = 0 then d
  else
    let left := { e with pages := base - e.base }
    let right := { e with eid := d.alloc.nextEid + 1, base := base + pages, pages := e.base + e.pages - (base + pages) }
    let mid := { e with eid := d.alloc.nextEid, base := base, pages := pages, going := true }
    let keep := (if left.pages = 0 then [] else [left]) ++ (if right.pages = 0 then [] else [right])
    let exts := (d.alloc.exts.filter fun x => x.eid != e.eid) ++ keep ++ [mid]
    let d := { d with alloc := { d.alloc with exts := exts, nextEid := d.alloc.nextEid + 2 } }
    let d := splitEnds g e.ld base pages (migAbortRange g e.ld base pages 5 d)
    ptWriteEach e.ld base pages (fun _ x => { x with state := 0 }) true true (.release mid.eid base pages) d

/-- The part of an extent inside a range. -/
def overlap (e : Ext) (base pages : Nat) : Nat × Nat :=
  let lo := max e.base base
  let hi := min (e.base + e.pages) (base + pages)
  (lo, hi - lo)

/-- A range lies wholly within extents that pass a test (R205). -/
def rangeIn (d : Dyn) (ld base pages : Nat) (p : Ext → Bool) : Bool :=
  decide ((d.alloc.exts.filter fun e => e.ld == ld && p e).foldl (fun n e => n + (overlap e base pages).2) 0 = pages)

/-- Release the parts of every extent of an LD inside a range, of those that pass a test. -/
def releaseRange (g : Cfg) (ld base pages : Nat) (p : Ext → Bool) (d : Dyn) : Dyn :=
  forAll (d.alloc.exts.filter fun e => e.ld == ld && p e) (fun e d =>
    let o := overlap e base pages
    releaseExt g e o.1 o.2 d) d

/-- Settle pending Release Capacity events for a range: what is left of each stays pending (R205). -/
def settleRel (h base pages : Nat) (d : Dyn) : Dyn :=
  let cut (x : RelEv) : List RelEv :=
    if x.host = h ∧ x.base < base + pages ∧ base < x.base + x.pages then
      let a := base - x.base
      let b := x.base + x.pages - (base + pages)
      (if x.base < base then [{ x with pages := a }] else [])
        ++ (if base + pages < x.base + x.pages then [{ x with base := base + pages, pages := b }] else [])
    else [x]
  { d with alloc := { d.alloc with relEvs := d.alloc.relEvs.flatMap cut } }

/-- ADD_DC_RESPONSE: the host accepts an extent, or declines it and it is released with event 0x0403 (R203). -/
def execAddDcResponse (h : Host) (tag : Nat) (accept : Bool) (s : State) : Host.Outcome State Fault Refusal :=
  nextDyn s fun g d =>
    match d.alloc.exts.find? fun e => e.ld == h.val && e.tag == tag && !e.took && e.byAt != 0 && !e.going && !e.quar with
    | none => d
    | some e =>
      if accept then
        { d with alloc := { d.alloc with exts := mapIf (fun x => x.eid == e.eid) (fun x => { x with took := true }) d.alloc.exts } }
      else releaseExt g e e.base e.pages (raise 0x0403 (leadOr0 d) [h, tag, 1] d)

/-- ACK_TIMEOUT: an extent not accepted within ACK_TMO_S is released, event 0x0403 (R203). -/
def execAckTimeout (h : Host) (tag : Nat) (s : State) : Host.Outcome State Fault Refusal :=
  nextDyn s fun g d =>
    match d.alloc.exts.find? fun e => e.ld == h.val && e.tag == tag && !e.took && e.byAt != 0 && !e.going && !e.quar with
    | none => d
    | some e => if e.byAt ≤ d.now then releaseExt g e e.base e.pages (raise 0x0403 (leadOr0 d) [h, tag, 2] d) else d

/-- RELEASE: a ring entry raises a Release Capacity event for its range, or is refused BAD_RANGE (R205, R320). -/
def execRelease (n : RingId) (idx : Nat) (s : State) : Host.Outcome State Fault Refusal :=
  nextDyn s fun g d =>
    match entReady d n idx 2 with
    | none => d
    | some e =>
      let sl := n.val / 4
      let h := sliceHost g d sl
      let a := argAt e.w 0
      let len := argAt e.w 1
      let ok := a % 268435456 == 0 && len % 268435456 == 0
        && rangeIn d h (a / 2097152) (len / 2097152) fun x => x.slice == some sl && !x.going && !x.quar
      if ok then
        let d := { d with alloc := { d.alloc with relEvs := d.alloc.relEvs ++
          [⟨h, (a / 2097152, len / 2097152), a / 2097152, len / 2097152, sl⟩] } }
        entDone g n idx 0 0 [a, len] (emit (.dcEvent h 1 (a / 2097152) (len / 2097152) 0) d)
      else entDone g n idx 8 0 [] d

/-- The host's answer to a Release Capacity event that named a range: the part of it that it releases, none to decline. What the mailbox has
released meanwhile is settled and the answer has no effect there; the rest of the event's range stays granted and the event is answered
(R205). -/
def answerRel (g : Cfg) (h : Nat) (ev : Nat × Nat) (base pages : Nat) (d : Dyn) : Dyn :=
  let mine (x : RelEv) : Bool := x.host == h && x.ev == ev
  let left := d.alloc.relEvs.filter mine
  let d := forAll left (fun x d =>
    let lo := max x.base base
    let hi := min (x.base + x.pages) (base + pages)
    releaseRange g h lo (hi - lo) (fun e => !e.going && !e.quar) d) d
  { d with alloc := { d.alloc with relEvs := d.alloc.relEvs.filter fun x => !mine x } }

/-- RELEASE_DYNAMIC_CAPACITY: the host releases capacity through its mailbox, by itself or, with `ev` the range a pending Release Capacity
event named, as its answer to that event (R204, R205). A quarantined extent is not among those it may name, which the spec does not say
(DESIGN CHOICE, assumption 136). -/
def execReleaseDynamicCapacity (h : Host) (ev : Option (Nat × Nat)) (base pages : Nat) (s : State) : Host.Outcome State Fault Refusal :=
  nextDyn s fun g d =>
    let open1 (e : Ext) : Bool := !e.going && !e.quar
    if base % 128 ≠ 0 ∨ pages % 128 ≠ 0 then d
    else match ev with
      | some x => answerRel g h x base pages d
      | none =>
        if 0 < pages ∧ rangeIn d h base pages open1 then settleRel h base pages (releaseRange g h base pages open1 d) else d

/-! ## Zeroing and joining (R186, R187, R215) -/

/-- Move a joining device past the blocks that are clean or belong to the placement region, in block order; events 0x0407
for the first block of a hot-added device that joins and for its last (R215). -/
def joinStep (dev : Nat) : Nat → Dyn → Dyn
  | 0, d => d
  | k + 1, d =>
    let f := aget 0 d.alloc.front dev
    let b := blkGet d dev f
    if f < nblk d dev ∧ (b.resv ∨ b.dirty = 0) then
      let joins := d.alloc.hotAdd.contains dev && !b.resv
      let d := { d with alloc := { d.alloc with front := aset 0 d.alloc.front dev (f + 1) } }
      let d := if joins && (List.range f).all (fun x => (blkGet d dev x).resv) then raise 0x0407 (leadOr0 d) [dev, 0] d else d
      let d := if joins && f + 1 == nblk d dev then raise 0x0407 (leadOr0 d) [dev, 1] d else d
      joinStep dev k d
    else d

/-- The zero writes of the block a joining device has come to (R187, R208, R215). -/
def zeroFront (dev : Nat) (d : Dyn) : Dyn :=
  let f := aget 0 d.alloc.front dev
  if f < nblk d dev ∧ rd d .xltPtLocReady 0 = 1 then zeroSend dev (f * 128) 128 d else d

/-- Pages pass to free, a joining device's next block is zeroed, and migrations that zeroing held back go on (R186, R187, R215). -/
def pagesFree (g : Cfg) (dev page n : Nat) (d : Dyn) : Dyn :=
  let b := blkGet d dev (page / 128)
  let f := aget 0 d.alloc.front dev
  let d := joinStep dev (nblk d dev) (blkSet dev (page / 128) { b with dirty := maskOff b.dirty (pgMask page n) } d)
  let d := if aget 0 d.alloc.front dev = f then d else zeroFront dev d
  migKick g (devDie d dev) (poolUp g d)

/-- ZEROING_DONE: the zero writes to pages of a block complete, and they pass to free once journalled; the blocks of a
joining device are zeroed in block order, all only after READY (R186, R187, R208, R215, R218). -/
def execZeroingDone (dev : Dev) (page n : Nat) (s : State) : Host.Outcome State Fault Refusal :=
  nextDyn s fun g d =>
    let k := page / 128
    let m := pgMask page n
    let b := blkGet d dev k
    if rd d .xltPtLocReady 0 = 1 ∧ !zeroInside d dev page n ∧ page % 128 + n ≤ 128 ∧ 0 < n ∧ k < nblk d dev ∧ !b.resv ∧ (b.dirty &&& m) = m ∧ k ≤ aget 0 d.alloc.front dev ∧ devOk d dev
    then journalPut (.freePage dev page n) (pagesFree g dev page n) d
    else d

/-! ## The pool at start (R207 to R209) -/

/-- Blocks that the placement region and the page map take on a device (R138, R185). -/
def ptBlocks (g : Cfg) : Nat := regionBlocks g + 1

/-- Mark the placement blocks of a device RESERVED; the block after them is then the next to be zeroed. -/
def reservePt (g : Cfg) (dev : Nat) (d : Dyn) : Dyn :=
  joinStep dev (ptBlocks g)
    (forAll (List.range (ptBlocks g)) (fun k d => blkSet dev k { blkGet d dev k with resv := true, dirty := 0 } d) d)

/-- A placement device has trained. -/
def devUp (d : Dyn) (b : Nat) : Bool := devOk d b && d.alloc.joined.contains b && lpLinkUp d (rd d .xltBedevLport b)

/-- The lowest usable tier-0 device that passes a test (R137). -/
def pickPt (d : Dyn) (p : Nat → Bool) : Option Nat :=
  firstFrom (fun b => devOk d b && rd d .xltBedevTier b == 0 && p b) 0 128

/-- Choose PRIM_DEV and COPY_DEV at start; with no second device COPY_V 0 and event 0x0307 (R137, R140). -/
def choosePt (g : Cfg) (d : Dyn) : Dyn :=
  match pickPt d fun _ => true with
  | none => d
  | some p =>
    let d := put .xltPtLocBlocks 0 (regionBlocks g) (put .xltPtLocPrimDev 0 p d)
    match pickPt d fun b => fgOf d b != fgOf d p with
    | some c => put .xltPtLocCopyV 0 1 (put .xltPtLocCopyDev 0 c d)
    | none => raise 0x0307 (leadOr0 d) [p] d

/-- POOL_READY: the placement region and the page map are zeroed on the trained placement devices, READY is set, and the zeroing of every
other block begins (R207, R208). -/
def execPoolReady (s : State) : Host.Outcome State Fault Refusal :=
  nextDyn s fun g d =>
    let p := rd d .xltPtLocPrimDev 0
    let c := rd d .xltPtLocCopyDev 0
    if rd d .xltPtLocReady 0 = 0 ∧ devUp d p ∧ (rd d .xltPtLocCopyV 0 = 0 ∨ devUp d c) ∧ 0 < rd d .xltPtLocBlocks 0 then
      let d := reservePt g p d
      let d := if rd d .xltPtLocCopyV 0 = 1 then reservePt g c d else d
      let d := put .xltPtLocReady 0 1 { d with xlt := { d.xlt with startAt := d.now } }
      forAll d.alloc.joined zeroFront d
    else d

/-- Some block of a tier still waits for zeros. -/
def tierZeroing (d : Dyn) (t : Nat) : Bool :=
  (tierDevs d t).any fun b => decide (aget 0 d.alloc.front b < nblk d b) || (devBlks d b).any fun x => blkState x.2 == 1

/-- Pages a policy could place now. -/
def polRoom (g : Cfg) (d : Dyn) (pol : Nat) : Nat :=
  let t := cg g .allocRpolTierPref pol
  let r (t : Nat) := tierFree d t * 128 + partialOf d t []
  r t + if cg g .allocRpolFallback pol = 1 then r (1 - t) else 0

/-- INITIAL_GRANT: a region's initial grant is placed once enough of its tier's blocks are FREE, LDs and regions in order;
a pool that cannot hold it places whole 256 MiB extents as far as they go, event 0x040E; a shared region is placed once, from
its first member LD's region policy, and one without a valid shared region not at all (R208, R209, R227). -/
def execInitialGrant (ld : Host) (region : Fin 8) (s : State) : Host.Outcome State Fault Refusal :=
  nextDyn s fun g d =>
    let pol := ld.val * 8 + region.val
    let me := (ld.val, region.val)
    let before := (initList g).takeWhile fun x => x != me
    if rd d .xltPtLocReady 0 = 0 ∨ (ctxGet d 8).busy ∨ !(initList g).contains me ∨ d.alloc.inited.contains me
        ∨ !(before.all fun x => d.alloc.inited.contains x) then d
    else
      let want := cg g .allocRpolInitBlocks pol
      let t := cg g .allocRpolTierPref pol
      let wait := tierZeroing d t || (cg g .allocRpolFallback pol == 1 && tierZeroing d (1 - t))
      let n := if want ≤ tierFree d t then want else if wait then 0 else min want (polRoom g d pol / 128)
      if want > tierFree d t ∧ wait then d
      else
        let d := { d with alloc := { d.alloc with inited := d.alloc.inited ++ [me] } }
        let d := if n < want then raise 0x040E (leadOr0 d) [ld, region, n] d else d
        let lo := cg g .allocRgnBase pol
        match (if n = 0 || srDead g d ld region then none else planGrant g ld pol (n * 128) lo d) with
        | none => d
        | some (runs, d) =>
          let sh := if cg g .allocRpolShared pol = 1 then srOf g ld region else none
          let tag := match sh with
            | some sr => srTag sr
            | none => d.alloc.nextTag
          let d := { d with alloc := { d.alloc with nextTag := d.alloc.nextTag + 1 } }
          let c : Ctx := ⟨true, 0, 0, 4096, ld, region, lo, n * 128, 0, runs, 3, tag, d.now, polNow g pol, targetsOf g ld region lo⟩
          poolLow g (journalPut (.grantReserved 8) (ctxWrite 8) (ctxSet 8 c d))

/-! ## Host states (R210 to R214, R548) -/

/-- STATE of a host (Table 5.5). -/
def hostState (d : Dyn) (h : Nat) : Nat := rd d .allocHostStsState h

/-- Set a host's state and the time it began. -/
def setHost (h st : Nat) (d : Dyn) : Dyn :=
  journalNote (put .allocHostStsState h st { d with alloc := { d.alloc with hostAt := aset 0 d.alloc.hostAt h d.now } })

/-- The mapped ranges of an LD: extents that hold capacity. -/
def hostExts (d : Dyn) (h : Nat) : List Ext := d.alloc.exts.filter fun e => e.ld == h && !e.going

/-- The ranges of an LD that grants in progress have written and that are no extents yet (R199, R212). -/
def ctxRanges (d : Dyn) (h : Nat) : List (Nat × Nat) :=
  d.alloc.ctxs.cells.flatMap fun x => if x.2.busy && decide (4 ≤ x.2.step) && decide (x.2.step < 7) then
    (x.2.targets.filter fun t => t.1 == h).map fun t => (t.2 + x.2.done, pieceLen x.1 x.2) else []

/-- A host enters QUARANTINE: migrations abort, unaccepted extents are released, every entry becomes QUARANTINED, release events
settle, the COH.FAILED bit clears, its link may train again, event 0x0405 (R205, R212, R252). -/
def enterQuarantine (g : Cfg) (h : Nat) (d : Dyn) : Dyn :=
  let d := putBit .cohFailedHost (h / 32) (h % 32) false (setHost h 2 d)
  let d := { d with port := { d.port with heldDown := d.port.heldDown.filter fun lp => hostPort g d h != some lp } }
  let d := migAbortRange g h 0 134217728 5 d
  let d := forAll ((hostExts d h).filter fun e => !e.took) (fun e d => releaseExt g e e.base e.pages d) d
  let l := (hostExts d h).filter fun e => !e.quar
  let d := { d with alloc := { d.alloc with exts := mapIf (fun e => l.any fun x => x.eid == e.eid) (fun e => { e with quar := true }) d.alloc.exts,
                                            relEvs := d.alloc.relEvs.filter fun x => x.host != h } }
  let d := forAll (l.map (fun e => (e.base, e.pages)) ++ ctxRanges d h) (fun e d => ptWriteEach h e.1 e.2
    (fun _ x => if x.state = 1 ∨ x.state = 2 then { x with state := 3 } else x) true true (.quarantine h) d) d
  raise 0x0405 (leadOr0 d) [h] d

/-- A host enters GRACE, or with GRACE_S 0 QUARANTINE at once; event 0x0404 (R210). -/
def enterGrace (g : Cfg) (h : Nat) (d : Dyn) : Dyn :=
  if ldPages g h = 0 ∨ hostState d h ≠ 0 then d
  else
    let d := raise 0x0404 (leadOr0 d) [h] (setHost h 1 d)
    if cg g .allocCtlGraceS 0 = 0 then enterQuarantine g h d else d

/-- The end of QUARANTINE: ACTIVE with the link up, else a new GRACE (R548). -/
def leaveQuarantine (g : Cfg) (h : Nat) (d : Dyn) : Dyn :=
  let d := raise 0x0406 (leadOr0 d) [h] (setHost h 0 d)
  if hostUp g d h then d else enterGrace g h d

/-- Release the quarantined extents (R548). -/
def reclaimHost (g : Cfg) (h : Nat) (d : Dyn) : Dyn :=
  leaveQuarantine g h (forAll ((hostExts d h).filter fun e => e.quar) (fun e d => releaseExt g e e.base e.pages d) d)

/-- RESTORE: entries MAPPED again and shootdowns, after which each extent's Add Capacity event follows (R214). -/
def restoreHost (g : Cfg) (h : Nat) (d : Dyn) : Dyn :=
  let l := (hostExts d h).filter fun e => e.quar
  let d := { d with alloc := { d.alloc with exts := mapIf (fun e => l.any fun x => x.eid == e.eid) (fun e => { e with quar := false, took := false, byAt := 0 }) d.alloc.exts } }
  let d := forAll l (fun e d => ptWriteEach h e.base e.pages
    (fun _ x => if x.state = 3 then { x with state := 1 } else x) true true (.restore h e.eid) d) d
  leaveQuarantine g h d

/-- A host's link returns in GRACE with no failure declared: ACTIVE (R90, R211). -/
def hostBack (h : Nat) (d : Dyn) : Dyn :=
  if hostState d h = 1 ∧ !bitAt (rd d .cohFailedHost (h / 32)) (h % 32) then setHost h 0 d else d

/-- GRACE_EXPIRY: GRACE lasted GRACE_S and the host passes to QUARANTINE (R210, R212). -/
def execGraceExpiry (h : Host) (s : State) : Host.Outcome State Fault Refusal :=
  nextDyn s fun g d =>
    if hostState d h = 1 ∧ aget 0 d.alloc.hostAt h + cg g .allocCtlGraceS 0 * 1000000000 ≤ d.now then enterQuarantine g h d
    else d

/-- RECLAIM_EXPIRY: QUARANTINE lasted RECLAIM_S and the quarantined extents are released; 0 lasts without end (R210, R548). -/
def execReclaimExpiry (h : Host) (s : State) : Host.Outcome State Fault Refusal :=
  nextDyn s fun g d =>
    let t := cg g .allocCtl2ReclaimS 0
    if hostState d h = 2 ∧ t ≠ 0 ∧ aget 0 d.alloc.hostAt h + t * 1000000000 ≤ d.now then reclaimHost g h d else d

/-! ## Standby (R218 to R220, R490) -/

/-- JOURNAL_RECORD: the standby die (0 to 3), or the one of package p (4 + p), receives a journal record and acknowledges it; a duplicate is
answered again (R218, R358). -/
def execJournalRecord (jid : Nat) (at0 : Fin 12) (s : State) : Host.Outcome State Fault Refusal :=
  nextDyn s fun _ d => if d.alloc.journal.any fun x => x.1 == jid && x.2.1.contains at0.val then emit (.journalAck jid at0) d else d

/-- STANDBY_RESYNC: a new standby has the whole allocator state, and journalling resumes (R220). -/
def execStandbyResync (s : State) : Host.Outcome State Fault Refusal :=
  nextDyn s fun _ d =>
    if rd d .allocMirStsSyncing 0 = 1 then put .allocMirStsSyncing 0 0 (put .allocMirStsMirrored 0 1 d) else d

/-- ALLOCATOR_REBUILT: the new lead has rebuilt allocator state after lead and standby failed together; admission resumes
(R490). -/
def execAllocatorRebuilt (s : State) : Host.Outcome State Fault Refusal :=
  nextDyn s fun _ d => { d with alloc := { d.alloc with rebuild := false } }

end Machine
end Sys2Proof
end

