-- ==== Sys2Proof/Machine/Lost.lean ====
section
/-! DEFINITION. Losing a backend device (spec/04, spec/05): twins made primary, poisoned pages, placement copies, grants placed
again, drains; and what follows a placement write, a shootdown or a journal acknowledgement. -/

namespace Sys2Proof
namespace Machine

/-! ## Pages of a lost device (R154 to R160) -/

/-- A region loses its twins: degraded, event 0x0304 (R153 to R155). -/
def degradeTell (g : Cfg) (ld page : Nat) (d : Dyn) : Dyn :=
  let k := (ld, pageRegion g ld page)
  let d := if d.xlt.degraded.contains k then d else { d with xlt := { d.xlt with degraded := d.xlt.degraded ++ [k] } }
  raise 0x0304 (leadOr0 d) [ld, k.2] d

/-- A page belongs to a piece of a grant that has not reached step 7 (R216). -/
def inCtx (d : Dyn) (ld page : Nat) : Bool :=
  (d.alloc.ctxs.cells.map Prod.snd).any fun c => c.busy && decide (c.step < 7) && c.host == ld
    && decide (c.base + c.done ≤ page) && decide (page < c.base + c.pages)

/-- A slot is in FLIP for a page, whose flip completes first (Table 4.8). -/
def inFlip (d : Dyn) (ld page : Nat) : Bool :=
  (List.range 64).any fun i => migState d i == 5 && migLd d i == ld && migPage d i == page

/-- The first pages of the runs that hold capacity and pass a test of entry: LD, page and entry. -/
def runHeads (d : Dyn) (p : PtEnt → Bool) : List (Nat × Nat × PtEnt) :=
  d.xlt.pt.cells.filterMap fun c =>
    let page := c.1 % 2 ^ 27
    if c.2.state ≠ 0 ∧ !c.2.poison ∧ page % 2 ^ runLog c.2.run = 0 ∧ p c.2 ∧ !inCtx d (c.1 / 2 ^ 27) page
        ∧ !inFlip d (c.1 / 2 ^ 27) page
    then some (c.1 / 2 ^ 27, page, c.2) else none

/-- Regions named once each. -/
def regionsOnce (g : Cfg) (l : List (Nat × Nat × PtEnt)) : List (Nat × Nat) :=
  l.foldl (fun a x => if a.any fun y => y.1 == x.1 && pageRegion g y.1 y.2 == pageRegion g x.1 x.2.1 then a else a ++ [(x.1, x.2.1)]) []

/-- Contiguous ranges of pages of one LD and reason: LD, first page, pages, reason. -/
def pageRanges : List (Nat × Nat × Nat × Nat) → List (Nat × Nat × Nat × Nat)
  | [] => []
  | x :: t =>
    match pageRanges t with
    | y :: ys => if x.1 = y.1 ∧ x.2.1 + x.2.2.1 = y.2.1 ∧ x.2.2.2 = y.2.2.2
        then (x.1, x.2.1, x.2.2.1 + y.2.2.1, x.2.2.2) :: ys else x :: y :: ys
    | [] => [x]

/-- The twin becomes primary in a run (R154). -/
def twinPrimary (dev ld page : Nat) (e : PtEnt) (d : Dyn) : Dyn :=
  let t := twGet d e.twin
  let tier := rd d .xltBedevTier t.dev
  let d := ptWriteRange ld page (2 ^ runLog e.run)
    (fun p x => { x with dev := t.dev, bpage := t.bpage + (p - page), twin := 0, tier := tier }) true (.poison dev 0) d
  twRelease e.twin d

/-- Handle every page of a lost device: usable twins become primary, other pages are poisoned with their records, twins on
it are dropped (R154, R155, R156, R158, R160). `srcs` are the pages whose migration lost its source. -/
def lostPages (g : Cfg) (dev : Nat) (srcs : List (Nat × Nat)) (d : Dyn) : Dyn :=
  let on := runHeads d fun e => e.dev == dev
  let twinned (e : PtEnt) : Bool := let t := twGet d e.twin; t.v && devOk d t.dev
  let up := on.filter fun x => twinned x.2.2
  let dead := on.filter fun x => !twinned x.2.2
  let lone := (runHeads d fun e => (twGet d e.twin).v && (twGet d e.twin).dev == dev).filter fun x => x.2.2.dev != dev
  let d := forAll up (fun x d => twinPrimary dev x.1 x.2.1 x.2.2 d) d
  let reason (x : Nat × Nat × PtEnt) : Nat :=
    if srcs.contains (x.1, x.2.1) then 4 else if (twGet d x.2.2.twin).v then 2 else 1
  let recs := pageRanges (dead.map fun x => (x.1, x.2.1, 2 ^ runLog x.2.2.run, reason x))
  let d := forAll dead (fun x d => ptWriteRange x.1 x.2.1 (2 ^ runLog x.2.2.run) (fun _ e => { e with poison := true }) true
    (.poison dev (reason x)) d) d
  let d := forAll recs (fun r d => poisonRecord r.1 r.2.1 r.2.2.1 r.2.2.2 dev d) d
  let d := forAll lone (fun x d => twRelease x.2.2.twin
    (ptWriteRange x.1 x.2.1 (2 ^ runLog x.2.2.run) (fun _ e => { e with twin := 0 }) true (.poison dev 0) d)) d
  forAll (regionsOnce g (up ++ lone)) (fun x d => degradeTell g x.1 x.2 d) d

/-- Requests that the lost device still owed an answer: reads go to the twin, or are answered with poison; a write counts as
completed there (R85, R154, R158). -/
def lostFlights (g : Cfg) (dev : Nat) (d : Dyn) : Dyn :=
  forAll (d.flights.filter fun f => f.devs.contains dev && (decide (f.req.id < 2 ^ 79) || isPoisonWrite f.req.id)) (fun f d =>
    let left := f.devs.filter fun x => x != dev
    if f.req.kind = .memWr then
      if left.isEmpty then answer f.req (memAnswer f.req.kind) d else setFlight f.req.id (fun x => { x with devs := left }) d
    else match f.page with
      | some (ld, page) =>
        let e := ptGet d ld page
        if !e.poison && e.state != 0 && devOk d e.dev then
          let a := e.bpage * 2097152 + f.req.addr % 2097152
          let d := setFlight f.req.id (fun x => { x with devs := [e.dev], addr := a }) d
          stage f.req.lport ⟨reqPkt g d f (rd d .xltBedevLport e.dev) (rd d .xltBedevLdId e.dev) a 0 false, none, false⟩ d
        else answer f.req (memAnswer f.req.kind) d
      | none => answer f.req (memAnswer f.req.kind) d) d

/-! ## Grants that lose a device (R202, R216) -/

/-- Stop waiting for the writes, shootdowns and journal records of a context's piece. -/
def ctxForget (k : Nat) (d : Dyn) : Dyn :=
  let un (c : Cont) : Cont := if c = .grant k ∨ c = .grantWritten k then .nothing else c
  { d with xlt := { d.xlt with pws := d.xlt.pws.map (fun w => { w with cont := un w.cont }),
                               shoots := d.xlt.shoots.map fun x => { x with cont := un x.cont } },
           alloc := { d.alloc with journal := d.alloc.journal.map fun j => (j.1, j.2.1, un j.2.2) } }

/-- Carry a run's twin over to the runs that replace it: the first keeps the index; without a free index a run has no twin and its region is
degraded (R216, R547). -/
def carryTwin (g : Cfg) (ld : Nat) (p : Place) : List Place → Bool → Dyn → List Place × Dyn
  | [], _, d => ([], d)
  | q :: t, first, d =>
    if p.twin = 0 then (q :: t, d)
    else if first then
      let r := carryTwin g ld p t false d
      ({ q with twin := p.twin, tdev := p.tdev, tpage := p.tpage } :: r.1, r.2)
    else match twFree d with
      | some k =>
        let tp := p.tpage + (q.lo - p.lo)
        let r := carryTwin g ld p t false (twPut k ⟨true, p.tdev, tp⟩ d)
        ({ q with twin := k, tdev := p.tdev, tpage := tp } :: r.1, r.2)
      | none =>
        let r := carryTwin g ld p t false (degrade g ld q.lo (zeroRange p.tdev (p.tpage + (q.lo - p.lo)) q.n d))
        (q :: r.1, r.2)

/-- Place one run of a grant again if the lost device held it or its twin; none without capacity. A twin goes to a failure group that none of
the grant's primary devices uses, `grps` (R194, R216). -/
def replaceRun (g : Cfg) (ld pol dev : Nat) (grps : List Nat) (p : Place) (d : Dyn) : Option (List Place × Dyn) :=
  if p.dev = dev then
    let keeps := p.twin != 0 && p.tdev != dev
    let d := if p.twin ≠ 0 ∧ !keeps then twPut p.twin tw0 d else d
    match planPages g pol (if keeps then [fgOf d p.tdev] else []) p.n p.lo d with
    | none => none
    | some (runs, _, d) =>
      if keeps then some (carryTwin g ld p runs true d)
      else if twinOn g pol then some (placeTwins g ld (grps ++ runs.map fun q => fgOf d q.dev) runs [] none none d)
      else some (runs, d)
  else if p.twin ≠ 0 ∧ p.tdev = dev then
    some (placeTwins g ld (fgOf d p.dev :: grps) [{ p with twin := 0, tdev := 0, tpage := 0 }] [] none none (twPut p.twin tw0 d))
  else some ([p], d)

/-- Place every run of the pieces still to come again. -/
def replaceRuns (g : Cfg) (ld pol dev lo : Nat) (grps : List Nat) : List Place → Dyn → Option (List Place × Dyn)
  | [], d => some ([], d)
  | p :: t, d =>
    match (if p.lo < lo then some ([p], d) else replaceRun g ld pol dev grps p d) with
    | none => none
    | some (a, d) => match replaceRuns g ld pol dev lo grps t d with
      | none => none
      | some (b, d) => some (a ++ b, d)

/-- The failure groups of a grant's primary devices but the lost one. -/
def ctxGroups (d : Dyn) (c : Ctx) (dev : Nat) : List Nat := ((c.runs.filter fun p => p.dev != dev).map fun p => fgOf d p.dev).dedup

/-- The runs of a context with those of a lost device placed again, by the policy of its acceptance (R188, R216). -/
def ctxReplace (g : Cfg) (dev : Nat) (c : Ctx) (d : Dyn) : Option (List Place × Dyn) :=
  replaceRuns (ctxCfg g c) c.host (c.host * 8 + c.region) dev (c.base + c.done) (ctxGroups d c dev) c.runs d

/-- A grant without capacity for its lost pages fails: what its piece placed is released, no later piece runs, the result is
NO_CAP with the range granted so far, once journalled (R202, R216, R218). -/
def ctxFail (g : Cfg) (k : Option Nat) (c : Ctx) (d : Dyn) : Dyn :=
  let lo := c.base + c.done
  let mine := c.runs.filter fun p => decide (lo ≤ p.lo)
  let wrote := decide (4 ≤ c.step) && k.isSome
  let n := min 32768 (c.pages - c.done)
  let d := match k with
    | some k => ctxEnd k (ctxForget k d)
    | none => d
  let d := if wrote then
      ptWriteRange c.host lo n (fun _ _ => pt0) true .nothing
        (forAll mine (fun p d => zeroRange p.dev p.bpage p.n
          (if p.twin ≠ 0 then zeroRange p.tdev p.tpage p.n (twPut p.twin tw0 d) else d)) d)
    else unplace mine d
  if c.slice = 4096 then raise 0x040E (leadOr0 d) [c.host, c.region, c.done / 128] d
  else
    let data := [c.base * 2097152, c.done * 2097152, c.tag]
    journalPut (.result c.ring c.idx 1 data) (entDone g c.ring c.idx 1 0 data) (raise 0x0401 (leadOr0 d) [c.host, c.slice, 1] d)

/-- A context with runs on a lost device: those of a piece not past step 7 are placed again, and written again where they were; without
capacity the grant fails, a piece that has reached step 7 with its event still to come staying granted (R202, R216). -/
def ctxLost (g : Cfg) (dev : Nat) (k : Nat) (d : Dyn) : Dyn :=
  let c := ctxGet d k
  let hit := c.runs.any fun p => decide (c.base + c.done ≤ p.lo) && (p.dev == dev || (p.twin != 0 && p.tdev == dev))
  if c.busy && decide (c.step < 7) && hit then
    match ctxReplace g dev c d with
    | none => ctxFail g (some k) c d
    | some (runs, d) =>
      let d := ctxSet k { c with runs := runs } d
      if 4 ≤ c.step then ctxWrite k (ctxForget k d) else d
  else if c.busy && hit then
    match ctxReplace g dev c d with
    | none => ctxFail g (some k) { c with step := 3 } (forAll (newExts d c) (fun e d => offerExt g e.eid d) d)
    | some (runs, d) => ctxSet k { c with runs := runs } d
  else d

/-- A context between two pieces with runs on a lost device. -/
def pausedLost (g : Cfg) (dev : Nat) (c : Ctx) (d : Dyn) : Dyn :=
  match ctxReplace g dev c d with
  | none => ctxFail g none c { d with alloc := { d.alloc with paused := dropOne c d.alloc.paused } }
  | some (runs, d) =>
    { d with alloc := { d.alloc with paused := mapIf (fun x => x == c) (fun x => { x with runs := runs }) d.alloc.paused } }

/-! ## Drains (R140, R217) -/

/-- A page of a device must leave it: the device drains, or the page lies where a new second copy will. -/
def mustLeave (g : Cfg) (d : Dyn) (dev bpage : Nat) : Bool :=
  d.alloc.drains.contains dev || (d.alloc.moveCopy == some dev && decide (bpage / 128 < ptBlocks g))

/-- Ask for a migration of one page, a quarantined one too, or a new twin for it, off a device that it must leave (R140, R217). -/
def drainOne (g : Cfg) (ld page : Nat) (d : Dyn) : Dyn :=
  let e := ptGet d ld page
  let die := devDie d e.dev
  if (e.state ≠ 1 ∧ e.state ≠ 3) ∨ e.poison ∨ migBusy d ld page ∨ 16 ≤ migLoad d die then d
  else
    let t := twinOf d e page
    if mustLeave g d e.dev e.bpage then
      match (match migDst d ld page e.tier with
        | some x => some x
        | none => migDst d ld page (1 - e.tier)) with
      | some x => migAsk g ld page x.1 x.2 false true none d
      | none => d
    else match t with
      | none => d
      | some t =>
        if mustLeave g d t.1 t.2 then
          let other (k : Nat) := (tierDevs d k).filter fun b => fgOf d b != fgOf d e.dev && b != t.1
          match (match singlePg d (other e.tier) with
            | some x => some x
            | none => singlePg d (other (1 - e.tier))), twFree d with
          | some x, some k => migAsk g ld page x.1 x.2 true true none (twPut k ⟨true, x.1, x.2⟩ d)
          | _, _ => d
        else d

/-- Keep drains going: every page on a draining device asks for its move (R217). -/
def drainKick (g : Cfg) (d : Dyn) : Dyn :=
  if d.alloc.drains.isEmpty && d.alloc.moveCopy.isNone then d
  else forAll (d.xlt.pt.cells.map Prod.fst) (fun k d => drainOne g (k / 2 ^ 27) (k % 2 ^ 27) d) d

/-! ## Placement copies (R139, R140) -/

/-- Take a device as the new COPY_DEV: FREE and ZEROING blocks at its DPA 0 leave the pool at once, the others as their pages have been
drained, which begins here; none raises 0x0307 (R140). -/
def newCopy (g : Cfg) (d : Dyn) : Dyn :=
  let p := rd d .xltPtLocPrimDev 0
  match pickPt d fun b => fgOf d b != fgOf d p && d.alloc.joined.contains b && b != p with
  | none => raise 0x0307 (leadOr0 d) [p] { d with alloc := { d.alloc with moveCopy := none } }
  | some c =>
    let d := put .xltPtLocCopyDev 0 c { d with alloc := { d.alloc with moveCopy := some c } }
    let d := forAll (List.range (ptBlocks g)) (fun k d =>
      let b := blkGet d c k
      blkSet c k (if b.used = 0 then { b with resv := true, leave := false } else { b with leave := true }) d) d
    drainKick g (joinStep c (ptBlocks g) d)

/-- A placement device is lost: the copy becomes primary, and another copy is sought (R139, R140). -/
def ptLost (g : Cfg) (dev : Nat) (d : Dyn) : Dyn :=
  let p := rd d .xltPtLocPrimDev 0
  let c := rd d .xltPtLocCopyDev 0
  let cv := rd d .xltPtLocCopyV 0
  if rd d .xltPtLocBlocks 0 = 0 then d
  else if dev = p ∧ cv = 1 then newCopy g (put .xltPtLocCopyV 0 0 (put .xltPtLocPrimDev 0 c d))
  else if dev = c ∧ (cv = 1 ∨ d.alloc.moveCopy = some dev) ∧ dev ≠ p then newCopy g (put .xltPtLocCopyV 0 0 d)
  else d

/-! ## Losing a device (R136, R216) -/

/-- Assignments that lose their source or destination are dropped; a ring's MIGRATE ends MIG_ABORT. -/
def lostAssigns (g : Cfg) (dev : Nat) (d : Dyn) : Dyn :=
  forAll d.hlth.assigns (fun a d =>
    let src := (ptGet d a.ld a.page).dev == dev
    if src || a.dstDev == dev then
      let d := { d with hlth := { d.hlth with assigns := dropOne a d.hlth.assigns } }
      let d := if a.rebuild then twRelease (twIdxOf d a.dstDev a.dstPage) d else d
      let d := arbFree a.act (if a.dstDev = dev then d else unusePages a.dstDev a.dstPage 1 d)
      match a.ring with
      | some x => entDone g x.1 x.2 0x17 (if src then 3 else 4) [pageTier d a.ld a.page] d
      | none => d
    else d) d

/-- A backend device is lost (R136, R154 to R158, R176, R216). -/
def devLost (g : Cfg) (dev : Nat) (d : Dyn) : Dyn :=
  if devOk d dev then
    let free := ((devBlks d dev).filter fun x => blkState x.2 != 0 && blkState x.2 != 4).length
    let d := put .xltBedevLost dev 1 d
    let d := if d.alloc.joined.contains dev then raise 0x0408 (leadOr0 d) [dev, free] d else d
    let srcs := ((List.range 64).filter fun i => migState d i != 0 && decide (migState d i < 5) && (migGet d i).srcDev == dev).map
      fun i => (migLd d i, migPage d i)
    let d := forAll (List.range 64) (fun i d =>
      if migState d i = 0 then d
      else if (migGet d i).srcDev = dev then migAbort g i 3 d
      else if (migGet d i).dstDev = dev then migAbort g i 4 d else d) d
    let d := ptLost g dev (lostAssigns g dev d)
    let d := lostFlights g dev (lostPages g dev srcs d)
    let d := forAll (List.range 9) (fun k d => ctxLost g dev k d) d
    let d := forAll d.alloc.paused (fun c d => if c.runs.any fun p => p.dev == dev || p.tdev == dev then pausedLost g dev c d else d) d
    freeLostDev dev (poolLow g d)
  else d

/-! ## What follows a write, a shootdown or an acknowledgement -/

/-- A loss that came during a flip is handled against the new entry: of the page's device and of its twin's (R155, R176). -/
def lostAgain (g : Cfg) (ld page : Nat) (d : Dyn) : Dyn :=
  let e := ptGet d ld page
  let t := twGet d e.twin
  let l := (if e.state = 0 ∨ e.poison ∨ devOk d e.dev then [] else [e.dev]) ++ (if t.v && !devOk d t.dev then [t.dev] else [])
  forAll l (fun b d => freeLostDev b (lostPages g b [] d)) d

/-- Run what waited (R139, R150, R171, R199, R204, R214, R218). -/
def contRun (g : Cfg) (k : Cont) (d : Dyn) : Dyn :=
  match k with
  | .nothing => d
  | .migFlip die slot =>
    let i := die * 16 + slot
    drainKick g (lostAgain g (migLd d i) (migPage d i) (migFinish g die slot d))
  | .twinSet die slot =>
    let i := die * 16 + slot
    let d := twinCheck g (migLd d i) (migPage d i) (migFinish g die slot d)
    drainKick g (lostAgain g (migLd d i) (migPage d i) d)
  | .grant c => ctxShot c d
  | .release eid _ _ => drainKick g (releaseFinish g eid d)
  | .poison dev _ => freeLostDev dev d
  | .quarantine _ => d
  | .restore h eid => journalPut (.offer h eid) (offerOpen g eid) d
  | .offer _ eid => offerOpen g eid d
  | .result n idx st data => entDone g n idx st 0 data d
  | .freePage dev page n => drainKick g (pagesFree g dev page n d)
  | .grantReserved c => if (ctxGet d c).busy && (ctxGet d c).step == 3 then ctxWrite c d else d
  | .grantWritten c => ctxWritten c d

/-- PLACEMENT_WRITE_DONE: both copies acknowledge a placement write; a remap is followed by its shootdown (R139, R150). -/
def execPlacementWriteDone (wid : Nat) (s : State) : Host.Outcome State Fault Refusal :=
  nextDyn s fun g d =>
    match d.xlt.pws.find? fun w => w.wid == wid with
    | none => d
    | some w =>
      let d := { d with xlt := { d.xlt with pws := dropOne w d.xlt.pws } }
      if w.remap then shootsFor w d else contRun g w.cont d

/-- Some of those that mirror the allocator have acknowledged a record, or are no longer waited for: the record they were the last of makes
its change visible (R218, R220). -/
def journalHeard (g : Cfg) (p : Nat → Bool) (x : Nat × List Nat × Cont) (d : Dyn) : Dyn :=
  let left := x.2.1.filter fun w => !p w
  if left.isEmpty then contRun g x.2.2 (xchClose x.1 { d with alloc := { d.alloc with journal := dropOne x d.alloc.journal } })
  else { d with alloc := { d.alloc with journal := mapIf (fun y => y == x) (fun y => (y.1, left, y.2.2)) d.alloc.journal } }

/-- No record waits any more for those named. -/
def journalDrop (g : Cfg) (p : Nat → Bool) (d : Dyn) : Dyn :=
  forAll (d.alloc.journal.filter fun x => x.2.1.any p) (fun x d => journalHeard g p x d) d

/-- A shootdown has been answered by one of those it was sent to, or need not wait for it any more; its remap is complete with the last of its
group (R150, R199). -/
def shootHeard (g : Cfg) (x : Shoot) (who : Nat) (d : Dyn) : Dyn :=
  let got := bitSet x.got who
  if (got &&& x.need) = x.need then
    let d := xchClose x.rid { d with xlt := { d.xlt with shoots := d.xlt.shoots.filter fun y => y.rid != x.rid } }
    if d.xlt.shoots.any fun y => y.grp == x.grp then d else contRun g x.cont d
  else { d with xlt := { d.xlt with shoots := mapIf (fun y => y.rid == x.rid) (fun y => { y with got := got }) d.xlt.shoots } }

/-- A package is out of reach: journal records, shootdowns, watches and holds wait for it no more (R150, R174, R218, R398). -/
def peerGone (g : Cfg) (p : Nat) (d : Dyn) : Dyn :=
  let d := journalDrop g (fun w => w == 4 + p) d
  let d := forAll d.xlt.shoots (fun x d => match d.xlt.shoots.find? fun y => y.rid == x.rid with
    | some y => if bitAt y.need (4 + p) && !bitAt y.got (4 + p) then shootHeard g y (4 + p) d else d
    | none => d) d
  forAll (List.range 64) (fun i d => holdSweep g i (armedCheck g i d)) d

/-- SHOOTDOWN_ANSWER: a die (0 to 3), which the shootdown has run at, or package (4 + p) answers; a shootdown is complete when every one has, the
remap when all its shootdowns are (R150, R151, R174, R199). -/
def execShootdownAnswer (rid : Nat) (who : Fin 12) (s : State) : Host.Outcome State Fault Refusal :=
  nextDyn s fun g d =>
    match d.xlt.shoots.find? fun x => x.rid == rid with
    | none => d
    | some x => if who.val < 4 ∧ !bitAt x.ran who then d else shootHeard g x who d

/-- JOURNAL_ACK: the acknowledgement of the standby die (0 to 3) or of package p's (4 + p); the last one makes a change visible (R218). -/
def execJournalAck (jid : Nat) (src : Fin 12) (s : State) : Host.Outcome State Fault Refusal :=
  nextDyn s fun g d =>
    match d.alloc.journal.find? fun x => x.1 == jid && x.2.1.contains src.val with
    | none => d
    | some x => journalHeard g (fun w => w == src.val) x d

/-- SECOND_COPY_BUILD: once the blocks it needs are RESERVED, the second copy is built and COPY_V set (R140). -/
def execSecondCopyBuild (s : State) : Host.Outcome State Fault Refusal :=
  nextDyn s fun g d =>
    match d.alloc.moveCopy with
    | none => d
    | some c =>
      if devOk d c ∧ (List.range (ptBlocks g)).all fun k => (blkGet d c k).resv then
        put .xltPtLocCopyV 0 1 (reservePt g c { d with alloc := { d.alloc with moveCopy := none } })
      else d

/-- A device bound by hot add may become the second copy (R140). -/
def copyWanted (g : Cfg) (d : Dyn) : Dyn :=
  if rd d .xltPtLocReady 0 = 1 ∧ rd d .xltPtLocCopyV 0 = 0 ∧ d.alloc.moveCopy = none
      ∧ (pickPt d fun b => fgOf d b != fgOf d (rd d .xltPtLocPrimDev 0) && d.alloc.joined.contains b
          && b != rd d .xltPtLocPrimDev 0).isSome then newCopy g d else d

end Machine
end Sys2Proof
end

