-- ==== Sys2Proof/Machine/Coh.lean ====
section
/-! DEFINITION. Coherence for shared memory (spec/06): keys and homes, the handling of requests at a home slice, owner data,
RETRY and WAKE, evictions, and the failure of a host. -/

namespace Sys2Proof
namespace Machine

/-! ## Keys and homes (R228, R229) -/

/-- The XOR of the ten 4-bit groups of a key. -/
def keyFold (key : Nat) : Nat := (List.range 10).foldl (fun x i => x ^^^ bits key (4 * i) 4) 0

/-- The home slice of a key (R229). -/
def homeSlice (key : Nat) : Nat := let s := keyFold key; (3 * (s / 2) + key % 3) * 2 + s % 2

/-- The number of a key's home slice as messages carry it: 0 to 47 on this package; that of slice s of package p is
48 (1 + p + 8 e) + s with e the exit die of the route to p (R226, R229, R395). -/
def homeNo (g : Cfg) (d : Dyn) (key : Nat) : Nat :=
  let pkg := cg g .cohSrCfgHomePkg (key / 2 ^ 34)
  if pkg = rd d .dieDieIdPkgId 0 then homeSlice key else 48 * (1 + pkg + 8 * cg g .gklSysRouteExitDie pkg) + homeSlice key

/-- The clock of a slice's cluster is stopped: messages to the slice wait (R38, R39). -/
def sliceStopped (d : Dyn) (sl : Nat) : Bool := rtrStopped d (cluRouter (sl / 2))

/-- The set of a key (R229). -/
def keySet (key : Nat) : Nat := key % 16384 ^^^ bits key 14 14
/-- The tag of a key (R229). -/
def keyTag (key : Nat) : Nat := key / 16384

/-- The shared key of an address of an LD, when its region holds a valid shared region (R226, R228). -/
def sharedKey (g : Cfg) (d : Dyn) (ld addr : Nat) : Option Nat :=
  match regionOf g ld addr with
  | none => none
  | some r => match srOf g ld r with
    | some i => if srValid g d i ∧ cg g .allocRpolShared (ld * 8 + r) = 1 then
        some (i * 2 ^ 34 + (addr - cg g .allocRgnBase (ld * 8 + r) * 2097152) / 64) else none
    | none => none

/-- The hosts that are members of the shared region of a key. -/
def keyMembers (g : Cfg) (key : Nat) : List Nat := (srMembers g (key / 2 ^ 34)).map Prod.fst

/-- A host is marked failed (R251). -/
def hostFailed (d : Dyn) (h : Nat) : Bool := bitAt (rd d .cohFailedHost (h / 32)) (h % 32)

/-! ## The directory (Tables 6.1 and 6.2) -/

/-- A slice that holds nothing. -/
def dir0 : DirSt := ⟨arrEmpty, [], [], [], [], 0, []⟩
/-- The state of a slice. -/
def dirGet (d : Dyn) (sl : Nat) : DirSt := aget dir0 d.coh.dirs sl
/-- Replace the state of a slice. -/
def dirSet (sl : Nat) (x : DirSt) (d : Dyn) : Dyn := { d with coh := { d.coh with dirs := aset dir0 d.coh.dirs sl x } }

/-- The valid way of a line. -/
def wayOf (x : DirSt) (key : Nat) : Option DirWay :=
  (aget [] x.sets (keySet key)).find? fun w => w.tag == keyTag key && w.state != 0 && !w.bad

/-- The holders of a way; a coarse way names the hosts of R232. -/
def holdersOf (g : Cfg) (d : Dyn) (key : Nat) (w : DirWay) : List Nat :=
  if w.crs then (keyMembers g key).filter fun h => bitAt w.grp (h / 4) && !hostFailed d h else w.ptrs

/-- Remove the way of a line. -/
def wayDrop (key : Nat) (x : DirSt) : DirSt :=
  let k := keySet key
  { x with sets := aset [] x.sets k ((aget [] x.sets k).filter fun w => !(w.tag == keyTag key && !w.bad)) }

/-- The lowest free way number of a set. -/
def freeWay (l : List DirWay) : Option Nat := firstFrom (fun i => !(l.any fun w => w.way == i)) 0 16

/-- Write the way of a line as the most recently used of its set. -/
def wayPut (key : Nat) (w : DirWay) (x : DirSt) : DirSt :=
  let x := wayDrop key x
  let k := keySet key
  { x with sets := aset [] x.sets k (w :: aget [] x.sets k) }

/-- A line is used: its way becomes the most recently used of its set (R248). -/
def touch (key : Nat) (x : DirSt) : DirSt :=
  match wayOf x key with
  | some w => wayPut key w x
  | none => x

/-- The pointers of a line with a host added; a fifth host makes it coarse (R231). -/
def addSharer (h : Nat) (w : DirWay) : DirWay :=
  if w.crs then { w with grp := bitSet w.grp (h / 4) }
  else if w.ptrs.contains h then w
  else if w.ptrs.length < 4 then { w with ptrs := w.ptrs ++ [h] }
  else { w with crs := true, ptrs := [], grp := (w.ptrs ++ [h]).foldl (fun m x => bitSet m (x / 4)) 0 }

/-- Set a line to O of one host (R231). -/
def setOwner (key h : Nat) (x : DirSt) : DirSt :=
  let l := aget [] x.sets (keySet key)
  let n := match wayOf x key with
    | some w => some w.way
    | none => freeWay l
  match n with
  | some i => wayPut key ⟨i, 2, keyTag key, false, [h], 0, false⟩ x
  | none => x

/-- Set a line to S of some hosts. -/
def setShared (key : Nat) (hs : List Nat) (x : DirSt) : DirSt :=
  let l := aget [] x.sets (keySet key)
  let n := match wayOf x key with
    | some w => some w.way
    | none => freeWay l
  match n with
  | some i => wayPut key (hs.foldl (fun w h => addSharer h w) ⟨i, 1, keyTag key, false, [], 0, false⟩) x
  | none => x

/-- Add a host to an S line, or make the line S of that host. -/
def joinShared (key h : Nat) (x : DirSt) : DirSt :=
  match wayOf x key with
  | some w => if w.state = 1 then wayPut key (addSharer h w) x else setShared key [h] x
  | none => setShared key [h] x

/-- Remove a host from a line: an S line without sharers and its O line become I; group bits stay (R236, R251). -/
def dropHolder (key h : Nat) (x : DirSt) : DirSt :=
  match wayOf x key with
  | none => x
  | some w =>
    if w.crs || !w.ptrs.contains h then x
    else
      let l := w.ptrs.filter fun y => y != h
      if l.isEmpty then wayDrop key x else wayPut key { w with ptrs := l } x

/-! ## Open lines and the tracker (R243 to R246) -/

/-- The open line of a key. -/
def openOf (x : DirSt) (key : Nat) : Option OpenLine := x.opens.find? fun o => o.key == key

/-- Change the open line of a key. -/
def setOpen (key : Nat) (f : OpenLine → OpenLine) (x : DirSt) : DirSt := { x with opens := mapIf (fun o => o.key == key) f x.opens }

/-- Shared tracker entries in use. -/
def shrUsed (x : DirSt) : Nat :=
  x.opens.foldl (fun n o => n + (if o.q.isSome && !o.rsv then 1 else 0) + (o.chain.filter fun c => !c.2).length) 0

/-- Sources whose reserved entry is in use. -/
def rsvUsed (x : DirSt) : List Nat :=
  x.opens.flatMap fun o =>
    (match o.q with
      | some q => if o.rsv then [q.src.val] else []
      | none => []) ++ (o.chain.filter fun c => c.2).map fun c => c.1.src.val

/-- CHAIN_MAX; 0 acts as 1. -/
def chainMax (g : Cfg) : Nat := max 1 (cg g .cohCtlChainMax 0)

/-- Note the peak of tracker use. -/
def dirPeak (sl : Nat) (d : Dyn) : Dyn :=
  let x := dirGet d sl
  peak .dirTrkStsPeak sl (shrUsed x + (rsvUsed x).length) d

/-- Refuse a request with RETRY: the source is owed, once more for each RETRY, for the spec ends the mark nowhere (R245 to R247;
DESIGN CHOICE, assumption 150). -/
def retry (sl : Nat) (q : SReq) (d : Dyn) : Dyn :=
  let x := dirGet d sl
  let d := dirSet sl { x with owed := x.owed ++ [q.src.val] } d
  emit (.toPu q.host 2 q.key [q.id]) (tallyDir sl 0x31 1 (bump .dirCntRetryCount sl 1 d))

/-- WAKE to the next owed source, in rotation: what else it is owed goes behind the other sources (R246). -/
def wakeNext (sl : Nat) (d : Dyn) : Dyn :=
  let x := dirGet d sl
  match x.owed with
  | [] => d
  | s :: t => xchOpen (wakeXid sl s) (emit (.toPu s 3 sl []) (dirSet sl { x with owed := (t.filter fun y => y != s) ++ t.filter fun y => y == s } d))

/-- Send snoops of a kind to hosts for an open line; failed hosts count as answered BIRspI (R238, R251). -/
def snoopTo (sl key : Nat) (k : BiSnp) (hs : List Nat) (d : Dyn) : Dyn :=
  forAll (hs.filter fun h => !hostFailed d h) (fun h d =>
    let x := dirGet d sl
    let d := dirSet sl (setOpen key (fun o => { o with snoops := o.snoops ++ [(h, d.now)] }) x) d
    let kd := match k with
      | .cur => 0
      | .data => 1
      | .inv => 2
    emit (.toPu h 6 key [kd]) (tallyDir sl 0x33 1 (bump .dirCntBisnpCount sl 1 d))) d

/-- An operation's data comes from memory: reads; a write goes to memory itself (Table 6.4). -/
def usesMemory (op : SOp) : Bool :=
  match op with
  | .rdS | .rdA | .rdI | .wrI | .wrS | .wrA => true
  | .inv | .evct => false

/-- An operation reads data. -/
def readsData (op : SOp) : Bool :=
  match op with
  | .rdS | .rdA | .rdI => true
  | _ => false

/-- Writes back of a line are open (R241). -/
def wbOpen (x : DirSt) (key : Nat) : Bool := x.wbs.any fun w => w.key == key

/-- The next state of a line when a request is granted (Table 6.4); `a` is the strongest BIRsp. On MemRd S with the line O(H) the table keeps
H as a sharer on BIRspS and does not speak of BIRspE; H, which may still hold the line, is kept then too (DESIGN CHOICE, assumption 137). -/
def nextState (q : SReq) (a : Nat) (x : DirSt) : DirSt :=
  let h := q.host.val
  let w := wayOf x q.key
  let own := match w with
    | some w => if w.state = 2 then w.ptrs.head? else none
    | none => none
  match q.op with
  | .rdS => match own with
    | some o => if o = h ∨ a = 0 then setShared q.key [h] x else setShared q.key [h, o] x
    | none => joinShared q.key h x
  | .rdA | .inv => setOwner q.key h x
  | .rdI => match own with
    | some o =>
      if o = h then wayDrop q.key x
      else if a = 2 then setOwner q.key o x
      else if a = 1 then setShared q.key [o] x
      else wayDrop q.key x
    | none => x
  | .wrI => wayDrop q.key x
  | .wrS => if own = some h then setShared q.key [h] x else wayDrop q.key x
  | .wrA => if own = some h then x else wayDrop q.key x
  | .evct => dropHolder q.key h x

/-- The state a grant names: 0 none, 1 S, 2 E (R236). -/
def grantState (q : SReq) : Nat :=
  match q.op with
  | .rdS => 1
  | .rdA | .inv => 2
  | _ => 0

/-- Grant an open line whose answers are in: with forwarded or poison data at once, from memory when no writeback of the line
is open; a writeback not yet told WB_GO is named and its data forwarded; a line in the eviction table waits (R236, R238, R240,
R241). -/
def tryGrant (sl key : Nat) (d : Dyn) : Dyn :=
  let x := dirGet d sl
  match openOf x key with
  | none => d
  | some o => match o.q with
    | none => d
    | some q =>
      if o.phase ≠ 1 ∨ !o.snoops.isEmpty ∨ x.evTab.contains key then d
      else
        let wb := x.wbs.find? fun w => w.key == key && !w.gone && w.named.isNone
        let name := readsData q.op && !o.fwd && !o.poison && wb.isSome
        let x := if name then { x with wbs := mapIf (fun w => some w == wb) (fun w => { w with named := some (q.host.val, q.id) }) x.wbs } else x
        let fwd := o.fwd || name
        if !fwd && !(o.poison && readsData q.op) && usesMemory q.op && wbOpen x key then d
        else
          let x := nextState q o.ans x
          let x := setOpen key (fun o => { o with phase := 2, fwd := fwd }) x
          xchOpen (grantXid sl key) (emit (.toPu q.host 1 key [q.id, grantState q, b2n fwd, b2n o.poison]) (dirSet sl x d))

/-- At most 1,000 line poison events per second and host (R251 step 5). -/
def poisonEvent (h key : Nat) (d : Dyn) : Dyn :=
  let w := aget (0, 0) d.coh.poisonAt h
  let s := d.now / 1000000000
  let n := if w.1 = s then w.2 else 0
  if n < 1000 then
    raise 0x0203 (leadOr0 d) [homeSlice key, h, key] { d with coh := { d.coh with poisonAt := aset (0, 0) d.coh.poisonAt h (s, n + 1) } }
  else d

/-- The number of the switch's poison write to a line. -/
def poisonId (key : Nat) : Nat := 2 ^ 90 + key

/-- The switch writes poison to a line by the normal write path: translated on the die of the slice as a write of a member LD, one of a host
that has not failed where there is one, and staged at the slice's cluster (R251 step 3; DESIGN CHOICE, assumption 151). -/
def poisonWrite (g : Cfg) (sl key : Nat) (d : Dyn) : Dyn :=
  let ms := srMembers g (key / 2 ^ 34)
  match (ms.filter fun m => !hostFailed d m.1) ++ ms with
  | [] => d
  | m :: _ =>
    let lp : Lport := ⟨8 * (sl / 2) % 192, Nat.mod_lt _ (by decide)⟩
    let a := cg g .allocRgnBase (m.1 * 8 + m.2) * 2097152 + key % 2 ^ 34 * 64
    let r : Req := ⟨poisonId key, lp, .memWr, .ld ⟨m.1 % 128, Nat.mod_lt _ (by decide)⟩, a, 64, none, .i, false, none, true⟩
    if (flightOf d r.id).isSome then d
    else xlate g r.id { d with flights := d.flights ++ [⟨r, lpDie lp, 4294967296, none, 0, none, [], false, .light, some (sl, key), 9, 0, none, false⟩] }

/-- A line that a failed host held O is lost: poison is written to memory and stays open, the line becomes I, a request open on
it receives poison, and event 0x0203 (R251 steps 3 to 5). -/
def loseOwner (g : Cfg) (sl key h : Nat) (d : Dyn) : Dyn :=
  let x := dirGet d sl
  let x := setOpen key (fun o => { o with poison := true })
    (wayDrop key { x with wbs := x.wbs ++ [⟨key, h, poisonId key, true, none, false, 0⟩] })
  poisonEvent h key (poisonWrite g sl key (dirSet sl x d))

/-- A line is O of a host. -/
def ownedBy (x : DirSt) (key h : Nat) : Bool := (wayOf x key).any fun w => w.state == 2 && w.ptrs == [h]

/-- A request needs a way that the set does not hold: it will leave the line in S or O (Table 6.4). -/
def needsWay (x : DirSt) (q : SReq) : Bool :=
  (wayOf x q.key).isNone && match q.op with
    | .rdS | .rdA | .inv => true
    | _ => false

/-- Begin a request on its line, which has its way: snoops by Table 6.4, or a grant. A line held O by a failed host answers
with poison and its poison write is open (R236, R251 step 4). -/
def beginLine (g : Cfg) (sl : Nat) (q : SReq) (d : Dyn) : Dyn :=
  let x := dirGet d sl
  let h := q.host.val
  let w := wayOf x q.key
  let st := match w with
    | some w => w.state
    | none => 0
  let hs := match w with
    | some w => holdersOf g d q.key w
    | none => []
  let oth := hs.filter fun y => y != h
  let d := dirSet sl (setOpen q.key (fun o => { o with phase := 1 }) (touch q.key x)) d
  let dead := st == 2 && !hs.contains h && hs.any fun y => hostFailed d y
  let d := if dead then loseOwner g sl q.key (hs.headD 0) d
    else match q.op with
      | .rdS => if st = 2 then snoopTo sl q.key .data oth d else d
      | .rdA | .inv => if st = 0 then d else snoopTo sl q.key .inv oth d
      | .rdI => if st = 2 then snoopTo sl q.key .cur oth d else d
      | .wrI | .wrS | .wrA => if st = 0 ∨ (st = 2 ∧ hs.contains h) then d else snoopTo sl q.key .inv oth d
      | .evct => d
  tryGrant sl q.key d

/-- Evictions under way at a slice, and victims still in its 16-entry eviction table (R241, R248). -/
def evictsOf (x : DirSt) : Nat := (x.opens.filter fun o => o.evict).length + x.evTab.length

/-- A set has a free way that no request already begun is about to take. -/
def roomIn (x : DirSt) (k : Nat) : Bool :=
  decide ((aget [] x.sets k).length + (x.opens.filter fun o => o.phase == 1 && keySet o.key == k
    && (o.q.map fun q => needsWay x q) == some true).length < 16)

/-- The least recently used way of a set that is not pinned, as a line (R248). -/
def victimOf (x : DirSt) (key : Nat) : Option (Nat × DirWay) :=
  let k := keySet key
  let line (w : DirWay) : Nat := w.tag * 16384 + (k ^^^ w.tag % 16384)
  ((aget [] x.sets k).reverse.find? fun w => !w.bad && w.state != 0 && (openOf x (line w)).isNone).map fun w => (line w, w)

/-- Give a waiting line its way: a free one, or the eviction of a victim; otherwise it goes on waiting (R245, R248). -/
def seekWay (g : Cfg) (sl : Nat) (q : SReq) (d : Dyn) : Dyn :=
  let x := dirGet d sl
  let k := keySet q.key
  let inSet := x.opens.filter fun o => keySet o.key == k
  let busy := decide ((inSet.filter fun o => o.phase == 0).length ≤ (inSet.filter fun o => o.evict).length)
  if !needsWay x q || roomIn x k then beginLine g sl q d
  else if busy then d
  else match victimOf x q.key with
    | none => d
    | some v =>
      if 16 ≤ evictsOf x then d
      else
        let ol : OpenLine := ⟨v.1, none, true, [], 0, false, false, 1, false, []⟩
        let d := tallyDir sl 0x32 1 <| bump .dirCntEvictCount sl 1 (dirSet sl { x with opens := x.opens ++ [ol] } d)
        let hs := holdersOf g d v.1 v.2
        let dead := v.2.state == 2 && hs.any fun y => hostFailed d y
        let d := snoopTo sl v.1 .inv hs d
        if ((openOf (dirGet d sl) v.1).map fun o => o.snoops.isEmpty) == some true then
          let d := if dead then loseOwner g sl v.1 (hs.headD 0) d else d
          let x := dirGet d sl
          let x := { wayDrop v.1 x with opens := x.opens.filter fun o => o.key != v.1,
                                        evTab := if dead then x.evTab ++ [v.1] else x.evTab }
          beginLine g sl q (dirSet sl x d)
        else d

/-- Lines that wait for a way try again, oldest first. -/
def seekAgain (g : Cfg) (sl : Nat) (d : Dyn) : Dyn :=
  forAll ((dirGet d sl).opens.filter fun o => o.phase == 0) (fun o d =>
    match o.q with
    | some q => seekWay g sl q d
    | none => d) d

/-- A slice takes a request: the chain of its open line, RETRY, or a line of its own (R243 to R246). -/
def takeReq (g : Cfg) (sl : Nat) (q : SReq) (d : Dyn) : Dyn :=
  let x := dirGet d sl
  let d := if q.oldest then xchClose (wakeXid sl q.src) d else d
  if homeSlice q.key ≠ sl ∨ hostFailed d q.host ∨ (openOf x q.key).any fun o => (o.q :: o.chain.map fun c => some c.1).any fun y => y.map SReq.id == some q.id then d
  else
    let full := decide (76 ≤ shrUsed x)
    let rsv := full && q.oldest
    match openOf x q.key with
    | some o =>
      if !q.oldest && (full || decide (chainMax g ≤ o.chain.length)) then retry sl q d
      else tallyDir sl 0x30 1 <| dirPeak sl (dirSet sl (setOpen q.key (fun o => { o with chain := o.chain ++ [(q, rsv)] }) x) d)
    | none =>
      let k := keySet q.key
      let stuck := needsWay x q && !roomIn x k
        && ((victimOf x q.key).isNone || decide (16 ≤ evictsOf x))
      if !q.oldest && (full || stuck) then retry sl q d
      else
        let ol : OpenLine := ⟨q.key, some q, false, [], 0, false, false, 0, rsv, []⟩
        seekWay g sl q (tallyDir sl 0x30 1 (dirPeak sl (dirSet sl { x with opens := x.opens ++ [ol] } d)))

/-- Close an open line: its way is unpinned, the next chained request is handled, owed sources are woken (R236, R243,
R246). -/
def closeLine (g : Cfg) (sl key : Nat) (d : Dyn) : Dyn :=
  let x := dirGet d sl
  match openOf x key with
  | none => d
  | some o =>
    let x := { x with opens := x.opens.filter fun y => y.key != key }
    let d := xchClose (grantXid sl key) d
    let d := match o.chain with
      | [] => dirSet sl x d
      | (q, r) :: t =>
        let ol : OpenLine := ⟨key, some q, false, [], 0, false, false, 0, r, t⟩
        seekWay g sl q (dirSet sl { x with opens := x.opens ++ [ol] } d)
    let d := wakeNext sl (seekAgain g sl d)
    match o.q with
    | some q => if o.rsv then emit (.toPu q.src 3 sl []) d else d
    | none => d

/-- The answers to an eviction are all in: the way is free; an owner's writeback keeps the line in the eviction table
(R241, R249). -/
def endEvict (g : Cfg) (sl key : Nat) (d : Dyn) : Dyn :=
  let x := wayDrop key (dirGet d sl)
  let x := { x with evTab := if wbOpen x key then x.evTab ++ [key] else x.evTab }
  closeLine g sl key (dirSet sl x d)

/-- A snoop of a line is answered (R238, R242, R249). -/
def snoopDone (g : Cfg) (sl key h a : Nat) (d : Dyn) : Dyn :=
  let x := setOpen key (fun o => { o with snoops := o.snoops.filter fun s => s.1 != h, ans := max o.ans a }) (dirGet d sl)
  let d := dirSet sl x d
  match openOf x key with
  | none => d
  | some o =>
    if !o.snoops.isEmpty then d
    else if o.evict then endEvict g sl key d
    else tryGrant sl key d

/-! ## Failure of a host (R250 to R252) -/

/-- A host is a member of a valid shared region (R226). -/
def isMember (g : Cfg) (d : Dyn) (h : Nat) : Bool := (List.range 8).any fun r => (srOf g h r).any fun i => srValid g d i

/-- Every request toward a host, and every request of the host's own, that is unanswered when its link is lost: requests
toward it complete with Unsupported Request or are discarded if posted (R89); its own commit with no one to answer. -/
def hostFlights (lp h : Nat) (d : Dyn) : Dyn :=
  forAll d.flights (fun f d =>
    match f.req.tgt with
    | .host v =>
      if v.val = h then answer f.req (match f.req.kind with
        | .ioRd | .ioWrNp | .ioAtomic | .ioCfg => some .ur
        | .cacheRd | .cacheWr => some .goErr
        | .biSnp => some .biRspI
        | _ => none) d else d
    | _ => if f.req.lport.val = lp ∧ f.req.id < 2 ^ 79 ∧ f.devs.isEmpty ∧ f.home.isNone then answer f.req none d else d) d

/-- A BIRsp says that data was forwarded: that writeback is open and the request it served has its data. It fills no entry of the
writeback buffer, whose entries a port unit waits for, while a BIRsp is always sunk (R239, R241, R243; DEDUCED, assumption 152). -/
def noteWrote (key h id : Nat) (x : DirSt) : DirSt :=
  let x := { x with wbs := x.wbs ++ [⟨key, h, id, true, none, false, 0⟩] }
  setOpen key (fun o => { o with fwd := o.fwd || (o.q.map fun q => readsData q.op) == some true }) x

/-- The open snoops of a line to a failed host count as answered BIRspI; with no data from it, a line it held O is lost (R251
steps 1 and 4). -/
def failSnoop (g : Cfg) (sl key h : Nat) (d : Dyn) : Dyn :=
  let x := dirGet d sl
  let lost := ownedBy x key h && !(x.wbs.any fun w => w.key == key && w.host == h)
  snoopDone g sl key h 0 (if lost then loseOwner g sl key h d else d)

/-- Tracker entries of a slice came free: a WAKE for each, and one to each source whose own reserved entry it was (R246). -/
def entriesFreed (sl : Nat) (was : DirSt) (d : Dyn) : Dyn :=
  let x := dirGet d sl
  let n := shrUsed was + (rsvUsed was).length - (shrUsed x + (rsvUsed x).length)
  let d := forAll (List.range n) (fun _ d => wakeNext sl d) d
  forAll ((rsvUsed was).filter fun s => !(rsvUsed x).contains s) (fun s d => emit (.toPu s 3 sl []) d) d

/-- Declare a host failed (R251 steps 1 and 2, R252): its bit, every open snoop to it answered BIRspI, its open requests
closed without a grant, its data discarded, its link held down, viral, GRACE and event 0x0202; its walk is to run. -/
def hostFail (g : Cfg) (h : Nat) (d : Dyn) : Dyn :=
  if hostFailed d h then d
  else
    let d := putBit .cohFailedHost (h / 32) (h % 32) true d
    let d := raise 0x0202 (leadOr0 d) [h] d
    let d := forAll (d.coh.recs.filter fun r => r.host == h && decide (homeNo g d r.key < 48)) (fun r d => match r.wrote with
      | some id => dirSet (homeSlice r.key) (noteWrote r.key h id (dirGet d (homeSlice r.key))) d
      | none => d) d
    let gone := d.flights.filter fun f => f.home.isSome && f.grant == 0
      && f.req.tgt == .ld ⟨h % 128, Nat.mod_lt _ (by decide)⟩
      && !(f.home.any fun x => (dirGet d x.1).wbs.any fun w => w.id == f.req.id && w.key == x.2)
    let d := forAll gone (fun f d => commit f.req.id d) d
    let d := { d with coh := { d.coh with recs := d.coh.recs.filter (fun r => r.host != h),
                                          retried := d.coh.retried.filter (fun y => y.2.host.val != h),
                                          walks := d.coh.walks ++ [h] } }
    let d := sharedPut (fun l => l.filter fun y => y.2.host.val != h) d
    let d := forAll (d.coh.dirs.cells.map Prod.fst) (fun sl d =>
      let x := dirGet d sl
      let y := { x with opens := x.opens.map fun o => { o with chain := o.chain.filter fun c => c.1.host.val != h } }
      let mine := y.opens.filter fun o => (o.q.map fun q => q.host.val) == some h
      let d := entriesFreed sl x (dirSet sl y d)
      let d := forAll mine (fun o d => closeLine g sl o.key d) d
      forAll ((dirGet d sl).opens.filter fun o => o.snoops.any fun s => s.1 == h) (fun o d => failSnoop g sl o.key h d) d) d
    let d := if rd d .cohWalkStsBusy 0 = 0 then put .cohWalkStsBusy 0 1 (put .cohWalkStsHost 0 h d) else d
    let d := match hostPort g d h with
      | some lp => put .portLstsLinkUp lp 0 { d with port := { d.port with heldDown := d.port.heldDown ++ [lp] } }
      | none => d
    enterGrace g h (raiseViral h d)

/-- A slice's walk for a failed host: pointers go, group bits stay, O lines are poisoned in memory and become I (R251
step 3). -/
def walkSlice (g : Cfg) (h sl : Nat) (d : Dyn) : Dyn :=
  let ways := (dirGet d sl).sets.cells.flatMap fun c => (c.2.filter fun w => !w.bad && w.ptrs.contains h).map fun w =>
    (w.tag * 16384 + (c.1 ^^^ w.tag % 16384), w)
  forAll ways (fun kw d =>
    let x := dirGet d sl
    if kw.2.state = 2 then (if (openOf x kw.1).any fun o => o.phase == 1 then d else loseOwner g sl kw.1 h d)
    else dirSet sl (dropHolder kw.1 h x) d) d

/-! ## Meanings -/

/-- Token a is older than b (R243). -/
def olderTok (a b : Nat) : Bool := let k := (b + 4294967296 - a % 4294967296) % 4294967296; decide (1 ≤ k) && decide (k ≤ 2147483647)

/-- The arbiter prefers p to q: the older token, then the first source from the pointer on (R243). -/
def reqBefore (ptr : Nat) (p q : SReq) : Bool :=
  olderTok p.token q.token || (p.token % 4294967296 == q.token % 4294967296
    && decide ((p.src.val + 52 - ptr % 52) % 52 < (q.src.val + 52 - ptr % 52) % 52))

/-- The request the arbiter takes next. -/
def arbPick (ptr : Nat) : List SReq → Option SReq
  | [] => none
  | q :: t => match arbPick ptr t with
    | none => some q
    | some p => if reqBefore ptr p q then some p else some q

/-- Take every request present at a slice in the arbiter's order (R243). -/
def takeAll (g : Cfg) (sl : Nat) : Nat → List SReq → Dyn → Dyn
  | 0, _, d => d
  | n + 1, l, d =>
    let x := dirGet d sl
    match arbPick x.ptr l with
    | none => d
    | some q => takeAll g sl n (dropOne q l) (takeReq g sl q (dirSet sl { x with ptr := (q.src.val + 1) % 52 } d))

/-- A slice has taken this header before. -/
def wbKnown (x : DirSt) (id key : Nat) : Bool :=
  (x.wbs.any fun w => w.id == id && w.key == key && w.hdr)
    || (openOf x key).any fun o => (o.q.map fun q => q.id) == some id || o.chain.any fun c => c.1.id == id

/-- A MemWr of a host that has come to its port unit and has gone nowhere yet (R239). -/
def pendingWb (d : Dyn) (h key : Nat) : Option Flight :=
  d.flights.find? fun f => f.req.kind == .memWr && f.grant == 0 && (f.home.map Prod.snd) == some key
    && f.req.tgt == .ld ⟨h % 128, Nat.mod_lt _ (by decide)⟩

/-- A MemWr is a snoop writeback: its data goes straight to the requester and to memory at once (R239). -/
def snoopWb (g : Cfg) (id : Nat) (r : SnoopRec) (d : Dyn) : Dyn :=
  let d := { d with coh := { d.coh with recs := mapIf (fun y => y == r) (fun y => { y with wrote := some id }) d.coh.recs } }
  let d := match r.req with
    | some q => emit (.toPu q.1 5 r.key [q.2]) d
    | none => d
  xlate g id (setFlight id (fun f => { f with grant := 9 }) d)

/-- The completion of an earlier request of a host to a line has still to be sent (R234). -/
def earlier (g : Cfg) (d : Dyn) (h : Host) (key : Nat) : Bool :=
  d.flights.any fun f => f.home == some (homeNo g d key, key) && f.grant != 0 && !isWb f && f.req.tgt == .ld h

/-- A snoop record is opened and the BISnp takes its place among the packets to the host; a MemWr of the host to the line that still waits
behind another request is the writeback for it (R237, R239). -/
def openRec (g : Cfg) (h : Host) (lp key : Nat) (k : BiSnp) (req : Option (Nat × Nat)) (d : Dyn) : Dyn :=
  let r : SnoopRec := ⟨h, key, req, none⟩
  let d := { d with coh := { d.coh with recs := d.coh.recs ++ [r] } }
  let d := stage lp ⟨⟨0, 4, 64, 200, lp, some h.val, none, 1, 0, 0, 0, true, .snp h key k⟩, none, false⟩ d
  match pendingWb d h key with
  | some f => if sharedWaits d f.req.id then snoopWb g f.req.id r d else d
  | none => d

/-- SNOOP_RECORD: a BISnp reaches the owner's port unit, which opens a snoop record and passes it to the host after the
completion of the host's earlier requests to the line; `far` is what a slice of another package sent (R100, R234, R239). -/
def execSnoopRecord (h : Host) (key : Nat) (far : Option FarSnoop) (s : State) : Host.Outcome State Fault Refusal :=
  nextDyn s fun g d =>
    match hostPort g d h with
    | none => d
    | some lp =>
      if earlier g d h key || d.coh.recs.any fun r => r.host == h.val && r.key == key then d
      else if homeNo g d key < 48 then match openOf (dirGet d (homeSlice key)) key with
        | none => d
        | some o =>
          if !(o.snoops.any fun x => x.1 == h.val) then d
          else
            let k : BiSnp := if o.evict then .inv else match o.q with
              | some q => match q.op with
                | .rdS => .data
                | .rdI => .cur
                | _ => .inv
              | none => .inv
            openRec g h lp key k (o.q.map fun q => (q.host.val, q.id)) d
      else match far with
        | none => d
        | some b => openRec g h lp key b.kind (b.req.map fun q => (q.1.val, q.2)) d

/-- The strength of a BIRsp. -/
def birspNo (a : BiRsp) : Nat :=
  match a with
  | .i => 0
  | .s => 1
  | .e => 2

/-- BIRSP: the owner's snoop answer passes its port unit, which notes whether data was forwarded, and arrives at the slice; a writeback
that the owner sent before it goes first; a block form counts as the single form, event 0x0206. `far` is an answer that comes from
the port unit of another package, with its flag (R233, R238, R239, R242). -/
def execBirsp (h : Host) (key : Nat) (a : BiRsp) (blk : Bool) (far : Option Bool) (s : State) : Host.Outcome State Fault Refusal :=
  nextDyn s fun g d =>
    let sl := homeSlice key
    let here := decide (homeNo g d key < 48)
    if here && sliceStopped d sl then d
    else match far with
    | some fwd =>
      if !here || !((openOf (dirGet d sl) key).any fun o => o.snoops.any fun x => x.1 == h.val) then d
      else
        let x := dirGet d sl
        snoopDone g sl key h (birspNo a) (dirSet sl (if fwd then noteWrote key h 0 x else x) d)
    | none => match d.coh.recs.find? fun r => r.host == h.val && r.key == key with
      | none => d
      | some r =>
        let d := match hostPort g d h with
          | some lp => tallyPort lp 0x10 1 d
          | none => d
        let d := doIf blk (raise 0x0206 (leadOr0 d) [sl, h, key]) d
        let d := match pendingWb d h key with
          | some f => if here && r.wrote.isNone && !wbKnown (dirGet d sl) f.req.id key then snoopWb g f.req.id r d else d
          | none => d
        let wrote := (d.coh.recs.find? fun r => r.host == h.val && r.key == key).bind SnoopRec.wrote
        let d := { d with coh := { d.coh with recs := d.coh.recs.filter fun r => !(r.host == h.val && r.key == key) } }
        if !here then
          farMsg (homeNo g d key) ((hostPort g d h).getD 0 / 4) 1 (emit (.toSlice (homeNo g d key) 4 key [h, birspNo a, b2n wrote.isSome]) d)
        else
          let x := dirGet d sl
          let x := match wrote with
            | some id => noteWrote key h id x
            | none => x
          snoopDone g sl key h (birspNo a) (dirSet sl x d)

/-- A grant acts at the requester's port unit: forwarded data, poison or no data completes the request, memory data is translated
and read there (R236, R251). -/
def grantTo (g : Cfg) (f : Flight) (st : Nat) (fwd poison : Bool) (d : Dyn) : Dyn :=
  let d := setFlight f.req.id (fun f => { f with grant := st + 1 }) d
  let reads := f.req.kind == .memRd
  if poison && reads then
    answer f.req (some (if st = 2 then .memDataPoisonE else if st = 1 then .memDataPoisonS else .memDataPoison)) d
  else if fwd && reads then answer f.req (some (if st = 2 then .memDataE else if st = 1 then .memDataS else .memData)) d
  else if reads || f.req.kind == .memWr then xlate g f.req.id d
  else answer f.req (some (if st = 2 then .cmpE else if st = 1 then .cmpS else .cmp)) d

/-- GRANT: a grant reaches the requester's port unit, from a slice of this package or, with `far`, from one of another package (R236,
R251). -/
def execGrant (sl : DSlice) (key : Nat) (far : Option FarGrant) (s : State) : Host.Outcome State Fault Refusal :=
  nextDyn s fun g d =>
    match far with
    | some x => match flightOf d x.id with
      | none => d
      | some f =>
        if f.grant ≠ 0 ∨ homeSlice key ≠ sl ∨ homeNo g d key < 48 ∨ f.home ≠ some (homeNo g d key, key) then d
        else grantTo g f x.st x.fwd x.poison d
    | none => match openOf (dirGet d sl) key with
      | none => d
      | some o => match o.q with
        | none => d
        | some q =>
          if o.phase ≠ 2 then d
          else match flightOf d q.id with
            | none => emit (.toSlice sl 1 key [q.id]) d
            | some f =>
              if f.grant ≠ 0 ∨ f.home ≠ some (sl.val, key) then d
              else grantTo g f (grantState q) o.fwd o.poison d

/-- DONE: closes an open line and unpins its way; the next chained request is handled (R236, R243). -/
def execDone (sl : DSlice) (key : Nat) (h : Host) (s : State) : Host.Outcome State Fault Refusal :=
  nextDyn s fun g d =>
    match openOf (dirGet d sl) key with
    | none => d
    | some o =>
      if o.phase = 2 ∧ (o.q.map fun q => q.host) = some h ∧ !sliceStopped d sl
          ∧ !(d.flights.any fun f => some f.req.id == o.q.map fun q => q.id) then closeLine g sl key d
      else d

/-- SNOOP_WRITEBACK: a MemWr that matches a snoop record: its data goes straight to the requester and to memory at once
(R239). -/
def execSnoopWriteback (id : Nat) (s : State) : Host.Outcome State Fault Refusal :=
  nextDyn s fun g d =>
    match flightOf d id with
    | none => d
    | some f => match f.home, reqHost g d f.req with
      | some x, some h => match recOf d h x.2 with
        | some r => if f.req.kind ≠ .memWr ∨ f.grant ≠ 0 then d else snoopWb g id r d
        | none => d
      | _, _ => d

/-- The operation of a shared MemWr by its MetaValue. -/
def wrOp (m : Meta) : SOp :=
  match m with
  | .i => .wrI
  | .s => .wrS
  | .a => .wrA

/-- What the header of a MemWr says at a slice: that of a port unit here from its flight and the time it was first sent, that of another
package from the message; none where it is no header of this slice, or its port unit keeps it back (R237, R240, R243). -/
def wbSays (g : Cfg) (d : Dyn) (sl : Nat) (w : WbHdr) : Option FarWb :=
  match w.far with
  | some x => if homeSlice x.key = sl ∧ (flightOf d w.id).isNone then some x else none
  | none => match flightOf d w.id with
    | none => none
    | some f => match f.home, reqHost g d f.req with
      | some x, some h =>
        if x.1 ≠ sl ∨ f.req.kind ≠ .memWr ∨ f.grant ≠ 0 ∨ (recOf d h x.2).isSome ∨ sharedWaits d w.id then none
        else
          let tok := ((d.coh.shared.find? fun y => y.2.id == w.id).map fun y => y.2.token).getD d.now
          some ⟨⟨h % 128, Nat.mod_lt _ (by decide)⟩, x.2, f.req.mval, ⟨lpPu f.req.lport % 52, Nat.mod_lt _ (by decide)⟩, tok % 4294967296⟩
      | _, _ => none

/-- A MemWr is a writeback at its slice: an owner's, or the data for an open snoop to that host (R240, R242). -/
def isOwnerWb (x : DirSt) (key h : Nat) : Bool := ownedBy x key h || (openOf x key).any fun o => o.snoops.any fun t => t.1 == h

/-- Entries of a slice's writeback buffer in use (R244). -/
def wbUsed (x : DirSt) : Nat := (x.wbs.filter fun w => w.hdr).length

/-- A slice takes an ordinary writeback: it waits at its source while the buffer is full; it names a request that waits on the line for its
data; an owner's own write moves the line as Table 6.4 says (R236, R240, R242, R244). -/
def takeWb (sl id : Nat) (w : FarWb) (d : Dyn) : Dyn :=
  let x := dirGet d sl
  let key := w.key
  let h := w.host.val
  if 32 ≤ wbUsed x then d
  else
    let snooped := (openOf x key).any fun o => o.snoops.any fun t => t.1 == h
    let named := (openOf x key).bind fun o => if o.phase = 2 || o.fwd || o.poison then none
      else o.q.bind fun q => if readsData q.op then some (q.host.val, q.id) else none
    let st := if snooped then 0 else match w.mval with
      | .i => 0
      | .s => 1
      | .a => 2
    let x := { x with wbs := x.wbs ++ [⟨key, h, id, false, named, true, st⟩] }
    let x := if named.isSome then setOpen key (fun o => { o with fwd := true }) x else x
    let x := if snooped then x else match w.mval with
      | .i => wayDrop key x
      | .s => setShared key [h] x
      | .a => touch key x
    tryGrant sl key (dirSet sl x d)

/-- WB_GO to the port unit of a writeback just taken, with what it names; a port unit of another package acts on it by its own WB_GO
(R240). -/
def sendGo (sl : Nat) (w : WbRec) (d : Dyn) : Dyn :=
  let d := emit (.toPu w.host 4 w.key ([w.id, w.st] ++ (w.named.map fun q => [q.1, q.2]).getD [])) d
  if (flightOf d w.id).isSome then d
  else
    let x := dirGet d sl
    dirSet sl { x with wbs := mapIf (fun y => y == w) (fun y => { y with gone := true }) x.wbs } d

/-- The messages present at a slice are taken: writebacks first, then the requests in the arbiter's order, writes of hosts that do not own
their line among them; then WB_GO is answered to each writeback taken (R236, R240, R243, R244). -/
def takeCycle (g : Cfg) (sl : Nat) (wbs : List WbHdr) (qs : List SReq) (d : Dyn) : Dyn :=
  if sliceStopped d sl then d
  else
    let d := ungate (48 + sl) d
    let was := (dirGet d sl).wbs
    let x := dirGet d sl
    let ws := (wbs.filterMap fun w => (wbSays g d sl w).map fun f => (w.id, f)).filter fun w => !wbKnown x w.1 w.2.key && !hostFailed d w.2.host
    let d := forAll ws (fun w d => if isOwnerWb x w.2.key w.2.host then takeWb sl w.1 w.2 d else d) d
    let rs := (ws.filter fun w => !isOwnerWb x w.2.key w.2.host).map fun w =>
      (⟨w.1, w.2.host, w.2.key, wrOp w.2.mval, w.2.src, w.2.token, false⟩ : SReq)
    let l := rs ++ qs.filter fun q => !sharedWaits d q.id
    let d := takeAll g sl l.length l d
    forAll ((dirGet d sl).wbs.filter fun w => w.hdr && !w.gone && !(was.any fun y => y.id == w.id && y.key == w.key)) (fun w d => sendGo sl w d) d

/-- ORDINARY_WRITEBACK: the header of a MemWr that matches no snoop record reaches the slice: an owner's, or the data for an
open snoop to that host, is ordered before requests and answered WB_GO; a write of a non-owner is a request of Table 6.4;
with 32 in the buffer it waits at its source (R236, R240, R242, R243, R244). -/
def execOrdinaryWriteback (w : WbHdr) (s : State) : Host.Outcome State Fault Refusal :=
  nextDyn s fun g d =>
    match w.far with
    | some x => takeCycle g (homeSlice x.key) [w] [] d
    | none => match (flightOf d w.id).bind Flight.home with
      | some x => if x.1 < 48 then takeCycle g x.1 [w] [] d else d
      | none => d

/-- Memory is written with a writeback, its data forwarded to the request that WB_GO names (R240). -/
def goWb (g : Cfg) (id key st : Nat) (named : Option (Nat × Nat)) (d : Dyn) : Dyn :=
  let d := match named with
    | some q => emit (.toPu q.1 5 key [q.2]) d
    | none => d
  xlate g id (setFlight id (fun f => { f with grant := 9 + st }) d)

/-- WB_GO: at the owner's port unit the data is forwarded to the request it names and written to memory; `far` is what a slice of
another package sent (R240). -/
def execWbGo (id : Nat) (far : Option FarGo) (s : State) : Host.Outcome State Fault Refusal :=
  nextDyn s fun g d =>
    match flightOf d id with
    | none => d
    | some f => match f.home with
      | none => d
      | some (sl, key) =>
        if 48 ≤ sl then match far with
          | some x => if f.req.kind = .memWr ∧ f.grant = 0 then goWb g id key x.st (x.named.map fun q => (q.1.val, q.2)) d else d
          | none => d
        else
          let x := dirGet d sl
          match x.wbs.find? fun w => w.id == id && w.key == key && !w.gone with
          | none => d
          | some w => goWb g id key w.st w.named (dirSet sl { x with wbs := mapIf (fun y => y == w) (fun y => { y with gone := true }) x.wbs } d)

/-- WB_DONE: a writeback's memory write completes; a grant from memory that waited is sent, the eviction table lets go
and lines that wait for a way try again (R241, R248). -/
def execWbDone (sl : DSlice) (key : Nat) (h : Host) (s : State) : Host.Outcome State Fault Refusal :=
  nextDyn s fun g d =>
    let x := dirGet d sl
    let open1 (w : WbRec) : Bool := d.flights.any fun f => f.home == some (sl.val, key) && isWb f && f.req.id == w.id
    match x.wbs.find? fun w => w.key == key && w.host == h.val && w.gone && !open1 w with
    | none => d
    | some w =>
      if sliceStopped d sl then d
      else
        let x := { x with wbs := dropOne w x.wbs }
        let x := { x with evTab := if wbOpen x key then x.evTab else x.evTab.filter fun y => y != key }
        seekAgain g sl (tryGrant sl key (dirSet sl x d))

/-- RETRY: the refusal reaches the source port unit, which keeps the request (R245, R246). -/
def execRetry (sl : DSlice) (q : SReq) (s : State) : Host.Outcome State Fault Refusal :=
  nextDyn s fun g d =>
    let n := if homeSlice q.key = sl then homeNo g d q.key else sl.val
    if d.coh.retried.any fun y => y.1 == n && y.2.id == q.id then d
    else { d with coh := { d.coh with retried := d.coh.retried ++ [(n, { q with oldest := false })] } }

/-- The oldest retried request of a source at a slice. -/
def oldestRetried (l : List (Nat × SReq)) (sl src : Nat) : Option SReq :=
  (l.filter fun y => y.1 == sl && y.2.src.val == src).foldl (fun m y => match m with
    | none => some y.2
    | some p => if olderTok y.2.token p.token then some y.2 else some p) none

/-- WAKE: a source resends its oldest retried request to the slice, marked OLDEST, while its reserved entry there is free; a source that finds
it in use stays owed. `pkg` names the package of a slice elsewhere, whose -P port keeps the reserved entry (R244, R246, R247). -/
def execWake (sl : DSlice) (pkg : Option (Fin 8)) (src : Fin 52) (s : State) : Host.Outcome State Fault Refusal :=
  nextDyn s fun g d =>
    let n := match pkg with
      | none => sl.val
      | some p => 48 * (1 + p.val + 8 * cg g .gklSysRouteExitDie p) + sl.val
    match oldestRetried d.coh.retried n src with
    | none => d
    | some q =>
      let x := dirGet d sl
      if pkg.isNone && (rsvUsed x).contains src.val then dirSet sl { x with owed := x.owed ++ [src.val] } d
      else farMsg n src 0 (emit (.toHome n { q with oldest := true })
        { d with coh := { d.coh with retried := d.coh.retried.filter fun y => !(y.1 == n && y.2.id == q.id) } })

/-- BICONFLICT: answered with BIConflictAck once every earlier completion of that host to that line has been sent (R234). -/
def execBiconflict (h : Host) (key : Nat) (s : State) : Host.Outcome State Fault Refusal :=
  nextDyn s fun g d =>
    match hostPort g d h with
    | some lp => if earlier g d h key then d else emit (.biConflictAck lp key) d
    | none => d

/-- WALK_DONE: every slice has walked its entries for a failed host; event 0x0207, and the next failed host's walk begins
(R251 steps 3 and 5). -/
def execWalkDone (s : State) : Host.Outcome State Fault Refusal :=
  nextDyn s fun g d =>
    match d.coh.walks with
    | [] => d
    | h :: t =>
      let d := forAll (d.coh.dirs.cells.map Prod.fst) (fun sl d => walkSlice g h sl d) d
      let d := raise 0x0207 (leadOr0 d) [h] { d with coh := { d.coh with walks := t } }
      match t with
      | [] => put .cohWalkStsBusy 0 0 d
      | n :: _ => put .cohWalkStsHost 0 n d

end Machine
end Sys2Proof
end

