-- ==== Sys2Proof/Machine/Path.lean ====
section
/-! DEFINITION. The way of a request and its answer (spec/03, spec/07, spec/08): gate, attribution, routing, admission to
the cluster buffer, egress, responses, and the mirror commands. -/

namespace Sys2Proof
namespace Machine

/-! ## Ports in use -/

/-- The clock of a cluster's region is stopped (R38). -/
def cluStopped (d : Dyn) (cl : Nat) : Bool := rtrStopped d (cluRouter cl)

/-- The link of a port carries traffic into and out of the switch: up, not in L1 or a re-equalisation, not contained, its region
running (R38, R71, R85, R476). -/
def portOpen (g : Cfg) (d : Dyn) (lp : Nat) : Bool :=
  lpRole g d lp != 0 && lpLinkUp d lp && !lpContained d lp && !d.port.l1.contains lp && !(d.hlth.reeq.any fun x => x.1 == lp)
    && !cluStopped d (lpClu lp)

/-- The protocol of a request runs on a link: CXL.mem and CXL.cache as LSTS says, and not in the insecure state (R69,
R80). -/
def protoUp (d : Dyn) (lp : Nat) (k : ReqKind) : Bool :=
  match protoOf k with
  | 0 => true
  | 1 => rd d .portLstsMem lp == 1 && !d.port.insecure.contains lp
  | _ => rd d .portLstsCache lp == 1 && !d.port.insecure.contains lp

/-! ## Answers of the switch's own (Table 2.9) -/

/-- The answer under containment to a request toward a passthrough device (Table 2.9). -/
def contAnswer (d : Dyn) (lp : Nat) (k : ReqKind) : Option RespKind :=
  match k with
  | .ioRd | .ioWrNp | .ioAtomic | .ioCfg => some (if rd d .portContCaSel lp = 1 then .ca else .ur)
  | .memRd => some .memDataPoison
  | .memWr | .memInv | .memClnEvct => some .cmp
  | .cacheRd | .cacheWr => some .cacheFail
  | .ioWr | .memSpecRd | .biSnp => none

/-- Answer a request toward a contained port, counted in SYN_CNT; CXL.cache raises viral where enabled (R85, R93). -/
def answerContained (g : Cfg) (lp : Nat) (r : Req) (d : Dyn) : Dyn :=
  let d := bump .portContSynCnt lp 1 d
  let d := match r.kind, reqHost g d r with
    | .cacheRd, some h | .cacheWr, some h => raiseViral h d
    | _, _ => d
  answer r (contAnswer d lp r.kind) d

/-- The answer to a CXL.io request toward a host that is not reachable: Unsupported Request, or discarded if posted
(R89). -/
def hostGone : ReqKind → Option RespKind
  | .ioRd | .ioWrNp | .ioAtomic | .ioCfg => some .ur
  | .cacheRd | .cacheWr => some .goErr
  | .biSnp => some .biRspI
  | _ => none

/-- The answer to a request that routes to no target: Unsupported Request or discarded on CXL.io, and what R143 gives an
unmapped address on the other protocols (R258). -/
def noTarget : ReqKind → Option RespKind
  | .ioRd | .ioWrNp | .ioAtomic | .ioCfg => some .ur
  | .memRd => some .memDataPoison
  | .memWr | .memInv | .memClnEvct => some .cmp
  | .cacheRd | .cacheWr => some .goErr
  | .biSnp => some .biRspI
  | .ioWr | .memSpecRd => none

/-- A managed LD's own answer to a CXL.io request, where the host has one (R66): configuration and mailbox accesses complete; UIO, selective IDE and
AtomicOp requests get Unsupported Request (Table 2.1, R67, R79). -/
def ldIoAnswer (r : Req) : Option RespKind :=
  if r.uio then (match r.kind with
    | .ioWr => none
    | _ => some .ur)
  else match r.kind with
    | .ioRd | .ioWrNp | .ioCfg => some .cpl
    | .ioAtomic => some .ur
    | _ => none

/-! ## Routing (R55, R60, R63, R65, R258) -/

/-- A request's target as routing allows it: a host reaches its own LD and the devices bound to its VCS that it may see (R69); a
passthrough device reaches the host it is bound to. -/
def routeOf (g : Cfg) (d : Dyn) (r : Req) : Target :=
  match r.tgt with
  | .ld n => if isUp g d r.lport && cg g .portLpcfgVcs r.lport == n.val then .ld n else .none
  | .pt lp i =>
    if isUp g d r.lport && ptSeen g d (cg g .portLpcfgVcs r.lport) lp && (d.alloc.bnds.any fun b => b.lport == lp.val && b.ldId == i.val
        && b.vcs == cg g .portLpcfgVcs r.lport && (b.present || lpContained d lp)) then .pt lp i else .none
  | .host v =>
    if isDown g d r.lport && lpBind g r.lport == 0
        && (d.alloc.bnds.any fun b => b.lport == r.lport.val && b.vcs == v.val && b.present) then .host v else .none
  | .none => .none

/-- CXL.mem requests, which a managed LD serves. -/
def isMem : ReqKind → Bool
  | .memRd | .memSpecRd | .memWr | .memInv | .memClnEvct => true
  | _ => false

/-- The operation of a shared request (Tables 6.3 and 6.4); `w` whether the gate permits writing (R235). -/
def sharedOp (r : Req) (w : Bool) : SOp :=
  match r.kind with
  | .memInv => .inv
  | .memClnEvct => .evct
  | .memWr => wrOp r.mval
  | _ => match r.mval with
    | .s => .rdS
    | .a => if w then .rdA else .rdS
    | .i => .rdI

/-! ## A request enters (R31, R256 to R272, R286) -/

/-- The generation number that requests carry which the gate does not check: no barrier waits for them (R256, R276). -/
def uncheckedGen : Nat := 4294967296

/-- The flight of a request: its ingress die, the generation it was checked under and its slice. -/
def newFlight (d : Dyn) (r : Req) (slice : Option Nat) : Flight :=
  ⟨r, lpDie r.lport, genOf d (lpDie r.lport), slice, 0, none, [], false, .light, none, 0, 0, none, false⟩

/-- The host, address and slice selectors match a request: M2S Req and RwD, CXL.cache requests from the host, CXL.io requests
(R126). -/
def selReq (r : Req) : Bool :=
  match r.kind, r.tgt with
  | .biSnp, _ => false
  | .cacheRd, .host _ | .cacheWr, .host _ => false
  | _, _ => true

/-- What mirror sessions see of a request; 128 stands for no host ID. -/
def reqView (r : Req) (host slice : Option Nat) (lp : Nat) (egress deny : Bool) : MirView :=
  ⟨lp, egress, selReq r, clsOf r.kind, protoOf r.kind, host.getD 128, r.addr, slice, r.pasid.map Fin.val, reqBytes r.kind r.len, deny⟩

/-- A request that the gate forbade whole: it waits its turn with its answer, or is discarded when none is owed (R264,
R291). -/
def denyWhole (g : Cfg) (f : Flight) (d : Dyn) : Dyn :=
  match denyResp f.req.kind with
  | some k => stage f.req.lport ⟨reqPkt g d f f.req.lport 0 f.req.addr 0 false, some k, true⟩ d
  | none => answer f.req none d

/-- Stage one packet of a request toward a logical port that owes it an answer, or that it leaves by. -/
def toPort (g : Cfg) (f : Flight) (who dst : Nat) (orig : Bool) (d : Dyn) : Dyn :=
  let d := setFlight f.req.id (fun x => { x with devs := x.devs ++ [who] }) d
  let near := decide (lpClu dst = lpClu f.req.lport)
  let ldId := match f.req.tgt with
    | .pt _ i => i.val
    | _ => 0
  stage f.req.lport ⟨reqPkt g d f dst ldId f.req.addr (chargeOf f.req.kind f.req.len) near, none, orig⟩ d

/-- A package can be reached by its route, over a link that HELLO has not refused (R395, R397, R398, R399). -/
def pkgOpen (g : Cfg) (d : Dyn) (pkg : Nat) : Bool :=
  cg g .gklSysRouteV pkg == 1 && rd d .gklSysRouteBad pkg == 0 && aget 0 d.sys.hello (cg g .gklSysRouteExitDie pkg) != 2
    && bitAt (rd d .gklSysStsReach 0) pkg

/-- A shared request is kept by its port unit for its home slice, here or on another package, and copied to the mirror sessions as it passes
the gate, for it may need no memory; without a route to the home package it is answered as to an unmapped page (R126, R143, R236, R237,
R253, R395, R399). -/
def toHome (g : Cfg) (f : Flight) (n : Host) (key : Nat) (w : Bool) (d : Dyn) : Dyn :=
  let r := f.req
  let sl := homeNo g d key
  if 48 ≤ sl && !pkgOpen g d ((sl / 48 - 1) % 8) then answerUnmapped r f.die n d
  else
    let d := mirAll g (lpClu r.lport) (reqView r (some n.val) f.slice r.lport false false) (setFlight r.id (fun f => { f with home := some (sl, key) }) d)
    let q : SReq := ⟨r.id, n, key, sharedOp r w, ⟨lpPu r.lport % 52, Nat.mod_lt _ (by decide)⟩, d.now % 4294967296, false⟩
    sharedPut (fun l => l ++ [(sl, q)]) d

/-- A request that the gate permits, or the permitted runs of one, goes to its target (R31, R134, R236, R269). -/
def forward (g : Cfg) (f : Flight) (w orig : Bool) (d : Dyn) : Dyn :=
  let r := f.req
  match r.tgt with
    | .none => answer r (noTarget r.kind) d
    | .ld n =>
      if !isMem r.kind then answer r (if hasLd g d n then ldIoAnswer r else noTarget r.kind) d
      else match sharedKey g d n r.addr with
        | none => xlate g r.id d
        | some key => if r.kind == .memSpecRd then answer r none d else toHome g f n key w d
    | .pt lp _ =>
      if lpContained d lp then answerContained g lp r d else toPort g f (1000 + lp.val) lp orig d
    | .host v => match hostPort g d v with
      | some lp => if lpLinkUp d lp then toPort g f (2000 + lp) lp orig d else answer r (hostGone r.kind) d
      | none => answer r (hostGone r.kind) d

/-- The target of a request can take a packet: a passthrough port that is not contained, a host with its link up. -/
def tgtOpen (g : Cfg) (d : Dyn) (r : Req) : Bool :=
  match r.tgt with
  | .pt lp _ => !lpContained d lp
  | .host v => hostUp g d v
  | _ => true

/-- A write with permitted and forbidden parts: one write to the target for each run of permitted parts (R269), or the one answer
of Table 2.9 or R89 where the target is contained or gone. -/
def forwardRuns (g : Cfg) (f : Flight) (runs : List (Nat × Nat)) (d : Dyn) : Dyn :=
  if !tgtOpen g d f.req then forward g f true true d
  else
    let d := credit f.req.lport (clsOf f.req.kind) (setFlight f.req.id (fun x => { x with poison := true }) d)
    forAll runs (fun p d => forward g { f with req := { f.req with addr := p.1, len := p.2 } } true false d) d

/-- A request is gate-checked, attributed and sent on (R31, R259 to R272, R286, R288). What comes from a device on a port whose BIND is
not PASSTHRU is a violation; the port's BIND decides, also for an LD of a multi-logical device that the LD binding table binds by
passthrough there, of which the spec says nothing (DESIGN CHOICE, assumption 128). -/
def enter (g : Cfg) (r : Req) (d : Dyn) : Dyn :=
  let r := if protoOf r.kind = 1 then { r with pasid := none } else r
  let die := lpDie r.lport
  let gen := genOf d die
  if isDown g d r.lport && lpBind g r.lport != 0 then
    let f := if (gateKind r.kind).isSome then newFlight d r none else { newFlight d r none with gen := uncheckedGen }
    let d := bump .qosUnattrCount 0 1 { d with flights := d.flights ++ [f] }
    if (gateKind r.kind).isNone then answer r (noTarget r.kind) d
    else
      let d := tallyPort r.lport 0x18 1 (violate g die r none gen [(r.addr, (reqParts r).length, none)] d)
      denyWhole g (newFlight d r none) (mirAll g (lpClu r.lport) (reqView r none none r.lport false true) d)
  else
    let host := reqHost g d r
    let r := { r with tgt := routeOf g d r }
    let slice := match host with
      | some h => attribute1 (qCfg g d) d r h
      | none => none
    let d := if slice.isNone then bump .qosUnattrCount 0 1 d else d
    let d := match r.kind with
      | .memRd | .memSpecRd => slcAdd slice 0 1 d
      | .memWr => slcAdd slice 1 1 d
      | _ => d
    let checked := (gateKind r.kind).isSome && match r.tgt with
      | .none => false
      | .ld _ => isMem r.kind
      | _ => true
    let f := if checked then newFlight d r slice else { newFlight d r slice with gen := uncheckedGen }
    let d := { d with flights := d.flights ++ [f] }
    let gg := genCfg g d die
    let parts := if checked then checkParts gg r host else []
    if parts.all fun p => p.ok then forward g f (permits gg r host 1 r.addr) true d
    else
      let d := tallyPort r.lport 0x18 1 (violate g die r host gen (forbiddenRuns parts) d)
      let d := mirAll g (lpClu r.lport) (reqView r host slice r.lport false true) d
      let runs := permittedRuns parts
      if (r.kind == .ioWr || r.kind == .ioWrNp) && !runs.isEmpty then forwardRuns g f runs d
      else denyWhole g f d

/-- A die's copy of a gate rule is in error, so requests entering on the die wait (R479). -/
def ruleInError (d : Dyn) (die : Nat) : Bool := d.hlth.fixes.any fun x => x.kind == .gateRule && x.inst == die

/-- A request enters at an ingress logical port and is gate-checked, attributed and translated (R31, R256, R286). Data of a contained
or closed port is discarded (R80, R85); a request for which the partner holds no credit stays with it (R97); while a gate rule of the die is in error the request waits (R479). -/
def requestIn (g : Cfg) (r : Req) (d : Dyn) : Dyn :=
    if decide (2 ^ 79 ≤ r.id) || (flightOf d r.id).isSome || !portOpen g d r.lport || !protoUp d r.lport r.kind
      || (d.hlth.gateWait.any fun q => q.id == r.id) || !stagRoom d r.lport (clsOf r.kind) (reqBytes r.kind r.len) then d
    else if ruleInError d (lpDie r.lport) then { d with hlth := { d.hlth with gateWait := d.hlth.gateWait ++ [r] } }
    else enter g r (ungate (lpPu r.lport) (ungate (96 + lpClu r.lport) (tallyPort r.lport 0x10 1 d)))

/-! ## Admission (R96 to R98, R110, R293, R294, R296) -/

/-- What mirror sessions see of a packet. -/
def pktView (p : Pkt) (lp : Nat) (egress : Bool) : MirView :=
  match p.body with
  | .req r _ _ | .remote r _ => { reqView r p.host p.slice lp egress false with len := p.bytes }
  | _ => ⟨lp, egress, false, p.cls, if p.cls = 3 then 0 else if p.cls = 2 then 2 else 1, p.host.getD 128, 0, p.slice, none, p.bytes, false⟩

/-- A CXL.mem request of a host is policed (R296). -/
def policed (p : Pkt) : Option Nat :=
  match p.body with
  | .req r _ _ => if isMem r.kind then p.host else none
  | _ => none

/-- A packet carries a CXL.io request. -/
def isIo (p : Pkt) : Bool :=
  match p.body with
  | .req r _ _ => protoOf r.kind == 0
  | _ => false

/-- Count a packet just admitted as cut through or stored, at a logical port (R111, Table 17.2). -/
def tallyWay (lp : Nat) (p : Pkt) (d : Dyn) : Dyn :=
  match (bufOf d (lpClu lp)).getLast? with
  | some b => if b.pkt.flow = p.flow then tallyPort lp (if b.ct then 0x12 else 0x13) 1 d else d
  | none => d

/-- A packet whose destination port is contained goes no further: a request is answered under Table 2.9, a copy write returns
to its mover, a mirror copy counts as lost, a response is dropped with its request (R85, R119, R120). -/
def dropContained (g : Cfg) (lp : Nat) (p : Pkt) (d : Dyn) : Dyn :=
  match p.body with
  | .req _ _ _ => match flightOf d p.flow with
    | some f => if f.devs.contains (1000 + lp) then answerContained g lp f.req d else d
    | none => d
  | .rsp id _ _ => commit id (tellDone id d)
  | _ => fellEffect (lpClu lp) false ⟨p, cellsOf p, 0, false, 0, 0⟩ d

/-- The head of an ingress staging queue: a forbidden request is answered, one toward a contained port is dropped as Table 2.9 says; another
waits for the shaper and for cells, and is then charged, policed, mirrored and admitted, and its credit returns (R85, R96, R97, R120, R125,
R291 to R296). -/
def admitPort (g : Cfg) (lp cls : Nat) (first : Bool) (d : Dyn) : Dyn :=
  let k := lp * 8 + cls
  match aget [] d.fwd.stag k with
  | [] => d
  | x :: t =>
    let gone (d : Dyn) : Dyn := { d with fwd := { d.fwd with stag := aset [] d.fwd.stag k t } }
    let p := x.pkt
    match x.deny with
    | some a => match flightOf d p.flow with
      | some f => answer f.req (some a) (gone d)
      | none => gone d
    | none =>
      let q := qCfg g d
      let p := { p with slice := sliceNow q d p, weight := if (sliceNow q d p) = p.slice then p.weight else weightOf q d (sliceNow q d p) }
      if p.dst < 192 ∧ lpContained d p.dst then doIf x.orig (credit lp cls) (dropContained g p.dst p (gone d))
      else if !passes q d p.slice p.charge then
        match p.slice with
        | some s => put .qosSliceLvlHeld s 1 d
        | none => d
      else
        let r := tryAdmit g (lpClu lp) p first d
        if !r.1 then r.2
        else
          let pc := match policed p with
            | some h => police q h 0 p.charge d
            | none => (0, d)
          let d := (tryAdmit g (lpClu lp) { p with color := pc.1 } first (chargeSlice q p.slice p.charge pc.2)).2
          let d := gone d
          let d := slcAdd (if isIo p then p.slice else none) 2 ((p.charge + 63) / 64) d
          let d := if pc.1 = 0 then d else tallyPort lp (if pc.1 = 1 then 0x16 else 0x17) 1 d
          let d := tallyWay lp p d
          if x.orig then credit lp cls (mirAll g (lpClu lp) (pktView p lp false) d) else d

/-- The head of an ejection staging queue is admitted when its cells can be charged, unless its port is contained (R85,
R98). -/
def admitNet (g : Cfg) (cl cls : Nat) (first : Bool) (d : Dyn) : Dyn :=
  let k := cl * 8 + cls
  match aget [] d.fwd.eject k with
  | [] => d
  | p :: t =>
    let r := tryAdmit g cl p first d
    if lpContained d p.dst then dropContained g p.dst p { d with fwd := { d.fwd with eject := aset [] d.fwd.eject k t } }
    else if r.1 then
      let d := tallyWay p.dst p r.2
      { d with fwd := { d.fwd with eject := aset [] d.fwd.eject k t } }
    else r.2

/-- A packet discarded for its header or its descriptor: an uncorrectable internal error in the VCS of its ingress logical port, else an
event alone; the requester is not answered, and its request commits with the discard. A shared request's home slice hears DONE then, which
the spec leaves open (R92, R99, R275; DESIGN CHOICE, assumption 153). -/
def parityDrop (g : Cfg) (p : Pkt) (d : Dyn) : Dyn :=
  let d := match p.body with
    | .req _ _ _ | .remote _ _ => commit p.flow (tellDone p.flow d)
    | .rsp id _ _ => commit id (tellDone id d)
    | _ => d
  if p.src < 192 then reportAt g p.src 2 d else errAlone (p.src % 4) [p.src, 2] d

/-- The head of a staging queue fails its header parity and is discarded (R99). -/
def admitBad (g : Cfg) (w : AdmitFrom) (d : Dyn) : Dyn :=
  match w with
  | .port lp cls =>
    let k := lp.val * 8 + cls.val
    match aget [] d.fwd.stag k with
    | [] => d
    | x :: t => parityDrop g x.pkt (credit lp cls { d with fwd := { d.fwd with stag := aset [] d.fwd.stag k t } })
  | .net cl cls =>
    let k := cl.val * 8 + cls.val
    match aget [] d.fwd.eject k with
    | [] => d
    | p :: t => parityDrop g p { d with fwd := { d.fwd with eject := aset [] d.fwd.eject k t } }

/-- The packet at the head of a staging queue. -/
def headAt (d : Dyn) (w : AdmitFrom) : Option Pkt :=
  match w with
  | .port lp cls => ((aget [] d.fwd.stag (lp.val * 8 + cls.val)).head?).bind fun x => if x.deny.isSome then none else some x.pkt
  | .net cl cls => (aget [] d.fwd.eject (cl.val * 8 + cls.val)).head?

/-- The cluster a staging queue admits to. -/
def cluAt : AdmitFrom → Nat
  | .port lp _ => lpClu lp
  | .net cl _ => cl

/-- A packet that comes from a port unit. -/
def fromPort : AdmitFrom → Bool
  | .port _ _ => true
  | .net _ _ => false

/-- Of the packets of one cycle that find an egress idle, the one its scheduler would transmit first, level, deficit and rotation
included; the others are stored and forwarded (R115, R306). -/
def cutFirst (g : Cfg) (d : Dyn) (ws : List AdmitFrom) (w : AdmitFrom) : Bool :=
  let cl := cluAt w
  let l := bufOf d cl
  match headAt d w with
  | none => true
  | some p =>
    let e := egressOf cl p
    let cands := ws.filterMap fun v => match headAt d v with
      | some q => if cluAt v == cl && egressOf cl q == e && cutThrough g d cl e q l then some (v, (⟨q, cellsOf q, e, false, 0, 0⟩ : BufPkt)) else none
      | none => none
    match pickPkt (cands.map Prod.snd) e 255 (egrOf d cl e) with
    | none => true
    | some x => ((cands.find? fun c => c.2 == x.1).map Prod.fst) == some w

/-- One packet of a cycle is admitted, or waits; one whose header fails its parity is discarded (R96, R99). -/
def admitOne (g : Cfg) (w : AdmitFrom) (parityOk first : Bool) (d : Dyn) : Dyn :=
  if !parityOk then admitBad g w d
  else match w with
    | .port lp cls => if cluStopped d (lpClu lp) then d else admitPort g lp cls first d
    | .net cl cls => if cluStopped d cl then d else admitNet g cl cls first d

/-- ADMIT: the packets at the heads of the staging queues named, each with its header parity, ask for cells in one cycle: those of port
units first, then those from the network, and of several that find an egress idle one is cut through (R96, R99, R110, R115, R306). -/
def execAdmit (ws : List (AdmitFrom × Bool)) (s : State) : Host.Outcome State Fault Refusal :=
  nextDyn s fun g d =>
    let good := (ws.filter fun x => x.2).map Prod.fst
    let ok := ws.map fun x => (x, cutFirst g d good x.1)
    forAll ((ok.filter fun x => fromPort x.1.1) ++ ok.filter fun x => !fromPort x.1.1) (fun x d => admitOne g x.1.1 x.1.2 x.2 d) d

/-! ## Egress (R116, R275) -/

/-- A request that owes no response: posted writes and MemSpecRd. -/
def noResp (k : ReqKind) : Bool := k == .ioWr || k == .memSpecRd

/-- A packet has left on an egress link: a request goes to its device or host, and commits there when no response is owed; a
response commits its request; a copy write, a zero write or a record goes to its device (R125, R129, R169, R275). -/
def depart (g : Cfg) (lp : Nat) (p : Pkt) (d : Dyn) : Dyn :=
  let d := if p.cls = 6 then d else mirAll g (lpClu lp) (pktView p lp true) d
  match p.body with
  | .req r a ldId =>
    if (flightOf d p.flow).isNone then d
    else
    let d := poisTally lp r.poison d
    let d := emit (if isUp g d lp then .hostReq lp p.flow r.kind a r.len r.poison else .devReq lp ldId p.flow r.kind a r.len r.poison) d
    if noResp r.kind then
      let d := setFlight p.flow (fun f => { f with devs := f.devs.drop 1 }) d
      match flightOf d p.flow with
      | some f => if f.devs.isEmpty then commit p.flow d else d
      | none => d
    else d
  | .rsp id k dl =>
    match flightOf d id with
    | none => d
    | some _ =>
      let dl := if p.cls = 1 ∧ isUp g d lp then dlMax dl (redLevel d (cg g .portLpcfgVcs lp)) else dl
      commit id (emit (.resp id lp k dl) (tellDone id (poisTally lp (isPoison k) d)))
  | .copy _ _ _ dev line po => emit (.copyWr dev (line / 32768) (line % 32768 * 64) p.flow po) (poisTally lp po d)
  | .zero dev b => emit (.zeroWr dev b 1) d
  | .mirror i _ ws cap len => mirDeliver g i ws cap len d
  | .snp _ key k => emit (.biSnp lp key k) d
  | .mgmt q op rc detail ws => emit (.cmdResp q op rc detail ws) d
  | .remote _ _ | .far _ => d

/-- The packet an egress is sending or begins to send in a slot (R116). -/
def slotPkt (d : Dyn) (cl e credit : Nat) : Option BufPkt :=
  match (bufOf d cl).find? fun b => b.egr == e && b.sent != 0 with
  | some b => some b
  | none => (pickPkt (bufOf d cl) e credit (egrOf d cl e)).map Prod.fst

/-- A slot carries bytes that do no work: a copy write of a block or chunk that its mover will issue again (R108, Table 17.3). -/
def slotWasted (d : Dyn) (p : Pkt) : Bool :=
  match p.body with
  | .copy die slot blk _ _ _ =>
    if slot < 16 then bitAt (migGet d (die * 16 + slot)).again blk
    else (((entOf d (slot - 16) (blk / 2 ^ 24)).bind RingEnt.job).map fun j => j.redo && blk % 2 ^ 24 == j.next).getD false
  | _ => false

/-- The class of a slot (Table 17.3). -/
def slotClass (d : Dyn) (cl e credit : Nat) : Nat :=
  match slotPkt d cl e credit with
  | some b => if slotWasted d b.pkt then 1 else 0
  | none => if (bufOf d cl).any fun b => b.egr == e && !bitAt credit b.pkt.cls then 3 else 2

/-- The slots of a pad record that goes before a mirror record (Table 17.3, R128). -/
def padSlots (g : Cfg) (d : Dyn) (p : Pkt) : Nat :=
  match p.body with
  | .mirror i _ _ _ len =>
    let size := mirBufBytes g i
    let room := size - (aget mir0 d.mir i).written % size
    if room < len then (room + 63) / 64 else 0
  | _ => 0

/-- The packet an egress is about to begin fails its header parity: it leaves the buffer and is discarded (R99). -/
def egressBad (g : Cfg) (cl e credit : Nat) (d : Dyn) : Dyn :=
  match slotPkt d cl e credit with
  | none => d
  | some b =>
    if b.sent ≠ 0 then d
    else parityDrop g b.pkt (setBuf cl (dropOne b (bufOf d cl)) d)

/-- EGRESS_TRANSMIT: one 64 B slot of an egress goes to a class and queue by priority and deficit round robin; `cr` has a
bit for each class the partner has credit for; `replay` says that the link fills the slot of a logical port with a flit it
sends again, 1 its first slot, 2 a later one; `parityOk` whether the header of a packet that begins here holds its parity (R99, R104, R116,
R302 to R304, R502); a logical port has a slot only once it has offered one (R550). Egress 0 to 7 is a logical port of the cluster, 8 + r the virtual output queue of router r. -/
def execEgressTransmit (cl : Clu) (egr : Fin 40) (cr : Fin 256) (replay : Fin 3) (parityOk : Bool) (s : State) :
    Host.Outcome State Fault Refusal :=
  nextDyn s fun g d =>
    let lp := cl.val * 8 + egr.val
    if cluStopped d cl || (decide (egr.val < 8) && (!portOpen g d lp || slotsDue d lp == 0)) then d
    else if egr.val < 8 ∧ replay.val ≠ 0 then
      slotCount lp 1 1 (if replay.val = 1 then tallyPort lp 0x19 1 d else d)
    else
      let d := if parityOk then d else egressBad g cl egr cr d
      let d := if egr.val < 8 then slotCount lp (slotClass d cl egr cr) 1 d else d
      let x := egrSlot cl egr cr d
      match x.1 with
      | none => x.2
      | some b =>
        if egr.val < 8 then depart g lp b.pkt (tallyPort lp 0x11 1 (slotCount lp 1 (padSlots g d b.pkt) x.2))
        else inject (cluRouter cl) (planeOf b.pkt) (egr.val - 8) b.pkt x.2

/-! ## Responses (R122, R123, R152, R236) -/

/-- The response to a request once every device has answered: a shared request's by the state granted, poison where any
device returned it, one Unsupported Request for a write with forbidden parts (R91, R236, R269). -/
def finalResp (f : Flight) (k : RespKind) : RespKind :=
  match f.req.kind with
  | .memRd =>
    if f.poison then (if f.grant = 2 then .memDataPoisonS else if f.grant = 3 then .memDataPoisonE else .memDataPoison)
    else if f.grant = 2 then .memDataS else if f.grant = 3 then .memDataE else .memData
  | .memWr | .memInv | .memClnEvct =>
    if f.grant = 2 ∨ f.grant = 10 then .cmpS else if f.grant = 3 ∨ f.grant = 11 then .cmpE else .cmp
  | .ioWrNp => if f.poison then .ur else k
  | _ => if f.poison && k == .cpl then .cplPoison else k

/-- The logical port a responder answers from: a backend device, 1000 + a passthrough port, 2000 + a host's port. -/
def whoPort (d : Dyn) (who : Nat) : Nat :=
  if who < 128 then rd d .xltBedevLport who else if who < 2000 then who - 1000 else who - 2000

/-- Bytes of a response's packet (assumption 25). -/
def rspBytes (r : Req) (k : RespKind) : Nat := if k = .cpl ∨ k = .cplPoison then 16 + r.len else 64

/-- The packet of a response toward its requester's port (R118, R286); that of a managed request takes the reverse route, through the
router also inside one cluster (R19). -/
def rspPkt (g : Cfg) (d : Dyn) (f : Flight) (src : Nat) (k : RespKind) (dl : DevLoad) : Pkt :=
  let dst := f.req.lport.val
  let near := match f.req.tgt with
    | .ld _ => false
    | _ => decide (lpClu dst = lpClu src)
  ⟨f.req.id, rspCls f.req.kind, rspBytes f.req k, src, dst, reqHost g d f.req, f.slice,
   weightOf (qCfg g d) d f.slice, 0, 0, lpRate d src, near, .rsp f.req.id k dl⟩

/-- S2M_RESPONSE: a device or host answers a request it owes an answer, when it holds credit for the response (R97): the mark from the depth of its egress raises DevLoad,
the completion of a write marks a migrating page, and when the last has answered the response goes to the requester; to one on another
package with the congestion bit where the mark is Moderate or Severe or the policer here coloured the request red (R85, R121, R122, R124,
R152, R165, R301). -/
def execS2mResponse (id : Nat) (who : Fin 2192) (k : RespKind) (poison : Bool) (dl : DevLoad) (s : State) :
    Host.Outcome State Fault Refusal :=
  nextDyn s fun g d =>
    let lp := whoPort d who
    match flightOf d id with
    | none => d
    | some f =>
      if !f.devs.contains who.val || !portOpen g d lp || !stagRoom d lp (rspCls f.req.kind) (rspBytes f.req k) then d
      else
        let mark := if rspCls f.req.kind = 1 then markOf g (lpClu lp) (egrDepth d lp) else .light
        let d := ungate (lpPu lp) (ungate (96 + lpClu lp) (tallyPort lp 0x10 1 d))
        let d := match mark with
          | .moderate => tallyClu (lpClu lp) 0x24 1 d
          | .severe => tallyClu (lpClu lp) 0x25 1 d
          | _ => d
        let f := { f with devs := dropOne who.val f.devs, poison := f.poison || poison, devLoad := dlMax f.devLoad (dlMax dl mark) }
        let d := setFlight id (fun _ => f) d
        let d := match f.page with
          | some (ld, pg) =>
            let e := ptGet d ld pg
            if f.req.kind = .memWr ∧ e.dev = who.val then markWindow e.dev e.bpage (f.req.addr % 2097152) f.req.len d else d
          | none => d
        let cr := credit lp (rspCls f.req.kind)
        if !f.devs.isEmpty then cr d
        else if isPoisonWrite id then cr (tellDone id d |> commit id)
        else if f.via.isSome then
          let hot := mark == .moderate || mark == .severe || f.color == 2
          match farRsp { f with cg := f.cg || hot } (f.via.getD 4) (cluRouter (lpClu lp)) (finalResp f k) d with
          | some p => commit id (stage lp ⟨{ p with src := lp, weight := weightOf (qCfg g d) d f.slice }, none, true⟩ d)
          | none => commit id (cr d)
        else if lpContained d f.req.lport then cr (tellDone id d |> commit id)
        else stage lp ⟨rspPkt g d f lp (finalResp f k) f.devLoad, none, true⟩ d

/-! ## Mirror commands (R129, R131) -/

/-- WRITE_COUNT_UPDATE: the 64-bit write count goes to MIR_WPA after the records it covers, at most once per µs (R129). -/
def execWriteCountUpdate (i : Sess) (s : State) : Host.Outcome State Fault Refusal :=
  nextDyn s fun g d =>
    let m := aget mir0 d.mir i
    if m.told < m.written ∧ (m.told = 0 ∨ m.lastAt + 1000 ≤ d.now) then
      emit (.mirrorCount i (cg g .mirWpaAddr i * 8) m.written)
        { d with mir := aset mir0 d.mir i { m with told := m.written, lastAt := d.now } }
    else d

/-- MIRROR_ENABLE: a write to MIR_CTL.EN; enabling starts sequence numbers, sampling and the write count at 0 (R127, R129,
R130, R131). -/
def setMirror (i : Nat) (en : Bool) (d : Dyn) : Dyn :=
  let d := if en && rd d .mirCtlEn i == 0 then { d with mir := aset mir0 d.mir i mir0 } else d
  put .mirCtlEn i (b2n en) d

/-- MIRROR_ENABLE: a write to MIR_CTL.EN of a session (R131). -/
def execMirrorEnable (i : Sess) (en : Bool) (s : State) : Host.Outcome State Fault Refusal :=
  nextDyn s fun _ d => setMirror i en d

end Machine
end Sys2Proof
end

