-- ==== Sys2Proof/Machine/Ports.lean ====
section
/-! DEFINITION. Ports (spec/02) and the VCS binding of spec/05: training, binding, containment, loss of upstream links, link
power states and error handling. -/

namespace Sys2Proof
namespace Machine

/-! ## Policy and binding (R62, R63, R221 to R223) -/

/-- The last entry of a policy subtable for a logical port and LD-ID: later entries replace earlier ones (R454). -/
def polFind (l : List Word) (lp ld : Nat) : Option Nat :=
  ((l.filter fun w => bits w.toNat 24 8 == lp && bits w.toNat 16 8 == ld).getLast?).map BitVec.toNat

/-- Where a logical port's device or LD is to be bound: a VCS, 254 the managed pool, 255 nowhere, 256 analysis: through its
binding entry, else the LD binding table, else its port's BIND (R63, R222). -/
def bindTarget (g : Cfg) (d : Dyn) (lp ld : Nat) : Nat :=
  match bndOf d lp ld with
  | some b => b.vcs
  | none => match polFind d.boot.pol.bind lp ld with
    | some w => bits w 8 8
    | none => match lpBind g lp with
      | 0 => cg g .portLpcfgVcs lp
      | 1 => 254
      | _ => 256

/-- Table 2.3 allows a device kind and link version for a target. The table gives no version for a Type 1 or Type 2 device, while Table 2.4
calls a CXL 1.1 downstream link 'managed only': one on a CXL 1.1 link is accepted for passthrough (DESIGN CHOICE, assumption 127). -/
def bindOk (p : Partner) (t : Nat) : Bool :=
  match p.kind with
  | .pcie => decide (t < 128) || t == 256
  | .type1 | .type2 => decide (t < 128)
  | .sld => (t == 254 && decide (1 ≤ p.ver.val)) || (decide (t < 128) && decide (2 ≤ p.ver.val))
  | .mld => (t == 254 || decide (t < 128)) && decide (2 ≤ p.ver.val)

/-- Refuse a binding: event 0x010A, the device stays unbound (R62). -/
def bindRefuse (lp ld t : Nat) (d : Dyn) : Dyn := raise 0x010A (lpDie lp) [lp, ld, t] d

/-- The lowest vPPB of a VCS with no binding entry (R221). -/
def freeVppb (d : Dyn) (v : Nat) : Option Nat :=
  firstFrom (fun k => !(d.alloc.bnds.any fun b => b.vcs == v && b.vppb == k)) 1 31

/-- Bind a device or LD by passthrough: through its entry, or a new one on the lowest free vPPB of its VCS; events 0x040C and
0x0105 and Presence Detect Changed. A new binding takes the DPC settings its host holds for that vPPB; a device that returns through
its entry leaves CONT as it stands (R61, R82, R94, R221, R222). -/
def bindPass (g : Cfg) (lp ld v : Nat) (start : Bool) (d : Dyn) : Dyn :=
  if !d.port.vcs.contains v then bindRefuse lp ld v d
  else
    let told (k : Nat) (d : Dyn) : Dyn :=
      let d := raise 0x040C (lpDie lp) [lp, ld, v, k] d
      if start then d else raise 0x0105 (lpDie lp) [lp, v] (if ptSeen g d v lp then pdChanged g v k d else d)
    match bndOf d lp ld with
    | some b => told b.vppb { d with alloc := { d.alloc with bnds := mapIf (fun x => x == b) (fun x => { x with present := true }) d.alloc.bnds } }
    | none => match freeVppb d v with
      | some k => told k (dpcFollow v k lp { d with alloc := { d.alloc with bnds := d.alloc.bnds ++ [⟨lp, ld, v, k, true⟩] } })
      | none => bindRefuse lp ld v d

/-- A device or LD joins the pool: through its image entry, else through a new lowest free entry filled from the hot-add
policy table; event 0x0105 (R82, R135, R136, R215). -/
def bindPool (g : Cfg) (lp ld bytes : Nat) (start : Bool) (d : Dyn) : Dyn :=
  let told (b : Nat) (d : Dyn) : Dyn :=
    let d := devJoin b bytes { d with alloc := { d.alloc with front := aset 0 d.alloc.front b 0 } }
    if start then d
    else copyWanted g (raise 0x0105 (lpDie lp) [lp] { d with alloc := { d.alloc with hotAdd := d.alloc.hotAdd.filter (fun x => x != b) ++ [b] } })
  match devAt d lp ld with
  | some b => if rd d .xltBedevLost b = 0 then (if d.alloc.joined.contains b then d else told b d) else bindRefuse lp ld 254 d
  | none =>
    match polFind d.boot.pol.hotAdd lp ld, firstFrom (fun b => rd d .xltBedevV b == 0) 0 128 with
    | some w, some b =>
      let d := put .xltBedevLdId b ld (put .xltBedevLport b lp (put .xltBedevLost b 0 (put .xltBedevV b 1 d)))
      told b (put .xltBedevFgrp b (bits w 0 8) (put .xltBedevTier b (bits w 8 8) d))
    | _, _ => bindRefuse lp ld 254 d

/-- BOUND and BOUND_VCS of a port (LSTS). -/
def boundView (_g : Cfg) (lp : Nat) (d : Dyn) : Dyn :=
  let l := d.alloc.bnds.filter fun b => b.lport == lp && b.present
  let low := l.foldl (fun (m : Option Bnd) b => match m with
    | none => some b
    | some x => if b.ldId < x.ldId then some b else some x) none
  let pool := (devsOn d lp).any fun b => d.alloc.joined.contains b
  let ana := d.port.ana.contains lp && lpLinkUp d lp
  put .portLstsBoundVcs lp ((low.map Bnd.vcs).getD 0) (put .portLstsBound lp (b2n (!l.isEmpty || pool || ana)) d)

/-- Bind one LD (0 for a device that is no multi-logical device) of a trained port. After start a passthrough device binds
only with AUTO_BIND = 1, or where an amendment has bound it while it was there (R62, R63, R64, R222, R223). -/
def bindLd (g : Cfg) (lp : Nat) (p : Partner) (ld bytes : Nat) (start : Bool) (d : Dyn) : Dyn :=
  let t := bindTarget g d lp ld
  if t = 255 then d
  else if t < 128 ∧ !start ∧ cg g .portLpcfgAutoBind lp = 0 ∧ !d.port.owedBind.contains (lp, ld) then d
  else if !bindOk p t then bindRefuse lp ld t d
  else if t < 128 then bindPass g lp ld t start d
  else if t = 254 then bindPool g lp ld bytes start d
  else if t = 256 then
    let d := { d with port := { d.port with ana := d.port.ana.filter (fun x => x != lp) ++ [lp] } }
    if start then d else raise 0x0105 (lpDie lp) [lp] d
  else bindRefuse lp ld t d

/-- At start a device behind a slot channel has not trained when the ports are bound: its vPPB is taken in port order, and the binding is
made when it trains (R221, R434). -/
def bindReserve (g : Cfg) (lp : Nat) (p : Partner) (ld : Nat) (d : Dyn) : Dyn :=
  let t := bindTarget g d lp ld
  if 128 ≤ t ∨ !bindOk p t ∨ !d.port.vcs.contains t ∨ (bndOf d lp ld).isSome then d
  else match freeVppb d t with
    | some k => dpcFollow t k lp { d with alloc := { d.alloc with bnds := d.alloc.bnds ++ [⟨lp, ld, t, k, false⟩] } }
    | none => d

/-- The LDs of a partner: those of a multi-logical device, at most 16, else one numbered 0. -/
def ldsOf (p : Partner) : List (Nat × Nat) :=
  match p.kind with
  | .mld => (p.lds.filter fun x => decide (x.1 < 16)).take 16
  | _ => [(0, (p.lds.head?.map Prod.snd).getD 0)]

/-- Bind everything on a trained downstream port, in LD-ID order (R82, R221). -/
def bindPort (g : Cfg) (lp : Nat) (p : Partner) (start : Bool) (d : Dyn) : Dyn :=
  let d := { d with port := { d.port with device := ⟨cellsPut lp p (cellsDrop lp d.port.device.cells)⟩,
                                          ana := d.port.ana.filter fun x => x != lp } }
  let d := forAll (List.range 16) (fun ld d => match (ldsOf p).find? fun x => x.1 == ld with
    | some x => bindLd g lp p ld x.2 start d
    | none => d) d
  boundView g lp { d with port := { d.port with owedBind := d.port.owedBind.filter fun x => x.1 != lp } }

/-- At start, in port order: a device that can train now does and is bound; one whose slot channel holds it in reset keeps its place
(R221). -/
def startPort (g : Cfg) (lp : Nat) (p : Partner) (train : Dyn → Dyn) (d : Dyn) : Dyn :=
  if isDown g d lp && d.port.inReset.contains (lpPu lp) then
    let d := forAll (List.range 16) (fun ld d => if (ldsOf p).any fun x => x.1 == ld then bindReserve g lp p ld d else d) d
    { d with port := { d.port with startLp := d.port.startLp.filter (fun x => x != lp) ++ [lp] } }
  else train d

/-! ## Training (R68 to R71) -/

/-- The width code of a port's lanes (R52). -/
def fullWidth (g : Cfg) (lp : Nat) : Nat := 5 - min 2 (cg g .portPcfgBif (lpPu lp))
/-- MAXSPD; reserved values act as 0b101 (Table 2.11). -/
def maxSpeed (g : Cfg) (lp : Nat) : Nat := min 5 (cg g .portPcfgMaxspd (lpPu lp))

/-- CXL_VER of a link (Table 2.4): 1 PCIe only, 2 CXL 1.1, 3 CXL 2.0, 4 CXL 3.x; an upstream CXL 1.1 link runs as PCIe. -/
def linkVer (up : Bool) (p : Partner) : Nat := if up && p.ver == 1 then 1 else p.ver.val + 1

/-- FLIT of a link (Table 2.4). -/
def linkFlit (g : Cfg) (lp ver speed : Nat) (p : Partner) : Nat :=
  if ver = 4 then (if p.lopt && cg g .portPcfgLoptEn (lpPu lp) == 1 then 2 else 1)
  else if ver = 1 then (if speed = 5 then 1 else 3) else 0

/-- The protocols of a link: CXL.mem, CXL.cache; CXL.cache only toward hosts and on passthrough bindings (Table 2.1, R69). -/
def linkProtos (g : Cfg) (lp ver : Nat) (up : Bool) (p : Partner) : Nat × Nat :=
  if ver = 1 then (0, 0)
  else if up then (1, 1)
  else match p.kind with
    | .type1 => (0, b2n (lpBind g lp == 0))
    | .type2 => (1, b2n (lpBind g lp == 0))
    | .sld | .mld => (1, 0)
    | .pcie => (0, 0)

/-- LSTS of a port without a link: every field of the link 0. -/
def linkFields0 (lp : Nat) (d : Dyn) : Dyn :=
  let fs : List SFld := [.portLstsLinkUp, .portLstsSpeed, .portLstsWidth, .portLstsIo, .portLstsCache, .portLstsMem,
    .portLstsMld, .portLstsIdeOn, .portLstsFlit, .portLstsCxlVer]
  let d := forAll fs (fun f d => put f lp 0 d) d
  { d with port := { d.port with l0p := aset 0 d.port.l0p lp 0, l0pWish := aset 0 d.port.l0pWish lp 0,
                                 l1 := d.port.l1.filter fun x => x != lp, ide := adel d.port.ide lp } }

/-- CXL.cachemem IDE of a link that has trained (R77, R78): toward a device the switch is the IDE_KM requester: it programs a key of the
link's own and starts the stream, in containment mode where the device can run it; who asks for it on a passthrough link the spec does not
say (DESIGN CHOICE, assumption 140). Toward a host, whose requests the responder serves, nothing runs yet. -/
def ideStart (lp : Nat) (p : Partner) (d : Dyn) : Dyn :=
  let x := freshId d
  let d := { x.2 with port := { x.2.port with ide := ⟨cellsPut lp ⟨p.ideCont, 2 * x.1, false, true⟩ (cellsDrop lp x.2.port.ide.cells)⟩,
                                              insecure := x.2.port.insecure.filter fun y => y != lp } }
  emit (.ideKm lp 2 (2 * x.1)) (emit (.ideKm lp 1 (2 * x.1)) (put .portLstsIdeOn lp 1 d))

/-- LSTS of a port that has trained (Tables 2.4 and 2.11). An upstream link whose stream is insecure stays out of CXL.cachemem until its
host has put new keys in place (R80). -/
def linkFields (g : Cfg) (lp : Nat) (p : Partner) (d : Dyn) : Dyn :=
  let up := isUp g d lp
  let ver := linkVer up p
  let cap := if ver = 2 ∨ ver = 3 ∨ (up && p.ver == 1) then min 4 (maxSpeed g lp) else maxSpeed g lp
  let speed := min p.speed.val cap
  let width := min p.width.val (fullWidth g lp)
  let pr := linkProtos g lp ver up p
  let d := if p.ide && ver != 1 && !up then ideStart lp p d else d
  let safe := !d.port.insecure.contains lp
  let vals : List (SFld × Nat) := [(.portLstsLinkUp, 1), (.portLstsSpeed, speed), (.portLstsWidth, width), (.portLstsIo, 1),
    (.portLstsMem, if safe then pr.1 else 0), (.portLstsCache, if safe then pr.2 else 0),
    (.portLstsMld, b2n (!up && p.kind == .mld)),
    (.portLstsFlit, linkFlit g lp ver speed p), (.portLstsCxlVer, ver), (.portLstsPrsnt, 1)]
  forAll vals (fun x d => put x.1 lp x.2 d) d

/-- A port may train: in use, its region running and its port unit awake, not held down for a failed host, not in reset, start complete (R43, R252,
R434, R441). -/
def mayTrain (g : Cfg) (d : Dyn) (lp : Nat) : Bool :=
  lpRole g d lp != 0 && !lpLinkUp d lp && !d.port.heldDown.contains lp && !d.port.inReset.contains (lpPu lp)
    && !cluStopped d (lpClu lp) && domPwr d (domPu (lpPu lp)) ≤ 1

/-- Release containment of a port (R86, R87). -/
def releaseDpc (lp : Nat) (d : Dyn) : Dyn :=
  let d := put .portLstsContained lp 0 (put .portContDpcTrig lp 0 (put .portContReason lp 0 d))
  { d with port := { d.port with dpcAt := akeep (fun k _ => !(d.alloc.bnds.any fun b => b.lport == lp && b.vcs * 32 + b.vppb == k)) d.port.dpcAt } }

/-- Containment of a port is held for a host: it is bound by passthrough, also where only some LDs of a multi-logical device are
(R87; DESIGN CHOICE, assumption 129). -/
def hostHolds (d : Dyn) (lp : Nat) : Bool := d.alloc.bnds.any fun b => b.lport == lp

/-- A port trains (R68 to R70, R82, R86): managed and unbound ports leave containment by themselves, one with a passthrough or analysis
binding only after its release. -/
def linkUpAt (g : Cfg) (lp : Nat) (p : Partner) (start : Bool) (d : Dyn) : Dyn :=
  if !mayTrain g d lp || p.width.val == 0 then d
  else if lpContained d lp && (hostHolds d lp || d.port.ana.contains lp) then d
  else
    let d := linkFields g lp p (if lpContained d lp then releaseDpc lp d else d)
    let vcs := cg g .portLpcfgVcs lp
    let d := raise 0x0101 (lpDie lp) [lp, vcs] d
    let d := if rd d .portLstsWidth lp < fullWidth g lp ∨ rd d .portLstsSpeed lp < maxSpeed g lp
      then raise 0x0103 (lpDie lp) [lp, vcs] d else d
    if isUp g d lp then
      let d := if rd d .portLstsCxlVer lp = 1 then raise 0x0104 (lpDie lp) [lp, vcs] d else d
      pdTellOwed vcs (hostBack vcs (viralSet vcs p.viral d))
    else
      let first := d.port.startLp.contains lp
      bindPort g lp p (start || first) { d with port := { d.port with startLp := d.port.startLp.filter fun x => x != lp } }

/-! ## Containment and link loss (R84 to R92) -/

/-- Take the packets queued for a port's link out of its cluster buffer (R85). -/
def flushEgress (g : Cfg) (lp : Nat) (d : Dyn) : Dyn :=
  let cl := lpClu lp
  let l := (bufOf d cl).filter fun b => b.egr == lp % 8
  let d := setBuf cl ((bufOf d cl).filter fun b => b.egr != lp % 8) d
  forAll l (fun b d => dropContained g lp b.pkt d) d

/-- The device has gone: passthrough vPPBs show an empty slot with Presence Detect Changed; event 0x0106, but
not on a port that is contained already (R82, R84, R88, R222). -/
def presenceLost (g : Cfg) (lp : Nat) (d : Dyn) : Dyn :=
  let l := d.alloc.bnds.filter fun b => b.lport == lp && b.present
  let was := rd d .portLstsPrsnt lp
  let d := put .portLstsPrsnt lp 0 d
  let d := { d with alloc := { d.alloc with bnds := mapIf (fun b => b.lport == lp) (fun b => { b with present := false }) d.alloc.bnds } }
  let d := forAll (l.filter fun b => ptSeen g d b.vcs lp) (fun b d => pdChanged g b.vcs b.vppb d) d
  let d := { d with port := { d.port with device := adel d.port.device lp, startLp := d.port.startLp.filter (fun x => x != lp),
                                          owedBind := d.port.owedBind.filter fun x => x.1 != lp } }
  let d := if was = 1 ∧ isDown g d lp ∧ !lpContained d lp then raise 0x0106 (lpDie lp) [lp] d else d
  boundView g lp d

/-- A slot fault within one 200 ns sample of a link loss: slot fault is the reason recorded, in CONT, in the vPPBs' DPC status and in the
event of this DPC (R88). -/
def slotFaultFirst (lp : Nat) (d : Dyn) : Dyn :=
  let d := put .portContReason lp 3 d
  let d := forAll (d.alloc.bnds.filter fun b => b.lport == lp) (fun b d =>
    { d with port := { d.port with dpcAt := aset 0 d.port.dpcAt (b.vcs * 32 + b.vppb) 3 } }) d
  { d with ev := mapIf (fun e => e.code == 0x0107 && e.args == [lp, 1] && decide (d.now < e.ts + 400)) (fun e => { e with args := [lp, 3] }) d.ev }

/-- DPC on a downstream port: contained with its first reason, the link down, unanswered requests answered, vPPBs told,
backend devices lost; events 0x0106 when presence is lost and 0x0107 (R84, R85, R86, R88). -/
def dpc (g : Cfg) (lp reason : Nat) (gone : Bool) (d : Dyn) : Dyn :=
  if !isDown g d lp then d
  else if lpContained d lp then
    if reason = 3 ∧ rd d .portContReason lp = 1 ∧ d.now < aget 0 d.port.lossAt lp + 200 ∧ aget 0 d.port.lossAt lp ≠ 0
    then slotFaultFirst lp d else d
  else
    let d := put .portLstsContained lp 1 (put .portContDpcTrig lp 1 (put .portContReason lp reason d))
    let d := { d with port := { d.port with lossAt := aset 0 d.port.lossAt lp (if reason = 1 then d.now else 0) } }
    let d := linkFields0 lp d
    let d := forAll (d.flights.filter fun f => f.devs.contains (1000 + lp)) (fun f d => answerContained g lp f.req d) d
    let d := flushEgress g lp d
    let d := if gone ∧ rd d .portLstsPrsnt lp = 1 then raise 0x0106 (lpDie lp) [lp] (presenceLost g lp d)
      else if gone then presenceLost g lp d else d
    let d := raise 0x0107 (lpDie lp) [lp, reason] d
    let d := forAll (d.alloc.bnds.filter fun b => b.lport == lp) (fun b d =>
      emit (.dpcMsi b.vcs b.vppb) { d with port := { d.port with dpcAt := aset 0 d.port.dpcAt (b.vcs * 32 + b.vppb) reason } }) d
    let d := forAll (devsOn d lp) (fun b d => devLost g b d) d
    boundView g lp d

/-- Management paths carried by a host's upstream link: its mailbox and the MCTP sources of its VCS. -/
def pathOnHost (p : Path) (h : Nat) : Bool :=
  match p with
  | .fcf v | .mctp v _ => v == h
  | _ => false

/-- The sessions of the paths over a host's link return to version 1 (R516). -/
def sessDrop (h : Nat) (d : Dyn) : Dyn := { d with mgmt := { d.mgmt with sess := d.mgmt.sess.filter fun x => !pathOnHost x.1 h } }

/-- An upstream link goes down: event 0x0102, requests toward the host completed, packets for it dropped, its rings halted, its sessions
at version 1 (R89, R516). -/
def upDown (g : Cfg) (lp h : Nat) (d : Dyn) : Dyn :=
  let d := sessDrop h (raise 0x0102 (lpDie lp) [lp, h] (linkFields0 lp d))
  ringsLinkLost g h (hostFlights lp h (flushEgress g lp d))

/-- An upstream port loses its link: event 0x0102, requests toward the host completed, its rings halted; a member of a shared
region has failed, another host enters GRACE (R89, R250). -/
def upLost (g : Cfg) (lp : Nat) (d : Dyn) : Dyn :=
  if !isUp g d lp || !lpLinkUp d lp then d
  else
    let h := cg g .portLpcfgVcs lp
    let d := upDown g lp h d
    if isMember g d h then hostFail g h d else enterGrace g h d

/-- A host is declared failed other than by the loss of its link: the switch takes its link down and holds it down (R250 to R252). -/
def failHost (g : Cfg) (h : Nat) (d : Dyn) : Dyn :=
  if hostFailed d h then d
  else match hostPort g d h with
    | some lp => hostFail g h (if lpLinkUp d lp then upDown g lp h d else d)
    | none => hostFail g h d

/-- BISNP_TMO_MS in ns: 0 acts as 1, above 100 as 100. -/
def bisnpTmo (g : Cfg) : Nat := clamp 1 100 (cg g .cohCtlBisnpTmoMs 0) * 1000000

/-- BISNP_TIMEOUT: a BISnp unanswered after BISNP_TMO_MS declares its host failed, event 0x0201 (R250). -/
def execBisnpTimeout (h : Host) (key : Nat) (s : State) : Host.Outcome State Fault Refusal :=
  nextDyn s fun g d =>
    let late := (openOf (dirGet d (homeSlice key)) key).any fun o => o.snoops.any fun t =>
      t.1 == h.val && decide (t.2 + bisnpTmo g ≤ d.now)
    if late then failHost g h (raise 0x0201 (leadOr0 d) [homeSlice key, h, key] d) else d

/-! ## Commands: presence and training -/

/-- PRESENCE_DETECT: the signs of presence at a logical port: either sign at x16, receiver detection alone when bifurcated
(R81). Presence lost with the link up is at x16 a deasserted SLOT_PRSNT#, reason 2 (Table 2.8); a bifurcated port's lanes are not
probed for a receiver while its link is up, so its removal shows as link loss (R84, Table 2.10). -/
def execPresenceDetect (lp : Lport) (prsnt rx : Bool) (s : State) : Host.Outcome State Fault Refusal :=
  nextDyn s fun g d =>
    let here := if cg g .portPcfgBif (lpPu lp) = 0 then prsnt || rx else rx
    if !lpExists g lp then d
    else if here then put .portLstsPrsnt lp 1 d
    else if rd d .portLstsPrsnt lp = 0 then d
    else if lpLinkUp d lp && cg g .portPcfgBif (lpPu lp) != 0 then d
    else if isDown g d lp && lpLinkUp d lp then dpc g lp 2 true d
    else presenceLost g lp d

/-- LINK_UP: a port reaches L0 after training (R68). -/
def execLinkUp (lp : Lport) (p : Partner) (s : State) : Host.Outcome State Fault Refusal :=
  nextDyn s fun g d => if rd d .secBootStsStage 0 = 8 then linkUpAt g lp p false d else d

/-- A packet that a logical port is still receiving is being cut through (R114). -/
def cutNow (d : Dyn) (lp : Nat) : Bool := (bufOf d (lpClu lp)).any fun b => b.ct && b.pkt.src == lp && decide (d.now < b.till)

/-- The L0p width of a port is set; the trained width stands as 0 (R71). -/
def l0pSet (lp lanes : Nat) (d : Dyn) : Dyn :=
  let w := if lanes = widthLanes (rd d .portLstsWidth lp) then 0 else lanes
  { d with port := { d.port with l0p := aset 0 d.port.l0p lp w, l0pWish := aset 0 d.port.l0pWish lp 0 } }

/-- Width reductions that were put off are done once no packet being received is cut through (R114). -/
def l0pLate (d : Dyn) : Dyn :=
  forAll d.port.l0pWish.cells (fun c d => if c.2 = 0 || cutNow d c.1 then d else l0pSet c.1 c.2 d) d

/-- L0P_WIDTH_CHANGE: the active width becomes `lanes`, when L0p is enabled; a reduction asked for while a packet being received is cut
through is put off until that packet's last cell is admitted; the trained width is the full width (R71, R114). -/
def execL0pWidthChange (lp : Lport) (lanes : Fin 17) (s : State) : Host.Outcome State Fault Refusal :=
  nextDyn s fun g d =>
    let full := widthLanes (rd d .portLstsWidth lp)
    if cg g .portLpmCtlL0pEn 0 = 1 ∧ portOpen g d lp ∧ (lanes.val = 1 ∨ lanes.val = 2 ∨ lanes.val = 4 ∨ lanes.val = 8 ∨ lanes.val = 16)
        ∧ lanes.val ≤ full then
      if cutNow d lp ∧ lanes.val < lpLanes d lp then { d with port := { d.port with l0pWish := aset 0 d.port.l0pWish lp lanes.val } }
      else l0pSet lp lanes d
    else d

/-- L1_ENTRY: a downstream port's link enters L1 when the profile allows it (R71). -/
def execL1Entry (lp : Lport) (s : State) : Host.Outcome State Fault Refusal :=
  nextDyn s fun g d =>
    if isDown g d lp ∧ portOpen g d lp ∧ cg g .portLpmCtlL1En 0 = 1 then
      { d with port := { d.port with l1 := d.port.l1 ++ [lp.val], l0p := aset 0 d.port.l0p lp 0 } }
    else d

/-- L1_EXIT: a link leaves L1 back to L0 (R71); a port unit in GLADE or CLEARING wakes first (Table 13.5). -/
def execL1Exit (lp : Lport) (s : State) : Host.Outcome State Fault Refusal :=
  nextDyn s fun _ d =>
    if 2 ≤ domPwr d (domPu (lpPu lp)) then emit (.wake (3000 + lpPu lp)) d
    else { d with port := { d.port with l1 := d.port.l1.filter fun x => x != lp.val } }

/-! ## Commands: loss, containment and its release -/

/-- LINK_LOSS: no valid flit or ordered set for 1 µs: an upstream port has lost its link, a downstream port is contained with
reason 1 (R84, R89). -/
def execLinkLoss (lp : Lport) (gone : Bool) (s : State) : Host.Outcome State Fault Refusal :=
  nextDyn s fun g d =>
    if !lpLinkUp d lp then d
    else if isUp g d lp then upLost g lp d
    else dpc g lp 1 gone d

/-- LINK_DOWN: an upstream port loses its link (R89). -/
def execLinkDown (lp : Lport) (s : State) : Host.Outcome State Fault Refusal := nextDyn s fun g d => upLost g lp d

/-- SW_TRIG: a write of 1 to CONT.SW_TRIG triggers DPC with reason 6 (R84). -/
def execSwTrig (lp : Lport) (s : State) : Host.Outcome State Fault Refusal := nextDyn s fun g d => dpc g lp 6 false d

/-- Release by CONT.DPC_TRIG: on managed, analysis and unbound ports, never on a passthrough binding (R87). -/
def dpcTrigRelease (lp : Nat) (d : Dyn) : Dyn := if lpContained d lp && !hostHolds d lp then releaseDpc lp d else d

/-- DPC_TRIG_RELEASE: a write of 1 to CONT.DPC_TRIG (R87). -/
def execDpcTrigRelease (lp : Lport) (s : State) : Host.Outcome State Fault Refusal := nextDyn s fun _ d => dpcTrigRelease lp d

/-- VPPB_DPC_RELEASE: host software releases a passthrough port through the DPC capability of its vPPB (R87). On a port whose multi-logical
device has LDs of several hosts or of the pool, the first bound host's release releases the port for all (DESIGN CHOICE,
assumption 129). -/
def execVppbDpcRelease (v : Host) (k : Fin 32) (s : State) : Host.Outcome State Fault Refusal :=
  nextDyn s fun _ d =>
    match d.alloc.bnds.find? fun b => b.vcs == v.val && b.vppb == k.val with
    | some b => if lpContained d b.lport then releaseDpc b.lport d else d
    | none => d

/-- IDE_FAIL: a CXL.cachemem MAC check fails: the stream is insecure; DPC with reason 5 downstream, the link down with viral
upstream; event 0x0108 (R80). -/
def execIdeFail (lp : Lport) (s : State) : Host.Outcome State Fault Refusal :=
  nextDyn s fun g d =>
    if !lpLinkUp d lp || rd d .portLstsIdeOn lp == 0 then d
    else
      let d := raise 0x0108 (lpDie lp) [lp] (put .portLstsIdeOn lp 0 d)
      let d := { d with port := { d.port with insecure := d.port.insecure.filter (fun x => x != lp.val) ++ [lp.val],
                                              ide := adel d.port.ide lp } }
      if isUp g d lp then upLost g lp (raiseViral (cg g .portLpcfgVcs lp) d) else dpc g lp 5 false d

/-- VCS_RESET: a reset of a VCS's upstream port clears viral on it, and with its mailbox the session of that mailbox (R93, R516). -/
def execVcsReset (v : Host) (s : State) : Host.Outcome State Fault Refusal :=
  nextDyn s fun _ d => { d with port := { d.port with viral := d.port.viral.filter fun x => x != v.val },
                                mgmt := { d.mgmt with sess := d.mgmt.sess.filter fun x => x.1 != .fcf v } }

/-- UNCORRECTABLE_ERROR: AER in the functions of the VCSs concerned, else the event log alone; on a downstream port DPC with reason 4
when it is fatal or NF_TRIG = 1, whose event 0x0107 is then the log's; viral on those VCSs when it is fatal (R84, R92, R93). -/
def execUncorrectableError (lp : Lport) (fatal : Bool) (s : State) : Host.Outcome State Fault Refusal :=
  nextDyn s fun g d =>
    if lpRole g d lp = 0 then d
    else
      let fs := aerFns g d lp
      let stop := fatal || rd d .portContNfTrig lp == 1
      let d := forAll fs (fun x d => doIf fatal (raiseViral x.1) (aerTell x.1 x.2 (b2n fatal) d)) d
      let d := if fs.isEmpty && (!stop || lpContained d lp) then errAlone (lpDie lp) [lp.val, b2n fatal] d else d
      if stop then dpc g lp 4 false d else d

/-! ## Configuration accesses that the switch answers itself -/

/-- What a vPPB reports: link up, slot occupied, Presence Detect Changed, the reason in its DPC status. vPPB 0 leads to the managed LD and
shows an empty slot where its host has none; an unbound vPPB shows its link down and its slot empty (R60, R66, R69, R90). -/
def vppbView (g : Cfg) (d : Dyn) (v k : Nat) : List Nat :=
  let dev := d.alloc.bnds.find? fun b => b.vcs == v && b.vppb == k && b.present && ptSeen g d v b.lport
  let here := if k = 0 then hasLd g d v else dev.isSome
  let up := if k = 0 then hasLd g d v else match dev with
    | some b => lpLinkUp d b.lport
    | none => false
  [b2n up, b2n here, b2n (d.port.pdc.contains (v * 32 + k)), aget 0 d.port.dpcAt (v * 32 + k)]

/-- The bits of a BAR word of the Fresen Control Function that hold an address: BAR0 16 MiB, BAR2 1 MiB while PMU_USER = 1, BAR4 64 KiB, each
with a high word (Table 2.6, R74; the encoding PRESUMED, assumption 139). -/
def barMask (g : Cfg) (i : Nat) : Nat :=
  let on := cg g .pmcCtlPmuUser 0 == 1
  match i with
  | 0 => 0xFF000000
  | 1 => 0xFFFFFFFF
  | 2 => if on then 0xFFF00000 else 0
  | 3 => if on then 0xFFFFFFFF else 0
  | 4 => 0xFFFF0000
  | _ => 0xFFFFFFFF

/-- A BAR word as the host reads it: the address bits written, and in a low word the type: 64-bit, non-prefetchable. A BAR that is not
implemented reads 0, also after all ones (R72, R74). -/
def barRead (g : Cfg) (d : Dyn) (h i : Nat) : Nat :=
  if barMask g i = 0 then 0 else (aget 0 d.port.bar (h * 8 + i) &&& barMask g i) + (if i % 2 = 0 then 4 else 0)

/-- A configuration access to a function of a VCS (R60, R72, R84, R90, R92 to R94). -/
def cfgServe (g : Cfg) (v : Nat) (op : CfgOp) (d : Dyn) : Dyn :=
  match op with
  | .dpcCtl k ca nf => dpcHostSet v k ca nf d
  | .dpcTrig k => match d.alloc.bnds.find? fun b => b.vcs == v && b.vppb == k.val with
    | some b => dpc g b.lport 6 false d
    | none => d
  | .slotSts k clr =>
    let d := emit (.cfgData v (vppbView g d v k)) d
    if clr then { d with port := { d.port with pdc := d.port.pdc.filter fun x => x != v * 32 + k.val } } else d
  | .viralCtl en => viralSet v en d
  | .aerSts fn clr =>
    let d := emit (.cfgData v [aget 0 d.port.aer (v * 33 + fn)]) d
    if clr then { d with port := { d.port with aer := aset 0 d.port.aer (v * 33 + fn) 0 } } else d
  | .fcfBar i (some w) => { d with port := { d.port with bar := aset 0 d.port.bar (v * 8 + i) (w.toNat &&& barMask g i) } }
  | .fcfBar i none => emit (.cfgData v [barRead g d v i]) d

/-- A configuration request of a host to the switch's own functions ends in the switch and completes (R92, R94). -/
def cfgIn (g : Cfg) (r : Req) (op : CfgOp) (d : Dyn) : Dyn :=
  if decide (2 ^ 79 ≤ r.id) || (flightOf d r.id).isSome || !portOpen g d r.lport then d
  else
    let v := cg g .portLpcfgVcs r.lport
    let d := ungate (lpPu r.lport) (ungate (96 + lpClu r.lport) (tallyPort r.lport 0x10 1 d))
    let d := if (attribute1 (qCfg g d) d r v).isNone then bump .qosUnattrCount 0 1 d else d
    answer r (some .cpl) (cfgServe g v op { d with flights := d.flights ++ [newFlight d r none] })

/-- A request at an ingress logical port: one to the switch's own functions is served here, every other goes on (R31). -/
def arrive (g : Cfg) (r : Req) (d : Dyn) : Dyn :=
  match r.acc with
  | some op => if isUp g d r.lport then cfgIn g r op d else requestIn g r d
  | none => requestIn g r d

end Machine
end Sys2Proof
end

