-- ==== Sys2Proof/Machine/Slot.lean ====
section
/-! DEFINITION. Slot power channels (spec/14) and PERST# (R536): presence, input window, current limit, trips and retries,
FET_SHORT, power-good, the pin, and the commands CYCLE and CLEAR. Channel n feeds port unit n. -/

namespace Sys2Proof
namespace Machine

/-! ## Channels and their settings (R414, R438, R439) -/

/-- A channel whose gate has been off since die start, PERST# asserted. -/
def slot0 : SlotCh :=
  { gate := false, onAt := 0, offAt := 0, offFor := 0, start := 0, inAt := none, limAt := none, calmAt := 0, armed := false,
    act := none, cycling := false, sagTold := false, pgAt := 0, perst := true }

/-- A channel. -/
def slotGet (d : Dyn) (n : Nat) : SlotCh := aget slot0 d.slot n
/-- Replace a channel. -/
def slotSet (n : Nat) (x : SlotCh) (d : Dyn) : Dyn := { d with slot := aset slot0 d.slot n x }
/-- STATE of a channel (Table 14.2): 0 OFF, 1 WAIT, 2 RAMP, 3 ON, 4 RETRY_OFF, 5 LATCHED, 6 SHORTED. -/
def slotState (d : Dyn) (n : Nat) : Nat := rd d .slotStsState n
/-- The channel is used (R437). -/
def slotEn (g : Cfg) (n : Nat) : Bool := cg g .slotCtlEn n == 1
/-- UV in 50 mV steps, an out-of-range value at its nearest bound (R439). -/
def slotUv (g : Cfg) (n : Nat) : Nat := 2 * clamp 55 380 (cg g .slotVwinUv n)
/-- OV in 50 mV steps. -/
def slotOv (g : Cfg) (n : Nat) : Nat := 2 * clamp 70 420 (cg g .slotVwinOv n)
/-- The window is refused: OV is not at least UV + 0.5 V (R439). -/
def slotBad (g : Cfg) (n : Nat) : Bool := decide (slotOv g n < slotUv g n + 10)
/-- The die of a channel. -/
def slotDie (n : Nat) : Nat := n / 12
/-- The logical ports of a channel's port unit. -/
def slotPorts (n : Nat) : List Nat := [4 * n, 4 * n + 1, 4 * n + 2, 4 * n + 3]

/-- Record what a sample measures (MEAS, IMEAS). -/
def slotMeas (n : Nat) (m : SlotMeas) (d : Dyn) : Dyn :=
  peak .slotImeasPeak n m.sense (put .slotImeasSense n m.sense (put .slotMeasVout n m.vout (put .slotMeasVin n m.vin d)))

/-- A class 0x0A event with STS.LAST_FAULT, VIN and the peak sense voltage (Table 14.8). -/
def slotEv (code n : Nat) (d : Dyn) : Dyn :=
  raise code (slotDie n) [n, rd d .slotStsLastFault n, rd d .slotMeasVin n, rd d .slotImeasPeak n] d

/-! ## Pins (R432, R536) -/

/-- Drive SLOT_PG by its function: an asserted pin is released with PG_POL 0 and driven low with PG_POL 1; driven low until the
register records have been applied; an assertion as early warning raises event 0x0A09. `always` drives the level although STS.PIN stands (R432, R437). -/
def slotPinAt (g : Cfg) (always : Bool) (n : Nat) (d : Dyn) : Dyn :=
  let on := rd d .slotStsState n == 2 || rd d .slotStsState n == 3
  let a := slotEn g n && (if cg g .slotCtlPgFn n = 1 then on && rd d .slotStsEw n == 1 else rd d .slotStsPgInt n == 1)
  if b2n a = rd d .slotStsPin n ∧ !always then d
  else
    let d := if a && rd d .slotStsPin n == 0 && cg g .slotCtlPgFn n == 1 then slotEv 0x0A09 n d else d
    let d := put .slotStsPin n (b2n a) d
    if rd d .secBootStsStage 0 < 5 then d else emit (.pin (.slotPg n (a != (cg g .slotCtlPgPol n == 1)))) d

/-- Drive SLOT_PG where it changes (R432). -/
def slotPin (g : Cfg) (n : Nat) (d : Dyn) : Dyn := slotPinAt g false n d

/-- PERST# is driven: the port unit's sub-port 0 is DOWNSTREAM (R536). -/
def perstDriven (g : Cfg) (d : Dyn) (n : Nat) : Bool := isDown g d (4 * n)

/-- Assert PERST# of a port unit (R536). -/
def perstOn (g : Cfg) (n : Nat) (d : Dyn) : Dyn :=
  let d := slotSet n { slotGet d n with perst := true } d
  if perstDriven g d n then emit (.pin (.perst n true)) d else d

/-! ## Gate on and off -/

/-- Hold the port unit in reset: its links go (R434). -/
def slotHold (g : Cfg) (n reason : Nat) (d : Dyn) : Dyn :=
  let d := { d with port := { d.port with inReset := d.port.inReset.filter (fun x => x != n) ++ [n] } }
  forAll (slotPorts n) (fun lp d =>
    if isUp g d lp then upLost g lp d
    else if reason ≠ 1 ∨ lpLinkUp d lp then dpc g lp reason (reason == 2) d else d) d

/-- A CYCLE in progress ends abandoned (R433). -/
def cycleDrop (n : Nat) (d : Dyn) : Dyn :=
  let x := slotGet d n
  if x.act.isSome || x.cycling then
    let d := match x.act with
      | some a => arbFree a d
      | none => d
    slotEv 0x0A0B n (put .slotCmdResult n 3 (slotSet n { slotGet d n with act := none, cycling := false } d))
  else d

/-- Power-good qualifies: a CYCLE that has turned the gate off ends done with the channel back in ON, one that still waits for its grant
ends abandoned (R433, R435, Table 16.4; assumption 160). -/
def cycleEnd (n : Nat) (d : Dyn) : Dyn :=
  let x := slotGet d n
  if x.cycling then
    let d := match x.act with
      | some a => arbFree a d
      | none => d
    slotEv 0x0A0B n (put .slotCmdResult n 1 (slotSet n { slotGet d n with act := none, cycling := false } d))
  else cycleDrop n d

/-- The gate turns off, with 1 A (`fast`) or 20 mA: PG_INT falls, PERST# is asserted and the port unit is held in reset with a DPC reason (R430, R434). -/
def gateOff (g : Cfg) (n reason : Nat) (fast : Bool) (d : Dyn) : Dyn :=
  let x := slotGet d n
  let d := slotSet n { x with gate := false, offAt := d.now, limAt := none, armed := false } d
  let d := put .slotStsLim n 0 (put .slotStsPgInt n 0 (emit (.pin (.gate n false fast)) d))
  slotHold g n reason (perstOn g n d)

/-- The gate turns on: RAMP. From WAIT a sequence begins: no attempt used, the start level recorded, which the input then equals (R420, R426). -/
def gateOn (g : Cfg) (n : Nat) (fresh : Bool) (d : Dyn) : Dyn :=
  let x := slotGet d n
  let d := slotSet n { x with gate := true, onAt := d.now, armed := false, sagTold := false,
                              start := if fresh then rd d .slotMeasVin n else x.start } d
  let d := put .slotStsAttempts n (if fresh then 0 else min 15 (rd d .slotStsAttempts n + 1)) d
  let d := if fresh then put .slotStsEw n 0 d else d
  slotPin g n (put .slotStsState n 2 (put .slotStsSag n 0 (emit (.pin (.gate n true false)) d)))

/-- A gate-on is due: under supply sag it waits, with event 0x0A0A once per sag (R436). -/
def gateDue (g : Cfg) (n : Nat) (fresh : Bool) (d : Dyn) : Dyn :=
  if rd d .nvmSagStsSag 0 = 1 then
    let x := slotGet d n
    let d := put .slotStsSag n 1 (slotSet n { x with sagTold := true } d)
    if x.sagTold then d else slotEv 0x0A0A n d
  else gateOn g n fresh d

/-- Enter WAIT: the insertion delay starts now if the input is inside the window. -/
def enterWait (n : Nat) (d : Dyn) : Dyn :=
  let x := slotGet d n
  put .slotStsState n 1 (slotSet n { x with inAt := x.inAt.map fun _ => d.now } d)

/-- A trip: the off time is 99 times the on time in whole samples; RETRY_OFF while retries are left, else LATCHED with event
0x0A06; DPC reason 3 (R425, R426, R434, Table 14.3). -/
def slotTrip (g : Cfg) (n : Nat) (d : Dyn) : Dyn :=
  let x := slotGet d n
  let on := d.now - x.onAt
  let left := cg g .slotCtlRetryMax n == 0 || decide (rd d .slotStsAttempts n < cg g .slotCtlRetryMax n)
  let d := slotSet n { x with offFor := (99 * on + 199) / 200 * 200 } d
  let d := put .slotStsState n (if left then 4 else 5) (gateOff g n 3 true d)
  slotPin g n (if left then d else slotEv 0x0A06 n d)

/-- The channel's gate is on. -/
def slotOn (d : Dyn) (n : Nat) : Bool := slotState d n == 2 || slotState d n == 3

/-! ## Commands -/

/-- PRESENT: presence qualified; a used channel whose window is good leaves OFF for WAIT with event 0x0A01 (R81, R417). -/
def execPresent (n : Pu) (s : State) : Host.Outcome State Fault Refusal :=
  nextDyn s fun g d =>
    let d := put .slotStsPrsnt n 1 d
    let d := if cg g .portPcfgBif n = 0 then put .portLstsPrsnt (4 * n) 1 d else d
    if slotEn g n && !slotBad g n && slotState d n == 0 && rd d .secBootStsStage 0 == 8
    then slotEv 0x0A01 n (enterWait n d) else d

/-- REMOVED: presence lost: OFF with event 0x0A02, latch and attempts cleared; SHORTED stays; DPC reason 2 (R417, R428, R434,
Table 14.4). A channel with PRSNT_IGN = 1 counts as present at all times. -/
def execRemoved (n : Pu) (s : State) : Host.Outcome State Fault Refusal :=
  nextDyn s fun g d =>
    if cg g .slotCtlPrsntIgn n = 1 ∨ rd d .slotStsPrsnt n = 0 then d
    else
      let d := put .slotStsPrsnt n 0 (cycleDrop n d)
      let st := slotState d n
      let d := if st = 0 ∨ st = 6 then d
        else
          let d := if slotOn d n then gateOff g n 2 false d else d
          put .slotStsState n 0 (put .slotStsAttempts n 0 (put .slotStsSag n 0 d))
      let d := forAll (slotPorts n) (fun lp d =>
        if isDown g d lp && !lpContained d lp then dpc g lp 2 true d
        else if rd d .portLstsPrsnt lp = 1 && cg g .portPcfgBif n == 0 then presenceLost g lp d else d) d
      slotPin g n (slotEv 0x0A02 n d)

/-- The side of the window a measured input lies on, with the hysteresis of 2 % toward the inside (R418). -/
def windowSide (g : Cfg) (n : Nat) (inside : Bool) (vin : Nat) : Bool :=
  if inside then decide (slotUv g n ≤ vin) && decide (vin ≤ slotOv g n)
  else decide (slotUv g n * 102 ≤ vin * 100) && decide (vin * 100 ≤ slotOv g n * 98)

/-- INPUT_WINDOW: the input changes side. Inside: the insertion delay runs. Outside in RAMP or ON: gate off, WAIT, event 0x0A08,
link loss on every logical port. A gate-on that supply sag withheld is no longer due: the insertion delay starts anew (R418, R419, Table 14.3). -/
def execInputWindow (n : Pu) (m : SlotMeas) (s : State) : Host.Outcome State Fault Refusal :=
  nextDyn s fun g d =>
    if !slotEn g n then d
    else
      let d := slotMeas n m d
      let x := slotGet d n
      let was := x.inAt.isSome
      let here := windowSide g n was m.vin
      if here = was then d
      else if here then slotSet n { x with inAt := some d.now } d
      else
        let d := cycleDrop n (slotSet n { x with inAt := none } d)
        if slotOn d n then
          let d := put .slotStsLastFault n (if m.vin < slotUv g n then 4 else 5) d
          let d := bump .slotFltCntInput n 1 d
          slotPin g n (put .slotStsState n 1 (gateOff g n 1 (decide (slotOv g n < m.vin.val)) (slotEv 0x0A08 n d)))
        else if rd d .slotStsSag n = 1 then
          let d := put .slotStsSag n 0 d
          if slotState d n = 4 then enterWait n d else d
        else d

/-- INSERTION_DELAY: the input inside the window for INS_MS in WAIT starts RAMP (R418). -/
def execInsertionDelay (n : Pu) (m : SlotMeas) (s : State) : Host.Outcome State Fault Refusal :=
  nextDyn s fun g d =>
    match (slotGet d n).inAt with
    | some t =>
      if slotEn g n && slotState d n == 1 && decide (t + cg g .slotTimeInsMs n * 1000000 ≤ d.now) && windowSide g n true m.vin
      then gateDue g n true (slotMeas n m d) else d
    | none => d

/-- LIMIT_ENGAGE: the limit engages and the fault timer starts; with PG_INT asserted an overload, event 0x0A0C (R421, R422,
R430). -/
def execLimitEngage (n : Pu) (m : SlotMeas) (s : State) : Host.Outcome State Fault Refusal :=
  nextDyn s fun _ d =>
    if slotOn d n && rd d .slotStsLim n == 0 then
      let d := cycleDrop n (slotMeas n m d)
      let d := put .slotStsLim n 1 (slotSet n { slotGet d n with limAt := some d.now } d)
      if rd d .slotStsPgInt n = 1 then slotEv 0x0A0C n d else d
    else d

/-- LIMIT_RELEASE: the limit releases and the fault timer returns to 0 (R422). -/
def execLimitRelease (n : Pu) (m : SlotMeas) (s : State) : Host.Outcome State Fault Refusal :=
  nextDyn s fun _ d =>
    if rd d .slotStsLim n = 1 then
      put .slotStsLim n 0 (slotSet n { slotGet d n with limAt := none, calmAt := d.now } (slotMeas n m d))
    else d

/-- FT_MULT as a factor (SLOT.CTL). -/
def ftMult (g : Cfg) (n : Nat) : Nat := max 1 (cg g .slotCtlFtMult n) + 1

/-- FAST_TRIP: the sense voltage exceeds FT_MULT times the limit: gate down, event 0x0A04 (R423, R424). -/
def execFastTrip (n : Pu) (m : SlotMeas) (s : State) : Host.Outcome State Fault Refusal :=
  nextDyn s fun g d =>
    if slotOn d n && decide (ftMult g n * clamp 10 100 (cg g .slotLimVlim n) * 5 < m.sense.val) then
      let d := bump .slotFltCntFt n 1 (put .slotStsLastFault n 1 (cycleDrop n (slotMeas n m d)))
      slotTrip g n (slotEv 0x0A04 n d)
    else d

/-- FAULT_TIMER: the fault timer reaches FLT_MS: gate down, event 0x0A05 (R422). -/
def execFaultTimer (n : Pu) (m : SlotMeas) (s : State) : Host.Outcome State Fault Refusal :=
  nextDyn s fun g d =>
    match (slotGet d n).limAt with
    | some t =>
      if slotOn d n && decide (t + clamp 1 50 (cg g .slotLimFltMs n) * 1000000 ≤ d.now) then
        let d := bump .slotFltCntTmr n 1 (put .slotStsLastFault n 2 (cycleDrop n (slotMeas n m d)))
        slotTrip g n (slotEv 0x0A05 n d)
      else d
    | none => d

/-- OFF_TIME: the off time after a trip has passed: RAMP again inside the window, else WAIT (R425, Table 14.3). -/
def execOffTime (n : Pu) (m : SlotMeas) (s : State) : Host.Outcome State Fault Refusal :=
  nextDyn s fun g d =>
    let x := slotGet d n
    if slotState d n = 4 ∧ x.offAt + x.offFor ≤ d.now then
      let d := slotMeas n m d
      if x.inAt.isSome then gateDue g n false d else enterWait n d
    else d

/-- POWER_GOOD: PG_INT qualifies on 8 samples: ON, event 0x0A03, the port unit leaves reset (R429, R434). -/
def execPowerGood (n : Pu) (m : SlotMeas) (s : State) : Host.Outcome State Fault Refusal :=
  nextDyn s fun g d =>
    if slotOn d n && rd d .slotStsPgInt n == 0 && rd d .slotStsLim n == 0 && decide (160 ≤ m.gate.val)
        && decide (m.vin.val * 95 ≤ m.vout.val * 100) then
      let d := cycleEnd n (slotMeas n m d)
      let calm := if slotState d n = 3 then (slotGet d n).calmAt else d.now
      let d := slotSet n { slotGet d n with pgAt := d.now, calmAt := calm } d
      let d := put .slotStsPgInt n 1 (put .slotStsState n 3 d)
      let d := { d with port := { d.port with inReset := d.port.inReset.filter fun x => x != n.val } }
      slotPin g n (slotEv 0x0A03 n d)
    else d

/-- PG_DROP: the output below 90 % of the input without the limit engaged deasserts PG_INT (R430). -/
def execPgDrop (n : Pu) (m : SlotMeas) (s : State) : Host.Outcome State Fault Refusal :=
  nextDyn s fun g d =>
    if rd d .slotStsPgInt n = 1 ∧ rd d .slotStsLim n = 0 ∧ m.vout.val * 100 < m.vin.val * 90 then
      slotPin g n (slotHold g n 1 (perstOn g n (put .slotStsPgInt n 0 (slotMeas n m d))))
    else d

/-- SEQUENCE_END: 1 s ON without the limit engaging ends the sequence (R426). -/
def execSequenceEnd (n : Pu) (s : State) : Host.Outcome State Fault Refusal :=
  nextDyn s fun _ d =>
    if slotState d n = 3 ∧ rd d .slotStsLim n = 0 ∧ (slotGet d n).calmAt + 1000000000 ≤ d.now then put .slotStsAttempts n 0 d
    else d

/-- DISCHARGE_ARM: DISCH_MS after gate-off the FET_SHORT watch is armed (R427). -/
def execDischargeArm (n : Pu) (s : State) : Host.Outcome State Fault Refusal :=
  nextDyn s fun g d =>
    let x := slotGet d n
    if !x.gate && slotEn g n && decide (x.offAt + cg g .slotTimeDischMs n * 1000000 ≤ d.now)
    then slotSet n { x with armed := true } d else d

/-- Ten times the FET_SHORT threshold in 50 mV steps: the higher of 1 V and 10 % of the input (R427). -/
def shortLevel (vin : Nat) : Nat := max 200 vin

/-- FET_SHORT: the armed watch completes: SHORTED, event 0x0A07, DPC reason 3 (R427). -/
def execFetShort (n : Pu) (m : SlotMeas) (s : State) : Host.Outcome State Fault Refusal :=
  nextDyn s fun g d =>
    let st := slotState d n
    if (slotGet d n).armed && (st == 0 || st == 1 || st == 4 || st == 5) && decide (shortLevel m.vin < 10 * m.vout.val) then
      let d := put .slotStsSag n 0 (put .slotStsLastFault n 3 (cycleDrop n (slotMeas n m d)))
      slotPin g n (slotHold g n 3 (slotEv 0x0A07 n (put .slotStsState n 6 d)))
    else d

/-- A port unit may be powered off: every logical port down, or DOWNSTREAM and unbound (R83). -/
def mayPowerOff (g : Cfg) (d : Dyn) (n : Nat) : Bool :=
  (slotPorts n).all fun lp => !lpLinkUp d lp || (isDown g d lp && rd d .portLstsBound lp == 0)

/-- A granted CYCLE turns the gate off and returns the channel to WAIT (R435); where a logical port was bound meanwhile R83 no longer
allows the channel off, and the command is refused. -/
def cycleGo (g : Cfg) (n : Nat) (d : Dyn) : Dyn :=
  let x := slotGet d n
  match x.act with
  | some a =>
    if granted d a && !x.cycling && !mayPowerOff g d n then
      slotEv 0x0A0B n (put .slotCmdResult n 2 (slotSet n { slotGet d n with act := none } (arbFree a d)))
    else if granted d a && !x.cycling && slotOn d n then
      let d := slotSet n { slotGet d n with cycling := true } (gateOff g n 1 false d)
      slotPin g n (enterWait n d)
    else d
  | none => d

/-- CYCLE: the command is refused unless R83 allows the channel off, and the gate is on to turn off; else it asks the arbiter
(R435). -/
def slotCycle (g : Cfg) (n : Nat) (d : Dyn) : Dyn :=
  if (slotGet d n).act.isSome || (slotGet d n).cycling then d
  else if slotEn g n && slotOn d n && mayPowerOff g d n then
    let r := arbAsk (actReq 8 [n] []) n d
    cycleGo g n (put .slotCmdResult n 0 (slotSet n { slotGet r.2 n with act := some r.1 } r.2))
  else slotEv 0x0A0B n (put .slotCmdResult n 2 d)

/-- CYCLE: a write of 0x1 to SLOT.CMD (R435). -/
def execCycle (n : Pu) (s : State) : Host.Outcome State Fault Refusal := nextDyn s fun g d => slotCycle g n d

/-- What a changed configuration does to a channel at the next sample: CFG_BAD, and a rejected window keeps it OFF (R438,
R439). -/
def slotRecheck (g : Cfg) (n : Nat) (d : Dyn) : Dyn :=
  let bad := slotBad g n && slotEn g n
  let d := put .slotCtlCfgBad n (b2n bad) d
  let d := if bad && slotState d n != 0 && slotState d n != 6 then
      let d := if slotOn d n then gateOff g n 1 false (cycleDrop n d) else d
      put .slotStsState n 0 d
    else if slotEn g n && !bad && slotState d n == 0 && (rd d .slotStsPrsnt n == 1 || cg g .slotCtlPrsntIgn n == 1)
        && rd d .secBootStsStage 0 == 8 then slotEv 0x0A01 n (enterWait n d)
    else d
  slotPinAt g true n d

/-- CLEAR ends LATCHED, and SHORTED while the output is below the threshold; at any other time it is refused. From OFF a channel still
present goes on to WAIT (R426, R428, Table 14.3). -/
def slotClear (g : Cfg) (n : Nat) (d : Dyn) : Dyn :=
  let st := slotState d n
  let d := if st = 5 ∨ st = 6 then cycleDrop n d else d
  if st = 5 then put .slotCmdResult n 1 (put .slotStsAttempts n 0 (slotPin g n (enterWait n d)))
  else if st = 6 ∧ 10 * rd d .slotMeasVout n < shortLevel (rd d .slotMeasVin n) then
    slotRecheck g n (put .slotCmdResult n 1 (put .slotStsAttempts n 0 (put .slotStsState n 0 d)))
  else put .slotCmdResult n 2 d

/-- CLEAR: a write of 0x2 to SLOT.CMD, with the voltages measured then (R428). -/
def execClear (n : Pu) (m : SlotMeas) (s : State) : Host.Outcome State Fault Refusal :=
  nextDyn s fun g d => slotClear g n (slotMeas n m d)

/-- PERST_RELEASE: PERST# is deasserted 100 ms after PG_INT (R536). -/
def execPerstRelease (n : Pu) (s : State) : Host.Outcome State Fault Refusal :=
  nextDyn s fun g d =>
    let x := slotGet d n
    if x.perst && rd d .slotStsPgInt n == 1 && decide (x.pgAt + 100000000 ≤ d.now) then
      let d := slotSet n { x with perst := false } d
      if perstDriven g d n then emit (.pin (.perst n false)) d else d
    else d

/-- EARLY_WARNING: the input crosses the early-warning threshold in RAMP or ON; the hysteresis is 2 % of the start level upward;
event 0x0A09 when the pin asserts (R420, R432). -/
def execEarlyWarning (n : Pu) (m : SlotMeas) (s : State) : Host.Outcome State Fault Refusal :=
  nextDyn s fun g d =>
    if !slotOn d n then d
    else
      let d := slotMeas n m d
      let lvl := (slotGet d n).start * clamp 50 99 (cg g .slotLimEwPct n)
      let was := rd d .slotStsEw n == 1
      let low := if was then decide (m.vin.val * 100 < lvl + (slotGet d n).start * 2) else decide (m.vin.val * 100 < lvl)
      if low = was then d
      else
        let d := put .slotStsEw n (b2n low) d
        let d := if low then bump .slotFltCntEwarn n 1 d else d
        slotPin g n d

/-- Gate-ons that supply sag withheld go on at its end (R433, R436, Table 15.10). -/
def slotsResume (g : Cfg) (d : Dyn) : Dyn :=
  forAll (List.range 48) (fun n d =>
    let d := if rd d .slotStsSag n = 1 then
        (if slotState d n = 1 then gateDue g n true d else if slotState d n = 4 then gateOn g n false d else d) else d
    if (slotGet d n).sagTold then slotSet n { slotGet d n with sagTold := false } d else d) d

end Machine
end Sys2Proof
end

