-- ==== Sys2Proof/Machine/GklPhy.lean ====
section
/-! DEFINITION. The GnokuLink physical layer (spec/11) and the link layer's going DOWN (R393): bring-up, loopback, idle and
wake, spare lanes. -/

namespace Sys2Proof
namespace Machine

/-! ## Shared operations -/

/-- The die of an endpoint. -/
def gklDie (n : Nat) : Nat := n / 9
/-- The region of an endpoint (R360). -/
def gklRegion (n : Nat) : Nat := 2 * (n / 9) + (if 4 ≤ n % 9 ∧ n % 9 < 8 then 1 else 0)

/-- A swap on its way ends with a RESULT (R371): 1 done, 2 SWAP_FAIL, 3 abandoned. -/
def swapEnd (n res : Nat) (d : Dyn) : Dyn :=
  match (gklGet d n).swap with
  | some w => arbFree w.act (put .gklSwapCmdResult n res (gklMod n (fun x => { x with swap := none }) d))
  | none => d

/-- Enter TRAIN: clock and training blocks are sent; a retrain abandons a swap (R364, R371). -/
def phyTrain (n : Nat) (d : Dyn) : Dyn :=
  let d := swapEnd n 3 (ungate (188 + n) d)
  let d := put .gklPhyStsPol n 0 (put .gklPhyStsRev n 0 (put .gklPhyStsGrpRev n 0 (put .gklPhyStsState n 1 d)))
  let d := gklMod n (fun x => { x with
    trainAt := d.now, backAt := none, locked := false, goodBlk := arrEmpty, badBlk := arrEmpty, ids := arrEmpty,
    lpbkRx := false, looping := false, wakes := 0, idle := false, cmp := none }) d
  phySay n 1 0 0 d

/-- The link goes DOWN: its buffers are discarded, DOWN is sent for any reason but the physical layer's, event 0x0811 from UP;
a GnokuLink-D link is lost to the network; it retrains once unless the physical layer or an order took it down (R393). A
refused version is not retried. -/
def lnkDown (n why : Nat) (d : Dyn) : Dyn :=
  let was := lnkSt d n
  if was = 0 then d
  else
    let d := put .gklLnkStsRxSel n 0 (put .gklLnkStsTxSel n 0 (put .gklLnkStsDownWhy n why (put .gklLnkStsState n 0 d)))
    let d := gklMod n (fun x => { x with
      replay := [], held := [], reasm := arrEmpty, freed := arrEmpty, recvd := arrEmpty,
      limit := arrEmpty, spent := arrEmpty, crdSeen := 0, events := [], mode := none, nak := none, exps := 0, idle := false }) d
    let d := if gklIsP n then { d with sys := { d.sys with hello := aset 0 d.sys.hello (n / 9) 0 } } else d
    let d := if why = 1 then d else gklSay n (bypDown why) 8 d
    let d := if was = 3 then raise 0x0811 (gklDie n) [n, why] d else d
    let d := if was = 3 ∧ !gklIsP n then loseLink (gklLink n).1 (gklLink n).2 d else d
    if why = 1 ∨ why = 5 ∨ why = 7 then d else phyTrain n d

/-- The six SPARE_STS bits of a lane group. -/
def spareBits (d : Dyn) (n grp : Nat) : Nat := bits (rd d .gklSpareStsMap n) (6 * grp) 6
/-- The spare of a group stands in for a data lane. -/
def spareUsed (d : Dyn) (n grp : Nat) : Bool := bitAt (spareBits d n grp) 5
/-- A failed lane that is out of use: a data lane for which the spare stands in, or a spare that stands in for none (R372). -/
def laneOut (d : Dyn) (n l : Nat) : Bool :=
  (gklGet d n).lost.contains l &&
    if l % 18 = 17 then !spareUsed d n (l / 18)
    else spareUsed d n (l / 18) && bits (spareBits d n (l / 18)) 0 4 == l % 18

/-- An attempt fails: 10 µs without sending, and after the third FAILED with event 0x0802 (R367). -/
def trainFail (n why : Nat) (d : Dyn) : Dyn :=
  let k := (gklGet d n).tries + 1
  let d := gklMod n (fun x => { x with tries := k, backAt := some d.now }) d
  let d := emit (.gklPhy n 0 0 0) d
  if 3 ≤ k then
    lnkDown n 1 (raise 0x0802 (gklDie n) [n, why] (put .gklPhyStsFailWhy n why (put .gklPhyStsState n 6 d)))
  else d

/-- The credits a receiver starts with, by class (R380, Table 12.5). -/
def startFreed (n : Nat) : Arr Nat :=
  forAll (List.range 8) (fun tc a => aset 0 (aset 0 a tc (if gklIsP n then 256 else 64)) (8 + tc) (if gklIsP n then 2047 else 1024))
    arrEmpty

/-- Up: ACTIVE, event 0x0801, the scrambled stream starts at its first byte with fresh seeds (R363), and the link layer sends CAP; a lane that trained again counts as failed no longer (R365, R372,
Table 12.7). -/
def phyActive (g : Cfg) (n : Nat) (d : Dyn) : Dyn :=
  let d := raise 0x0801 (gklDie n) [n] (put .gklPhyStsState n 2 (ungate (188 + n) d))
  let d := gklMod n (fun x => { x with
    tries := 0, lost := x.lost.filter (laneOut d n), initAt := d.now, crdSeen := 0, limit := arrEmpty, spent := arrEmpty,
    recvd := arrEmpty, freed := startFreed n, reasm := arrEmpty, held := [], replay := [], strmByte := 0, strmAt := d.now, txWin := 0 }) d
  gklSay n (bypCap d n (min 1 (cg g .gklLnkCtlMaxminor n))) 8 (put .gklLnkStsState n 1 d)

/-- Where a training block's lane ID belongs: reversed in its group, groups exchanged; none for any other order (R366). -/
def laneFit (n lane id : Nat) : Option (Bool × Bool) :=
  let p := lane % 18
  let q := id % 18
  let swapped := id / 18 != lane / 18
  if gklLanes n ≤ id then none
  else if !gklIsP n then (if id = lane then some (false, false) else none)
  else if p = q then some (false, swapped)
  else if p < 16 ∧ q = 15 - p then some (true, swapped) else none

/-- A lane fits what the attempt has found so far (R366). -/
def laneAgrees (d : Dyn) (n lane : Nat) (fit : Bool × Bool) : Bool :=
  let x := gklGet d n
  let seen := x.ids.cells.map Prod.fst
  let same := seen.filter fun l => l / 18 == lane / 18 && decide (l % 18 < 16)
  (seen.isEmpty || (rd d .gklPhyStsGrpRev n == 1) == fit.2)
    && (decide (16 ≤ lane % 18) || same.isEmpty || bitAt (rd d .gklPhyStsRev n) (lane / 18) == fit.1)

/-- Every data and spare lane in use has shown LOCKED in 8 consecutive blocks (R365, R372). -/
def allLocked (d : Dyn) (n : Nat) : Bool :=
  (List.range (gklLanes n)).all fun l => l % 18 == 16 || laneOut d n l || decide (8 ≤ aget 0 (gklGet d n).goodBlk l)

/-- Both sides are locked: 16 more blocks, then the end block (R365). -/
def endReady (n : Nat) (d : Dyn) : Dyn :=
  if (gklGet d n).locked && allLocked d n then phySay n 3 16 0 d else d

/-! ## Bring-up commands -/

/-- PHY_ENABLE: EN = 1 starts the forwarded clock and training blocks (R364). -/
def phyEnable (n : Nat) (d : Dyn) : Dyn :=
  let was := rd d .gklPhyCtlEn n
  let d := put .gklPhyCtlEn n 1 d
  if phySt d n = 0 ∧ was = 0 then
    phyTrain n (put .gklPhyStsFailWhy n 0 (gklMod n (fun x => { x with tries := 0, failAt := none }) d))
  else d

/-- PHY_ENABLE: a write of EN = 1, or the start sequence (R364). -/
def execPhyEnable (n : Ep) (s : State) : Host.Outcome State Fault Refusal := nextDyn s fun _ d => phyEnable n d

/-- EN = 0 takes the endpoint OFF with its lanes undriven; the link goes DOWN, ordered (R368, Table 12.8). -/
def phyDisable (n : Nat) (d : Dyn) : Dyn :=
  let d := swapEnd n 3 (lnkDown n 7 (put .gklPhyCtlEn n 0 d))
  if phySt d n = 0 then d else emit (.gklPhy n 0 0 0) (put .gklPhyStsState n 0 d)

/-- PHY_DISABLE: a write of EN = 0 (R368). -/
def execPhyDisable (n : Ep) (s : State) : Host.Outcome State Fault Refusal := nextDyn s fun _ d => phyDisable n d

/-- TRAINING_BLOCK: a block arrives on a lane with its status word; `inv` a complemented marker; `chk` whether CHK holds
(R365, R366, Table 11.3). -/
def execTrainingBlock (n : Ep) (lane : Fin 180) (var : Fin 16) (locked lpbk : Bool) (id : Fin 256) (chk inv : Bool) (s : State) :
    Host.Outcome State Fault Refusal :=
  nextDyn s fun _ d =>
    if phySt d n ≠ 1 ∨ (gklGet d n).backAt.isSome ∨ gklLanes n ≤ lane.val ∨ lane.val % 18 = 16 then d
    else if !chk then
      let k := aget 0 (gklGet d n).badBlk lane + 1
      let d := gklMod n (fun x => { x with badBlk := aset 0 x.badBlk lane k, goodBlk := aset 0 x.goodBlk lane 0 }) d
      if 8 ≤ k then trainFail n 2 d else d
    else if var.val ≠ b2n (gklIsP n) + 1 then trainFail n 2 d
    else match laneFit n lane id with
      | none => trainFail n 2 d
      | some fit =>
        if !laneAgrees d n lane fit then trainFail n 2 d
        else
          let x := gklGet d n
          let fresh := (cellsFind lane.val x.ids.cells).isNone
          let d := put .gklPhyStsGrpRev n (b2n fit.2) (if lane.val % 18 < 16 then putBit .gklPhyStsRev n (lane.val / 18) fit.1 d else d)
          let d := if fresh && inv then put .gklPhyStsPol n (rd d .gklPhyStsPol n + 1) d else d
          let good := if locked then min 8 (aget 0 x.goodBlk lane + 1) else 0
          let d := gklSet n { x with ids := ⟨cellsPut lane id.val (cellsDrop lane x.ids.cells)⟩, badBlk := aset 0 x.badBlk lane 0,
                                     goodBlk := aset 0 x.goodBlk lane good, lpbkRx := lpbk } d
          endReady n d

/-- RECEIVER_LOCKED: every lane is locked and deskewed, and LOCKED = 1 is sent (R365). -/
def execReceiverLocked (n : Ep) (s : State) : Host.Outcome State Fault Refusal :=
  nextDyn s fun _ d =>
    if phySt d n = 1 ∧ (gklGet d n).backAt = none then
      endReady n (phySay n 2 0 0 (gklMod n (fun x => { x with locked := true }) d))
    else d

/-- END_BLOCK: the end block is sent and received: LOOPBACK or ACTIVE (R365, R369, Table 11.5). -/
def execEndBlock (n : Ep) (s : State) : Host.Outcome State Fault Refusal :=
  nextDyn s fun g d =>
    let x := gklGet d n
    let mode := rd d .gklLpbkCtlMode n
    if phySt d n ≠ 1 ∨ x.backAt.isSome ∨ !x.locked ∨ !allLocked d n then d
    else if mode = 1 ∨ mode = 2 then put .gklPhyStsState n 5 (gklSet n { x with tries := 0 } d)
    else if x.lpbkRx then put .gklPhyStsState n 5 (gklSet n { x with tries := 0, looping := mode == 0 } d)
    else phyActive g n (if mode = 3 then put .gklLpbkCtlRefused n 1 d else d)

/-- TRAIN_TMO of an endpoint in ns; 0 acts as the reset value (R367). -/
def trainTmo (g : Cfg) (n : Nat) : Nat :=
  let t := cg g .gklPhyCtlTrainTmo n
  (if t = 0 then (if gklIsP n then 10000 else 1000) else t) * 1000

/-- TRAIN_TIMEOUT: an attempt not done within TRAIN_TMO fails (R367). -/
def execTrainTimeout (n : Ep) (s : State) : Host.Outcome State Fault Refusal :=
  nextDyn s fun g d =>
    let x := gklGet d n
    if phySt d n = 1 ∧ x.backAt = none ∧ x.trainAt + trainTmo g n ≤ d.now then trainFail n 1 d else d

/-- TRAIN_BACKOFF: after 10 µs without sending the endpoint tries again (R367). -/
def execTrainBackoff (n : Ep) (s : State) : Host.Outcome State Fault Refusal :=
  nextDyn s fun _ d =>
    match (gklGet d n).backAt with
    | some t => if phySt d n = 1 ∧ t + 10000 ≤ d.now then phyTrain n d else d
    | none => d

/-! ## Loopback (R369) -/

/-- A write of LPBK_CTL.MODE: a loopback is entered or left through a retrain (R369). -/
def lpbkWrite (n mode : Nat) (d : Dyn) : Dyn :=
  let d := put .gklLpbkCtlRefused n 0 (put .gklLpbkCtlMode n mode d)
  if mode ≠ 0 ∧ phySt d n = 2 then phyTrain n (lnkDown n 1 d)
  else if mode = 0 ∧ phySt d n = 5 then phyTrain n d
  else d

/-- While an endpoint sends and checks PRBS-31 in LOOPBACK, each lane's error count grows by a free number for every step of time (R369);
it saturates at 24 bits. -/
def lpbkCount (n : Nat) (d : Dyn) : Dyn :=
  let x := gklGet d n
  if phySt d n ≠ 5 ∨ x.looping then d
  else
    let lanes := (List.range (gklLanes n)).filter fun l => l % 18 != 16
    let errs := lanes.foldl (fun a l => aset 0 a l (min 16777215 (aget 0 a l + Config.freeNat (d.free + l)))) x.errs
    gklSet n { x with errs := errs } { d with free := d.free + 180 }

/-- LPBK_CTL_WRITE: a write of LPBK_CTL.MODE (R369). -/
def execLpbkCtlWrite (n : Ep) (mode : Fin 4) (s : State) : Host.Outcome State Fault Refusal := nextDyn s fun _ d => lpbkWrite n mode d

/-- LPBK_EXIT: the looping side receives training blocks with LPBK = 0 and retrains (R369). -/
def execLpbkExit (n : Ep) (s : State) : Host.Outcome State Fault Refusal :=
  nextDyn s fun _ d => if phySt d n = 5 ∧ (gklGet d n).looping then phyTrain n d else d

/-! ## Idle and wake (R370) -/

/-- A side leaves EI: ACTIVE, and what waited is sent. -/
def leaveIdle (n : Nat) (d : Dyn) : Dyn :=
  let d := put .gklPhyStsState n 2 (gklMod n (fun x => { x with wakes := 0, idle := false, lastTx := d.now }) (strmMark n d))
  gklPump n d

/-- EXIT_BURST: an exit burst is received in EI; the side answers with its own and is ACTIVE (R370). -/
def execExitBurst (n : Ep) (s : State) : Host.Outcome State Fault Refusal :=
  nextDyn s fun _ d => if phySt d n = 3 then leaveIdle n (phySay n 4 0 0 d) else d

/-- A side wakes from SLEEP once its region is awake: an exit burst from GLADE, training from CLEARING (R370, Table 11.5). -/
def sleepWake (n : Nat) (d : Dyn) : Dyn :=
  if phySt d n ≠ 4 then d
  else if (gklGet d n).cold then phyTrain n (lnkDown n 1 (gklMod n (fun x => { x with cold := false }) d))
  else leaveIdle n (phySay n 4 0 0 d)

/-- WAKE_PATTERN: a wake pattern on the clock lane wakes the side; from SLEEP its region wakes first (R370). -/
def execWakePattern (n : Ep) (s : State) : Host.Outcome State Fault Refusal :=
  nextDyn s fun _ d =>
    if phySt d n = 3 then leaveIdle n (phySay n 4 0 0 d)
    else if phySt d n = 4 then emit (.wake (2000 + gklRegion n)) d
    else d

/-- WAKE_UNANSWERED: a pattern unanswered for 100 µs is repeated, and after the tenth event 0x0806 and FAILED (R370). -/
def execWakeUnanswered (n : Ep) (s : State) : Host.Outcome State Fault Refusal :=
  nextDyn s fun _ d =>
    let x := gklGet d n
    if phySt d n = 3 ∧ x.wakes ≠ 0 ∧ x.wakeAt + 100000 ≤ d.now then
      if x.wakes < 10 then phySay n 5 0 0 (gklSet n { x with wakes := x.wakes + 1, wakeAt := d.now } d)
      else lnkDown n 1 (raise 0x0806 (gklDie n) [n] (put .gklPhyStsFailWhy n 3 (put .gklPhyStsState n 6 d)))
    else d

/-! ## Spare lanes (R371, R372) -/

/-- The receiver takes position `pos` from the spare: SPARE_STS, event 0x0803 (R371, R372). -/
def spareTake (n grp pos : Nat) (d : Dyn) : Dyn :=
  let m := rd d .gklSpareStsMap n
  let old := spareBits d n grp
  let v := 32 + (if bitAt old 4 then 16 else 0) + pos
  raise 0x0803 (gklDie n) [n, 18 * grp + pos] (put .gklSpareStsMap n (m - old * 2 ^ (6 * grp) + v * 2 ^ (6 * grp)) d)

/-- A swap that is granted begins on an ACTIVE endpoint: a copy on the spare and SWAP_READY (R371). -/
def swapStart (n : Nat) (d : Dyn) : Dyn :=
  match (gklGet d n).swap with
  | some w =>
    if !w.told && granted d w.act && phySt d n == 2 then
      gklSay n (bypSwap 1 w.grp w.pos) 1 (gklMod n (fun x => { x with swap := some { w with told := true } }) d)
    else d
  | none => d

/-- The regions at the ends of an endpoint's link: both ends of a -D link, the near end of a -P link (Table 16.4 code 3). -/
def gklEnds (n : Nat) : List Nat :=
  if gklIsP n then [gklRegion n] else [gklRegion n, rtrRegion (linkTo (gklLink n).1 (gklLink n).2)]

/-- A write of GO to SWAP_CMD: a swap of a group whose spare is free is asked of the arbiter; otherwise it is refused (R371). -/
def swapAsk (n grp pos : Nat) (d : Dyn) : Dyn :=
  let d := put .gklSwapCmdPos n pos (put .gklSwapCmdGrp n grp d)
  if (gklGet d n).swap.isSome then d
  else if gklGroups n ≤ grp ∨ spareUsed d n grp ∨ bitAt (spareBits d n grp) 4 ∨ (gklGet d n).lost.contains (18 * grp + 17)
  then put .gklSwapCmdResult n 3 d
  else
    let r := arbAsk { actReq 3 [] (gklEnds n) with ep := n } n (put .gklSwapCmdResult n 0 d)
    swapStart n (gklMod n (fun x => { x with swap := some ⟨grp, pos, false, false, r.1⟩ }) r.2)

/-- SWAP_GO: SWAP_CMD.GO asks the arbiter for a planned lane swap (R371). -/
def execSwapGo (n : Ep) (grp pos : Fin 16) (s : State) : Host.Outcome State Fault Refusal := nextDyn s fun _ d => swapAsk n grp pos d

/-- SWAP_READY arrives: a failed lane is taken from the spare at once; else the comparison starts (R371, R372). -/
def swapReady (n grp pos : Nat) (d : Dyn) : Dyn :=
  if phySt d n ≠ 2 ∨ gklGroups n ≤ grp ∨ 16 ≤ pos ∨ spareUsed d n grp then d
  else if (gklGet d n).lost.contains (18 * grp + pos) then gklSay n (bypSwap 2 grp pos) 1 (spareTake n grp pos d)
  else gklMod n (fun x => { x with cmp := some (grp, pos) }) d

/-- SWAP_READY: the receiver gets SWAP_READY (R371). -/
def execSwapReady (n : Ep) (grp pos : Fin 16) (s : State) : Host.Outcome State Fault Refusal := nextDyn s fun _ d => swapReady n grp pos d

/-- SWAP_COMPARE_DONE: after 1,024 UI the receiver takes the lane from the spare and answers SWAP_DONE, or SWAP_FAIL (R371). -/
def execSwapCompareDone (n : Ep) (same : Bool) (s : State) : Host.Outcome State Fault Refusal :=
  nextDyn s fun _ d =>
    match (gklGet d n).cmp with
    | some w =>
      let d := gklMod n (fun x => { x with cmp := none }) d
      if same then gklSay n (bypSwap 2 w.1 w.2) 1 (spareTake n w.1 w.2 d) else gklSay n (bypSwap 3 w.1 w.2) 1 d
    | none => d

/-- SWAP_DONE at the transmitter: the spare stands in for the lane, training blocks go out on the old lane and the swap is done (R362, R371). -/
def swapDone (n grp pos : Nat) (d : Dyn) : Dyn :=
  let stand (d : Dyn) : Dyn := gklMod n (fun x => { x with txSpare := aset 0 x.txSpare grp (pos + 1) }) d
  match (gklGet d n).swap with
  | some w => if w.told && w.grp == grp && w.pos == pos then swapEnd n 1 (phySay n 7 grp pos (stand d)) else d
  | none => phySay n 7 grp pos (stand d)

/-- SWAP_DONE: the transmitter receives SWAP_DONE (R371). -/
def execSwapDone (n : Ep) (grp pos : Fin 16) (s : State) : Host.Outcome State Fault Refusal := nextDyn s fun _ d => swapDone n grp pos d

/-- SWAP_FAIL at the transmitter: the spare returns to training blocks (R371). -/
def swapFail (n grp pos : Nat) (d : Dyn) : Dyn :=
  match (gklGet d n).swap with
  | some w => if w.told && w.grp == grp && w.pos == pos then swapEnd n 2 (phySay n 8 grp 0 d) else d
  | none => d

/-- SWAP_FAIL: the transmitter receives SWAP_FAIL (R371). -/
def execSwapFail (n : Ep) (grp pos : Fin 16) (s : State) : Host.Outcome State Fault Refusal := nextDyn s fun _ d => swapFail n grp pos d

/-- A lane group fails: event 0x0805, its SPARE_STS bit, one retrain; a second failure within 1 s ends in FAILED (R372, Table
11.5). -/
def groupFail (n grp : Nat) (d : Dyn) : Dyn :=
  let d := putBit .gklSpareStsMap n (6 * grp + 4) true (raise 0x0805 (gklDie n) [n, grp] d)
  let again := match (gklGet d n).failAt with
    | some t => decide (d.now < t + 1000000000)
    | none => false
  let d := lnkDown n 1 (gklMod n (fun x => { x with failAt := some d.now }) d)
  if again then emit (.gklPhy n 0 0 0) (put .gklPhyStsState n 6 d)
  else phyTrain n (gklMod n (fun x => { x with tries := 0 }) d)

/-- A lane fails: the clock, or a data lane while the spare stands in, fails its group; another data lane is swapped onto the
spare at once (R372). -/
def laneFail (n lane : Nat) (d : Dyn) : Dyn :=
  let grp := lane / 18
  let pos := lane % 18
  if phySt d n ≠ 2 ∨ gklLanes n ≤ lane ∨ (gklGet d n).lost.contains lane then d
  else
    let stands := spareUsed d n grp
    let d := gklMod n (fun x => { x with lost := x.lost ++ [lane] }) d
    let d := raise 0x0804 (gklDie n) [n, lane] d
    if pos = 16 ∨ stands then
      if pos < 16 ∧ stands ∧ bits (spareBits d n grp) 0 4 = pos then d else groupFail n grp d
    else if pos = 17 then d
    else if (gklGet d n).lost.contains (18 * grp + 17) then groupFail n grp d
    else emit (.gklPhy n 6 grp pos) d

/-- LANE_FAILED: a lane's receiver loses signal for 64 UI (R372). -/
def execLaneFailed (n : Ep) (lane : Fin 180) (s : State) : Host.Outcome State Fault Refusal := nextDyn s fun _ d => laneFail n lane d

end Machine
end Sys2Proof
end

