-- ==== Sys2Proof/Machine/GklLink.lean ====
section
/-! DEFINITION. The GnokuLink link layer (spec/12, R374 to R396): flits, acknowledgement, replay, selective mode, credits,
versions, idle, and messages of another package. -/

namespace Sys2Proof
namespace Machine

/-- Version 1.1 runs and SEL_EN = 1: selective mode may be used (R388). -/
def selOk (g : Cfg) (d : Dyn) (n : Nat) : Bool := rd d .gklLnkStsMinor n == 1 && cg g .gklLnkCtlSelEn n == 1

/-- Send the CREDIT word of a class (R381). -/
def sendCredit (n tc : Nat) (d : Dyn) : Dyn :=
  let x := gklGet d n
  gklSay n (bypCredit tc (aget 0 x.freed tc) (aget 0 x.freed (8 + tc))) 1 d

/-- Send the CREDIT word of every class. -/
def sendCredits (n : Nat) (d : Dyn) : Dyn := forAll (List.range 8) (fun tc d => sendCredit n tc d) d

/-! ## Acknowledgement and replay (R384 to R386, R389) -/

/-- An ACK removes the flits it covers and restarts the replay timer (R384, R386). -/
def takeAck (n ack : Nat) (d : Dyn) : Dyn :=
  let x := gklGet d n
  let rest := x.replay.filter fun f => !(decide (1 ≤ mod12 ack f.seq) && decide (mod12 ack f.seq ≤ 2048))
  let d := put .gklLnkSeqTxAcked n ack d
  if rest.length = x.replay.length then d
  else
    let d := gklSet n { x with replay := rest, timer := d.now } d
    gklPump n d

/-- Flits are sent again: counted in REPLAY, SEQ unchanged, no credits spent (R382, R386, R389). -/
def resendFlits (n : Nat) (l : List TxFlit) (d : Dyn) : Dyn :=
  let d := tallyDie (gklDie n) 0x48 none 1 (bump .gklLnkErrReplay n 1 d)
  forAll l (fun f d => putFlit n f true d) (gklMod n (fun x => { x with timer := d.now }) d)

/-- REPLAY_TIMEOUT: the replay timer expires and every unacknowledged flit is resent; after 32 expiries on one oldest flit the
link goes DOWN (R386). -/
def execReplayTimeout (n : Ep) (s : State) : Host.Outcome State Fault Refusal :=
  nextDyn s fun _ d =>
    let x := gklGet d n
    match x.replay.head? with
    | none => d
    | some f =>
      if lnkSt d n = 3 ∧ x.timer + (if gklIsP n then 2000 else 200) ≤ d.now then
        let k := if x.expSeq = f.seq ∧ x.exps ≠ 0 then x.exps + 1 else 1
        let d := resendFlits n x.replay (gklSet n { x with exps := k, expSeq := f.seq } d)
        if 32 ≤ k then lnkDown n 2 d else d
      else d

/-- A NAK is honoured in selective mode: the flits named that are not acknowledged are resent (R388, R389, R391). -/
def takeNak (n first count : Nat) (d : Dyn) : Dyn :=
  if rd d .gklLnkStsTxSel n = 0 then d
  else
    let l := (gklGet d n).replay.filter fun f => decide (mod12 f.seq first < count)
    if l.isEmpty then d else resendFlits n l d

/-- NAK: a NAK makes the sender resend the named flits (R389). -/
def execNak (n : Ep) (first : Fin 4096) (count : Fin 65) (s : State) : Host.Outcome State Fault Refusal :=
  nextDyn s fun _ d => takeNak n first count d

/-! ## Selective mode (R388, R390) -/

/-- Send NAK for a missing range (R388). -/
def sendNak (n first count : Nat) (d : Dyn) : Dyn :=
  gklSay n (bypNak first count) 1 (bump .gklLnkErr2NakSent n 1 (gklMod n (fun x => { x with nak := some (first, count, d.now) }) d))

/-- NAK_REPEAT: an unfilled gap sends the NAK again after 4 times the one-way latency (R388). -/
def execNakRepeat (n : Ep) (s : State) : Host.Outcome State Fault Refusal :=
  nextDyn s fun _ d =>
    match (gklGet d n).nak with
    | some (f, c, t) => if rd d .gklLnkStsRxSel n = 1 ∧ t + 4 * (gklGet d n).lat ≤ d.now then sendNak n f c d else d
    | none => d

/-- Send a MODE request and wait for its answer (R390). -/
def askMode (n op : Nat) (d : Dyn) : Dyn :=
  gklSay n (bypMode op) 1 (gklMod n (fun x => { x with mode := some (op, d.now) }) d)

/-- A MODE word (R388, R390): requests are answered by the sender, answers end the receiver's wait. Both ends must run 1.1. -/
def takeMode (g : Cfg) (n op : Nat) (d : Dyn) : Dyn :=
  if rd d .gklLnkStsMinor n = 0 then d
  else if op = 0 then
    if !selOk g d n then d
    else
      let was := rd d .gklLnkStsTxSel n
      let d := gklSay n (bypMode 1) 1 (put .gklLnkStsTxSel n 1 d)
      if was = 0 then raise 0x0814 (gklDie n) [n] d else d
  else if op = 2 then gklSay n (bypMode 3) 1 (put .gklLnkStsTxSel n 0 d)
  else
    let waits := (gklGet d n).mode.map Prod.fst
    if op = 1 ∧ waits = some 0 then put .gklLnkStsRxSel n 1 (gklMod n (fun x => { x with mode := none }) d)
    else if op = 3 ∧ waits = some 2 then
      raise 0x0815 (gklDie n) [n] (put .gklLnkStsRxSel n 0 (gklMod n (fun x => { x with mode := none, nak := none }) d))
    else d

/-- REQ_SEL: the sender answers ACK_SEL and honours NAK (R388). -/
def execReqSel (n : Ep) (s : State) : Host.Outcome State Fault Refusal := nextDyn s fun g d => takeMode g n 0 d
/-- ACK_SEL: the receiver starts holding flits that are ahead (R388). -/
def execAckSel (n : Ep) (s : State) : Host.Outcome State Fault Refusal := nextDyn s fun g d => takeMode g n 1 d
/-- REQ_GBN: the sender answers ACK_GBN and ignores NAK (R390). -/
def execReqGbn (n : Ep) (s : State) : Host.Outcome State Fault Refusal := nextDyn s fun g d => takeMode g n 2 d
/-- ACK_GBN: the receiver leaves selective mode (R390). -/
def execAckGbn (n : Ep) (s : State) : Host.Outcome State Fault Refusal := nextDyn s fun g d => takeMode g n 3 d

/-- SELECTIVE_QUIET: 1 ms without a replay event and an empty reorder buffer: REQ_GBN (R390). -/
def execSelectiveQuiet (n : Ep) (s : State) : Host.Outcome State Fault Refusal :=
  nextDyn s fun _ d =>
    let x := gklGet d n
    if rd d .gklLnkStsRxSel n = 1 ∧ x.held = [] ∧ x.mode = none ∧ x.lastEv + 1000000 ≤ d.now then askMode n 2 d else d

/-- MODE_REPEAT: an unanswered request is sent again every µs (R390). -/
def execModeRepeat (n : Ep) (s : State) : Host.Outcome State Fault Refusal :=
  nextDyn s fun _ d =>
    match (gklGet d n).mode with
    | some (op, t) => if lnkSt d n = 3 ∧ t + 1000 ≤ d.now then askMode n op d else d
    | none => d

/-! ## Credits and bring-up (R380, R381, R392, Table 12.7) -/

/-- The system table as its registers hold it: identity, members, the links of the dies and the routes (R395, R397). -/
def sysTable (g : Cfg) : List Nat :=
  [cg g .gklSysIdSystemId 0, cg g .gklSysCfgMembers 0]
    ++ (List.range 4).flatMap (fun k => [cg g .gklSysLinkV k, cg g .gklSysLinkPeerPkg k, cg g .gklSysLinkPeerDie k])
    ++ (List.range 8).flatMap fun p => [cg g .gklSysRouteV p, cg g .gklSysRouteExitDie p]

/-- A SYS message leaves the lead die's management complex on the REQ plane for the GnokuLink-P port of a die, toward the lead of another
package, whose service router the sender does not know and names as its own (R396; assumption 158). -/
def sysSay (exit pkg what : Nat) (args : List Nat) (d : Dyn) : Dyn :=
  let src := svcRouter (2 * leadOr0 d)
  let m := { farTx d 0 pkg src src 20 with mkind := 2 }
  inject src 0 (svcRouter (2 * exit)) ⟨0, 0, 64, 200, 192 + exit, none, none, 0, 0, 0, 0, false, .far m⟩ (emit (.sys exit what args) d)

/-- SYS HELLO over a link that has come UP: package ID, SYSTEM_ID, the first 64 bits of the digest of the system table, and FRESH (R397). -/
def sayHello (g : Cfg) (n : Nat) (d : Dyn) : Dyn :=
  let dg := (Config.sysDigest (sysTable g)).toNat
  sysSay (gklDie n) (cg g .gklSysLinkPeerPkg (gklDie n)) 1
    [rd d .dieDieIdPkgId 0, cg g .gklSysIdSystemId 0, bits dg 32 32, bits dg 0 32, rd d .gklSysStsFresh 0] d

/-- A CREDIT word: the sender's count for a class; after all eight the link is UP, event 0x0810 (R380, Table 12.7). -/
def takeCredit (g : Cfg) (n tc h dc : Nat) (d : Dyn) : Dyn :=
  if lnkSt d n < 2 then d
  else
    let x := gklGet d n
    let d := gklSet n { x with limit := aset 0 (aset 0 x.limit tc h) (8 + tc) dc, crdSeen := bitSet x.crdSeen tc } d
    let d := if lnkSt d n = 2 ∧ (gklGet d n).crdSeen = 255 then
        let d := put .gklLnkSeqTxNext n 0 (put .gklLnkSeqTxAcked n 0 (put .gklLnkStsState n 3 d))
        let d := gklMod n (fun x => { x with lastTx := d.now, crdAt := d.now }) d
        let d := raise 0x0810 (gklDie n) [n] d
        if gklIsP n then sayHello g n d
        else linkReturn (gklLink n).1 (gklLink n).2 d
      else d
    gklPump n d

/-- CREDIT: a CREDIT word updates the sender's cumulative credit count for a class (R380). -/
def execCredit (n : Ep) (tc : Fin 8) (h dc : Fin 4096) (s : State) : Host.Outcome State Fault Refusal :=
  nextDyn s fun g d => takeCredit g n tc h dc d

/-- CREDIT_REFRESH: while UP the CREDIT word of every class is sent at least once per µs, but not in EI (R381, R394). -/
def execCreditRefresh (n : Ep) (s : State) : Host.Outcome State Fault Refusal :=
  nextDyn s fun _ d =>
    if lnkSt d n = 3 ∧ phySt d n = 2 then sendCredits n (gklMod n (fun x => { x with crdAt := d.now }) d) else d

/-- A CAP word: the version is fixed and CREDIT sent, or the link refused with event 0x0813 (R392). -/
def takeCap (g : Cfg) (n major minor kind pkg : Nat) (d : Dyn) : Dyn :=
  if lnkSt d n ≠ 1 then d
  else if major ≠ 1 ∨ kind ≠ b2n (gklIsP n) + 1 ∨ (gklIsP n ∧ pkg = rd d .dieDieIdPkgId 0) then
    lnkDown n 5 (raise 0x0813 (gklDie n) [n] d)
  else
    let v := min (min 1 (cg g .gklLnkCtlMaxminor n)) minor
    let d := put .gklLnkStsNes n 0 (put .gklLnkStsMinor n v (put .gklLnkStsMajor n 1 (put .gklLnkStsState n 2 d)))
    let d := gklMod n (fun x => { x with lat := d.now - x.initAt }) d
    let d := if v = 0 then raise 0x0812 (gklDie n) [n] d else d
    sendCredits n d

/-- CAP: the partner's CAP is accepted and the version fixed, or refused (R392). -/
def execCap (n : Ep) (major minor : Fin 16) (kind : Fin 4) (pkg : Fin 8) (s : State) : Host.Outcome State Fault Refusal :=
  nextDyn s fun g d => takeCap g n major minor kind pkg d

/-- INIT_TIMEOUT: 10 µs in CAP or CRED without reaching UP takes the link DOWN (Table 12.7). -/
def execInitTimeout (n : Ep) (s : State) : Host.Outcome State Fault Refusal :=
  nextDyn s fun _ d =>
    if (lnkSt d n = 1 ∨ lnkSt d n = 2) ∧ (gklGet d n).initAt + 10000 ≤ d.now then lnkDown n 6 d else d

/-- DOWN: a DOWN word takes the link DOWN (R393). -/
def execDown (n : Ep) (why : Fin 16) (s : State) : Host.Outcome State Fault Refusal := nextDyn s fun _ d => lnkDown n why d

/-! ## Idle (R394) -/

/-- A side may go idle: ACTIVE and UP, DP_IDLE and IDLE_NS set, nothing sent for IDLE_NS, nothing to send or unacknowledged
(R394). -/
def mayIdle (g : Cfg) (d : Dyn) (n : Nat) : Bool :=
  let x := gklGet d n
  lnkSt d n == 3 && phySt d n == 2 && cg g .pwrLimDpIdle 0 == 1 && cg g .gklLnkCtlIdleNs n != 0
    && decide (x.lastTx + cg g .gklLnkCtlIdleNs n ≤ d.now) && x.replay.isEmpty && x.txq.isEmpty

/-- Enter electrical idle (R370). -/
def enterIdle (n : Nat) (d : Dyn) : Dyn :=
  emit (.gklPhy n 9 0 0) (put .gklPhyStsState n 3 (gklMod n (fun x => { x with idle := false }) (strmMark n d)))

/-- PWR words (R394): 1 IDLE_REQ, 2 IDLE_ACK, 3 IDLE_NAK. A side that has sent IDLE_REQ takes IDLE_REQ as IDLE_ACK. -/
def takePwr (g : Cfg) (n op : Nat) (d : Dyn) : Dyn :=
  if lnkSt d n ≠ 3 ∨ phySt d n ≠ 2 then d
  else
    let asked := (gklGet d n).idle
    if op = 1 then
      if asked then enterIdle n d
      else if mayIdle g d n then enterIdle n (gklSay n (bypPwr 2) 1 d)
      else gklSay n (bypPwr 3) 1 d
    else if op = 2 then (if asked then enterIdle n d else d)
    else if op = 3 then gklMod n (fun x => { x with idle := false }) d
    else d

/-- IDLE_TIMER: no data flit for IDLE_NS with an empty replay buffer sends IDLE_REQ (R394). -/
def execIdleTimer (n : Ep) (s : State) : Host.Outcome State Fault Refusal :=
  nextDyn s fun g d =>
    if mayIdle g d n then gklSay n (bypPwr 1) 1 (gklMod n (fun x => { x with idle := true }) d) else d

/-- IDLE_REQ: answered with IDLE_ACK or IDLE_NAK (R394). -/
def execIdleReq (n : Ep) (s : State) : Host.Outcome State Fault Refusal := nextDyn s fun g d => takePwr g n 1 d
/-- IDLE_ACK: the side enters electrical idle (R394). -/
def execIdleAck (n : Ep) (s : State) : Host.Outcome State Fault Refusal := nextDyn s fun g d => takePwr g n 2 d
/-- IDLE_NAK: the link stays ACTIVE (R394). -/
def execIdleNak (n : Ep) (s : State) : Host.Outcome State Fault Refusal := nextDyn s fun g d => takePwr g n 3 d

/-! ## Bypass words (Table 12.6) -/

/-- Act on a received bypass word; reserved types are counted in BYP_BAD (R391, Table 12.6). -/
def takeWord (g : Cfg) (n : Nat) (w : Word) (d : Dyn) : Dyn :=
  let x := w.toNat
  let op := bits x 24 4
  match bits x 28 4 with
  | 0 => d
  | 1 => takeCredit g n (bits x 25 3) (bits x 13 12) (bits x 1 12) d
  | 2 => if rd d .gklLnkStsMinor n = 0 then d else takeNak n (bits x 16 12) (bits x 10 6 + 1) d
  | 3 => takeMode g n (bits x 26 2) d
  | 4 => takeCap g n op (bits x 20 4) (bits x 18 2) (bits x 15 3) d
  | 5 => takePwr g n op d
  | 6 =>
    let grp := bits x 20 4
    let pos := bits x 16 4
    if op = 1 then swapReady n grp pos d
    else if op = 2 then swapDone n grp pos d
    else if op = 3 then swapFail n grp pos d else d
  | 7 => lnkDown n op d
  | _ => bump .gklLnkErr2BypBad n 1 d

/-! ## Messages (R377, R378, R396) -/

/-- The route of this package to another: its exit die, if it is valid and not refused, and HELLO has not refused its link (R395, R397). -/
def exitTo (g : Cfg) (d : Dyn) (pkg : Nat) : Option Nat :=
  let k := cg g .gklSysRouteExitDie pkg
  if cg g .gklSysRouteV pkg = 0 ∨ rd d .gklSysRouteBad pkg = 1 ∨ aget 0 d.sys.hello k = 2 then none else some k

/-- A request of another package arrives for a backend device here: metered as its host's (R296, R299), scheduled with the
weight it carries (R289), unchecked (R280, R396). For the test of R111 its input rate is that of the backend device's own port, and a
response that arrives so has the rate of its requester's port: the spec gives a packet of GnokuLink-P no input rate (DESIGN CHOICE,
assumption 131). -/
def remoteReq (g : Cfg) (n flow : Nat) (r : Req) (dev : Nat) (hdr : GHdr) (col : Nat) (d : Dyn) : Dyn :=
  let die := gklDie n
  let h := (match r.tgt with
    | .host v => v.val
    | _ => 0)
  let q := qCfg g d
  let c := chargeOf r.kind r.len
  let pc := if isMem r.kind then police q h (if cg q .qosCtlColAware 0 = 1 then min col 2 else 0) c d else (0, d)
  let lp := rd pc.2 .xltBedevLport dev
  let via := (exitTo g d hdr.spkg).getD 4 + 8 * (hdr.spkg.val + 8 * hdr.srtr.val)
  let f : Flight := ⟨r, die, 4294967296, hdr.slice.map Fin.val, pc.1, none, [dev], false, .light, none, 0, 0, some via, false⟩
  if (flightOf pc.2 flow).isSome then pc.2
  else
    let d := { pc.2 with flights := pc.2.flights ++ [f] }
    if !devOk d dev then answer r (memAnswer r.kind) d
    else
      let p := { reqPkt g d f lp (rd d .xltBedevLdId dev) r.addr c false with src := 196 + die, weight := hdr.weight.val, color := pc.1, host := some h }
      inject (svcRouter (2 * die)) (planeOf p) (cluRouter (lpClu lp)) p d

/-- The response to a request that left by GnokuLink-P: the congestion bit becomes a DevLoad, and the response goes to the
requester's port (R122, R124). -/
def remoteRsp (g : Cfg) (n flow : Nat) (k : RespKind) (dl : DevLoad) (cong : Bool) (d : Dyn) : Dyn :=
  match flightOf d flow with
  | none => d
  | some f =>
    if !f.devs.any fun w => decide (3000 ≤ w) then d
    else
      let cl := lpClu f.req.lport
      let mark := if !cong then .light else if cg g .cluMarkCgSev cl = 1 then .severe else .moderate
      let load := dlMax f.devLoad (dlMax dl mark)
      let f := { f with devs := f.devs.drop 1, devLoad := load, poison := f.poison || isPoison k }
      let d := setFlight flow (fun _ => f) d
      let p := { rspPkt g d f f.req.lport (finalResp f k) load with src := 196 + gklDie n, local1 := false }
      if f.devs.isEmpty then inject (svcRouter (2 * gklDie n)) (planeOf p) (cluRouter cl) p d else d

/-- A message for a third package goes on by this package's route to it, as it came (R395, R396). -/
def transit (g : Cfg) (n tc : Nat) (r : Reasm) (d : Dyn) : Dyn :=
  match exitTo g d r.hdr.pkg with
  | none => d
  | some exit =>
    let h := r.hdr
    let m : GTx := ⟨tc, h.dslots, h.mkind, r.cg, r.col, 0, farRoute h.pkg h.rtr, h.spkg, h.srtr, Config.endpointNo 16, h.slice.map Fin.val, h.weight⟩
    let p : Pkt := ⟨0, 0, 16 * h.dslots.val, 196 + gklDie n, 192 + exit, none, m.slice, m.weight, r.col, 0, 0, false, .far m⟩
    inject (svcRouter (2 * gklDie n)) (tc / 2) (svcRouter (2 * exit)) p d

/-- A message is whole: its credits are freed and told (R380, R381), and on GnokuLink-P it acts, unless HELLO refused the link (R396,
R397). -/
def deliver (g : Cfg) (n tc : Nat) (r : Reasm) (d : Dyn) : Dyn :=
  let x := gklGet d n
  let fr := aset 0 x.freed tc ((aget 0 x.freed tc + 1) % 4096)
  let fr := aset 0 fr (8 + tc) ((aget 0 fr (8 + tc) + r.hdr.dslots.val) % 4096)
  let d := sendCredit n tc (gklSet n { x with freed := fr } d)
  if !gklIsP n || r.hdr.mkind.val != 1 || aget 0 d.sys.hello (gklDie n) == 2 then d
  else if r.hdr.pkg.val ≠ rd d .dieDieIdPkgId 0 then transit g n tc r d
  else match r.hdr.msg with
    | .req flow kind dev addr len h poison => remoteReq g n flow
        ⟨flow, ⟨rd d .xltBedevLport dev % 192, Nat.mod_lt _ (by decide)⟩, kind, .host h, addr, len, none, .i, false, none, poison⟩ dev r.hdr r.col d
    | .rsp flow k dl => remoteRsp g n flow k dl r.cg d
    | .other => d

/-- Take the slots of an accepted flit; NULL ends them; a reserved MKIND, more than 16 data slots or a message without room takes
the link DOWN (R377, R381, Table 12.8). -/
def takeSlots (g : Cfg) (n tc : Nat) (cong : Bool) (col : Nat) : List GSlot → Dyn → Dyn
  | [], d => d
  | sl :: t, d =>
    let x := gklGet d n
    match aget none x.reasm tc with
    | some r =>
      if r.left ≤ 1 then takeSlots g n tc cong col t (deliver g n tc r (gklSet n { x with reasm := aset none x.reasm tc none } d))
      else takeSlots g n tc cong col t (gklSet n { x with reasm := aset none x.reasm tc (some { r with left := r.left - 1 }) } d)
    | none => match sl with
      | .data => lnkDown n 4 d
      | .hdr h =>
        if h.mkind.val = 0 then d
        else if 2 < h.mkind.val ∨ 16 < h.dslots.val then lnkDown n 4 d
        else if mod12 (aget 0 x.freed tc) (aget 0 x.recvd tc) = 0 ∨
            mod12 (aget 0 x.freed (8 + tc)) (aget 0 x.recvd (8 + tc)) < h.dslots.val then lnkDown n 3 d
        else
          let rv := aset 0 x.recvd tc ((aget 0 x.recvd tc + 1) % 4096)
          let rv := aset 0 rv (8 + tc) ((aget 0 rv (8 + tc) + h.dslots.val) % 4096)
          let r : Reasm := ⟨h, h.dslots.val, cong, col⟩
          let d := gklSet n { x with recvd := rv, reasm := if h.dslots.val = 0 then x.reasm else aset none x.reasm tc (some r) } d
          takeSlots g n tc cong col t (if h.dslots.val = 0 then deliver g n tc r d else d)

/-- Accept the next flit: NES advances and its slots are taken (R383). -/
def acceptFlit (g : Cfg) (n : Nat) (f : GFlit) (d : Dyn) : Dyn :=
  let col := if rd d .gklLnkStsMinor n = 0 then 0 else f.col.val
  takeSlots g n f.tc f.cg col f.slots (put .gklLnkStsNes n ((rd d .gklLnkStsNes n + 1) % 4096) d)

/-- Held flits are accepted in SEQ order as the gaps fill; a gap that stays behind a held flit is named again (R388). -/
def drainHeld (g : Cfg) (n : Nat) : Nat → Dyn → Dyn
  | 0, d => d
  | fuel + 1, d =>
    match (gklGet d n).held.find? fun f => f.seq.val == rd d .gklLnkStsNes n with
    | none => d
    | some f => drainHeld g n fuel (acceptFlit g n f (gklMod n (fun x => { x with held := dropOne f x.held }) d))

/-- Name the range missing before the first held flit, at most 64 long, once per range (R388). -/
def nameGap (n : Nat) (d : Dyn) : Dyn :=
  let x := gklGet d n
  let nes := rd d .gklLnkStsNes n
  match x.held with
  | [] => gklSet n { x with nak := none } d
  | f :: t =>
    let low := t.foldl (fun m h => min m (mod12 h.seq nes)) (mod12 f.seq nes)
    if (x.nak.map fun k => k.1) = some nes then d else sendNak n nes (min 64 low) d

/-- A data flit whose CRC fails: a replay event; more than 8 in 10 µs ask for selective mode (R376, R388). -/
def badFlit (g : Cfg) (n : Nat) (d : Dyn) : Dyn :=
  let d := bump .gklLnkErrCrcFail n 1 d
  let ev := ((gklGet d n).events.filter fun t => decide (d.now < t + 10000)) ++ [d.now]
  let d := gklMod n (fun x => { x with events := ev, lastEv := d.now }) d
  if decide (8 < ev.length) && selOk g d n && rd d .gklLnkStsRxSel n == 0 && (gklGet d n).mode.isNone then askMode n 0 d else d

/-- Where the receiver takes a group's spare from, for `laneOf`: SPARE_STS (R371). -/
def rxSpare (d : Dyn) (n grp : Nat) : Nat := if spareUsed d n grp then bits (spareBits d n grp) 0 4 + 1 else 0

/-- A corrected symbol is attributed to the lane that carried its byte of the stream: more than LANE_ERR_TH in 1 ms fail the lane (R362,
R372, R376). -/
def laneCorr (g : Cfg) (n k : Nat) (d : Dyn) : Dyn :=
  let x := gklGet d n
  let lane := laneOf (rxSpare d n) (byteLane n k)
  let fresh := decide (x.corrAt + 1000000 ≤ d.now)
  let c := (if fresh then 0 else aget 0 x.corr lane) + 1
  let d := gklSet n { x with corrAt := if fresh then d.now else x.corrAt, corr := aset 0 (if fresh then arrEmpty else x.corr) lane c } d
  if max 1 (cg g .gklPhyCtlLaneErrTh n) < c then laneFail n lane d else d

/-- DATA_FLIT: a data flit is corrected, checked, and accepted, dropped as a duplicate, held or discarded as ahead (R376, R383,
R387, R388). -/
def execDataFlit (n : Ep) (f : GFlit) (s : State) : Host.Outcome State Fault Refusal :=
  nextDyn s fun g d =>
    if lnkSt d n < 2 ∨ phySt d n ≠ 2 then d
    else
      let d := bump .gklLnkFecCorr n f.corr.length d
      let d := forAll f.corr (fun b d => laneCorr g n (256 * f.win + b.val) d) d
      if lnkSt d n < 2 then d
      else if !f.crcOk then badFlit g n d
      else
        let d := takeWord g n f.byp (takeAck n f.ack d)
        let nes := rd d .gklLnkStsNes n
        let ahead := mod12 f.seq nes
        if lnkSt d n < 2 then d
        else if ahead = 0 then
          let d := drainHeld g n 64 (acceptFlit g n f d)
          if rd d .gklLnkStsRxSel n = 1 then nameGap n d else d
        else if 2048 ≤ ahead then bump .gklLnkErr2Dup n 1 d
        else if rd d .gklLnkStsRxSel n = 1 ∧ ahead ≤ 64 ∧ (gklGet d n).held.length < 64
            ∧ !((gklGet d n).held.any fun h => h.seq == f.seq) then
          nameGap n (gklMod n (fun x => { x with held := x.held ++ [f] }) d)
        else d

/-- SHORT_FLIT: a short flit's ACK and bypass words are acted on (R374, R383). -/
def execShortFlit (n : Ep) (ack : Fin 4096) (words : List Word) (crcOk : Bool) (s : State) : Host.Outcome State Fault Refusal :=
  nextDyn s fun g d =>
    if !crcOk || phySt d n != 2 then d
    else forAll (words.take 6) (fun w d => takeWord g n w d) (if lnkSt d n = 3 then takeAck n ack d else d)

end Machine
end Sys2Proof
end

