-- ==== Sys2Proof/Machine/System.lean ====
section
/-! DEFINITION. Federation of packages (R30, R395 to R399): HELLO, BEAT, the loss of a package, the lead package and quorum. -/

namespace Sys2Proof
namespace Machine

/-- This package's ID (R452). -/
def ownPkg (d : Dyn) : Nat := rd d .dieDieIdPkgId 0

/-- The expected members (GKL.SYS_CFG). -/
def members (g : Cfg) : Nat := cg g .gklSysCfgMembers 0

/-- Whether a group of packages holds a quorum: more than half of the expected members, or exactly half with the lowest of them;
with no member named the package stands alone and acts (R399, assumption 62). -/
def quorumOf (g : Cfg) (reach : Nat) : Bool :=
  let m := members g
  let n := popCount m 8
  let k := popCount (reach &&& m) 8
  m == 0 || decide (n < 2 * k) || (2 * k == n && match firstFrom (fun p => bitAt m p) 0 8 with
    | some p => bitAt reach p
    | none => false)

/-- The lowest package of the group leads (R30). -/
def leadPkgOf (d : Dyn) (reach : Nat) : Nat := (firstFrom (fun p => bitAt reach p || p == ownPkg d) 0 8).getD (ownPkg d)

/-- The reachable set has changed: the lead package with event 0x081A, quorum with event 0x081C and the migrations it aborts with
reason SAG, or what a regained quorum lets start (R30, R398, R399). -/
def sysSettle (g : Cfg) (d : Dyn) : Dyn :=
  let reach := rd d .gklSysStsReach 0
  let lead := leadPkgOf d reach
  let d := if lead = rd d .gklSysStsLeadPkg 0 then d else raise 0x081A (leadOr0 d) [lead] (put .gklSysStsLeadPkg 0 lead d)
  let q := quorumOf g reach
  if q && rd d .gklSysStsQuorum 0 == 0 then arbScan (put .gklSysStsQuorum 0 1 d)
  else if !q && rd d .gklSysStsQuorum 0 == 1 then
    forAll (List.range 64) (fun i d => migAbort g i 6 d) (raise 0x081C (leadOr0 d) [ownPkg d] (put .gklSysStsQuorum 0 0 d))
  else d

/-- A route may stand: its link is there, and package IDs along it can rise and then fall: from a first step that falls they only fall. The
routes of other packages are not in this package's table, so only the first step is tested (R395; assumption 157). -/
def routeOk (g : Cfg) (own p die : Nat) : Bool :=
  let peer := cg g .gklSysLinkPeerPkg die
  cg g .gklSysLinkV die == 1 && (peer == p || decide (own < peer) || decide (p < peer))

/-- What start makes of the system table: this package reaches itself when it is a member; routes that name an absent link or
break the order are refused with event 0x081B; the lead and the quorum (R395, R399). -/
def sysStart (g : Cfg) (d : Dyn) : Dyn :=
  let own := ownPkg d
  let d := forAll (List.range 8) (fun p d =>
    if cg g .gklSysRouteV p = 1 ∧ p ≠ own ∧ !routeOk g own p (cg g .gklSysRouteExitDie p)
    then raise 0x081B (leadOr0 d) [p] (put .gklSysRouteBad p 1 d) else put .gklSysRouteBad p 0 d) d
  let reach := if bitAt (members g) own then 2 ^ own else 0
  let d := put .gklSysStsReach 0 reach d
  let d := put .gklSysStsLeadPkg 0 (leadPkgOf d reach) d
  put .gklSysStsQuorum 0 (b2n (quorumOf g reach)) d

/-- A package is in reach as a member. -/
def pkgReach (p : Nat) (d : Dyn) : Dyn :=
  { putBit .gklSysStsReach 0 p true d with sys := { d.sys with beatAt := aset 0 d.sys.beatAt p d.now } }

/-- VCS numbers that a package with a lower ID has too: the UPSTREAM port here that carries one is UNUSED with CFG_BAD and event 0x010A, and
leads no VCS (R56, R58). By what message packages learn each other's numbers the spec does not say: HELLO brings them (DESIGN CHOICE,
assumption 93). -/
def vcsTaken (g : Cfg) (pkg : Nat) (vcs : List Host) (d : Dyn) : Dyn :=
  if ownPkg d ≤ pkg then d
  else forAll ((List.range 192).filter fun lp => isUp g d lp && vcs.any fun v => v.val == cg g .portLpcfgVcs lp) (fun lp d =>
    let v := cg g .portLpcfgVcs lp
    let d := if lpLinkUp d lp then upLost g lp d else d
    raise 0x010A (lpDie lp) [lp] (put .portLstsCfgBad lp 1
      { d with port := { d.port with vcs := d.port.vcs.filter fun x => x != v, vcsPort := aset 0 d.port.vcsPort v 0 } })) d

/-- Requests that a lost package owes an answer are answered as to an unmapped page (R143, R399). -/
def remoteLost (pkg : Nat) (d : Dyn) : Dyn :=
  forAll (d.flights.filter fun f => f.devs.contains (3000 + pkg) || farPkg f == some pkg) (fun f d =>
    match f.req.tgt with
    | .ld n => answerUnmapped f.req f.die n d
    | _ => answer f.req (memAnswer f.req.kind) d) d

/-- Set what HELLO made of a die's GnokuLink-P link. -/
def helloSet (die v : Nat) (d : Dyn) : Dyn := { d with sys := { d.sys with hello := aset 0 d.sys.hello die v } }

/-- HELLO refuses a die's link: it carries SYS messages alone, what waits to leave by it is dropped, and the packages whose routes leave by it
are out of reach for requests, which are answered as to an unmapped page (R143, R397, R399; assumption 162). -/
def helloRefuse (g : Cfg) (die : Nat) (d : Dyn) : Dyn :=
  let d := gklMod (9 * die + 8) (fun x => { x with txq := x.txq.filter fun m => m.mkind != 1 }) (helloSet die 2 d)
  forAll ((List.range 8).filter fun p => p != ownPkg d && cg g .gklSysRouteV p == 1 && cg g .gklSysRouteExitDie p == die) (fun p d => remoteLost p d) d

/-- HELLO: a GnokuLink-P link joins the federation when SYSTEM_ID and the digest match and the sender is FRESH or a member
already; otherwise it carries SYS messages alone, event 0x081B (R397). The sender's VCS numbers come with it (R56). -/
def execHello (die : Die) (pkg : Fin 8) (sysid : Word) (digestOk fresh : Bool) (vcs : List Host) (s : State) : Host.Outcome State Fault Refusal :=
  nextDyn s fun g d =>
    if lnkSt d (9 * die.val + 8) ≠ 3 then d
    else if sysid.toNat = cg g .gklSysIdSystemId 0 ∧ digestOk ∧ (fresh ∨ d.sys.joined.contains pkg) then
      let known := d.sys.joined.contains pkg.val
      let d := if known then d else vcsTaken g pkg vcs d
      let d := if known then d else { d with sys := { d.sys with joined := d.sys.joined ++ [pkg.val] } }
      let d := put .gklSysStsFresh 0 0 (putBit .gklSysStsLost 0 pkg false d)
      let d := if known then d else raise 0x0816 (leadOr0 d) [pkg] d
      gklPump (9 * die.val + 8) (helloSet die 1 (sysSettle g (if bitAt (members g) pkg then pkgReach pkg d else d)))
    else helloRefuse g die (raise 0x081B (leadOr0 d) [die] d)

/-- BEAT: with no sender named, the lead die's own BEAT goes to every member, every 100 µs; otherwise a member's BEAT arrives, and
a package that is not lost is in reach (R398). -/
def execBeat (src : Option (Fin 8)) (s : State) : Host.Outcome State Fault Refusal :=
  nextDyn s fun g d =>
    match src with
    | none =>
      if (leadDie d).isSome ∧ d.sys.sentAt + 100000 ≤ d.now then
        let d := { d with sys := { d.sys with sentAt := d.now } }
        forAll ((List.range 8).filter fun p => bitAt (members g) p && p != ownPkg d && cg g .gklSysRouteV p == 1 && rd d .gklSysRouteBad p == 0)
          (fun p d => sysSay (cg g .gklSysRouteExitDie p) p 2 [ownPkg d] d) d
      else d
    | some p =>
      if p.val = ownPkg d ∨ !bitAt (members g) p ∨ bitAt (rd d .gklSysStsLost 0) p then d
      else sysSettle g (pkgReach p d)

/-- Regions homed on a lost package are lost to their members, event 0x0205 (R253). -/
def homesLost (g : Cfg) (pkg : Nat) (d : Dyn) : Dyn :=
  forAll ((List.range 64).filter fun i => srValid g d i && cg g .cohSrCfgHomePkg i == pkg)
    (fun i d => raise 0x0205 (leadOr0 d) [i] d) d

/-- PKG_LOST: no BEAT for 1 ms: the package is lost, event 0x0819, its hosts are failed, its regions and answers are lost, the
lead and the quorum follow (R253, R398, R399). The hosts on that package are an operand (assumption 63). -/
def execPkgLost (pkg : Fin 8) (hosts : List Host) (s : State) : Host.Outcome State Fault Refusal :=
  nextDyn s fun g d =>
    if pkg.val = ownPkg d ∨ !bitAt (rd d .gklSysStsReach 0) pkg ∨ d.now < aget 0 d.sys.beatAt pkg + 1000000 then d
    else
      let d := putBit .gklSysStsLost 0 pkg true (putBit .gklSysStsReach 0 pkg false d)
      let d := raise 0x0819 (leadOr0 d) [pkg] { d with sys := { d.sys with joined := dropOne pkg.val d.sys.joined } }
      let d := forAll hosts (fun h d => hostFail g h d) d
      peerGone g pkg (sysSettle g (remoteLost pkg (homesLost g pkg d)))

end Machine
end Sys2Proof
end

