-- ==== Sys2Proof/Machine/Counters.lean ====
section
/-! DEFINITION. The counter block (spec/17): event selection, clearing, freezing, slot shares, and the refill of shapers and
policers that also settles slices an amendment changed (R307, R308, R494 to R505). -/

namespace Sys2Proof
namespace Machine

/-! ## Refill -/

/-- Slices that an amendment made invalid or gave to another host (R308, R310). -/
def goneSlices (og g : Cfg) : List Nat :=
  (slicesV og).filter fun s => cg g .qosSliceKeyV s == 0 || cg og .qosSliceKeyHost s != cg g .qosSliceKeyHost s

/-- Slices that an amendment made valid (R505). -/
def newSlices (og g : Cfg) : List Nat := (slicesV g).filter fun s => cg og .qosSliceKeyV s == 0

/-- REFILL: once in every µs all shapers and policers refill together; a slice that an amendment changed is settled in the same
refill: its counters are cleared and its rings halt (R307, R308, R310, R505). -/
def execRefill (s : State) : Host.Outcome State Fault Refusal :=
  nextDyn s fun g d =>
    if !refillDue d then d
    else
      let og := qCfg g d
      let d := refillAll g d
      let d := forAll (newSlices og g ++ movedSlices og g) slcClear d
      forAll (goneSlices og g) (ringsSlice g) d

/-! ## Selection (R496, R497) -/

/-- The fixed counters of a die (Table 17.1). -/
def ctrFixed (i : Nat) : Bool := decide (i < 192) && decide (i % 16 < 5)

/-- Table 17.2 lists an event for the owner of counter `i`. -/
def evListed (i ev : Nat) : Bool :=
  if i < 192 then decide (0x10 ≤ ev) && decide (ev ≤ 0x19)
  else if i < 240 then decide (0x20 ≤ ev) && decide (ev ≤ 0x25)
  else if i < 336 then decide (0x30 ≤ ev) && decide (ev ≤ 0x34)
  else decide (0x40 ≤ ev) && decide (ev ≤ 0x49)

/-- A write to SEL_i: it clears nothing; EVENT and THR of a fixed counter stay; an event its owner does not have sets BAD and
raises event 0x0D03 (R496, R497). -/
def selWrite (die i w : Nat) (d : Dyn) : Dyn :=
  let j := die * 1024 + i
  let d := put .pmcSelEn j (bits w 31 1) (put .pmcSelQual j (bits w 27 4) d)
  if ctrFixed i then d
  else
    let ev := bits w 16 8
    let d := put .pmcSelEvent j ev (put .pmcSelThr j (bits w 0 16) d)
    if evListed i ev then put .pmcSelBad j 0 d else raise 0x0D03 die [i] (put .pmcSelBad j 1 d)

/-- SEL_WRITE: a write to SEL_i selects an event and qualifier from the next cycle (R497). -/
def execSelWrite (die : Die) (i : Fin 1024) (w : Word) (s : State) : Host.Outcome State Fault Refusal :=
  nextDyn s fun _ d => selWrite die i w.toNat d

/-! ## Clearing and freezing (R499, R500, R505) -/

/-- Clear one counter and its OVF (R499). -/
def ctrClear (j : Nat) (d : Dyn) : Dyn := put .pmcValCount j 0 (put .pmcValOvf j 0 d)

/-- A write to PMC.CLR: one counter of the die, or all of them. -/
def clrWrite (die : Nat) (all : Bool) (i : Nat) (d : Dyn) : Dyn :=
  if all then
    forAll (((stsListed d .pmcValCount) ++ (stsListed d .pmcValOvf)).filter fun j => j / 1024 == die) ctrClear d
  else ctrClear (die * 1024 + i) d

/-- CLR: a write to PMC.CLR clears one counter or all of the die's counters with OVF (R499). -/
def execClr (die : Die) (all : Bool) (i : Fin 1024) (s : State) : Host.Outcome State Fault Refusal :=
  nextDyn s fun _ d => clrWrite die all i d

/-- SLC_CLR: the eight slice counters are cleared wherever they are kept (R505). -/
def execSlcClr (sl : Slc) (s : State) : Host.Outcome State Fault Refusal := nextDyn s fun _ d => slcClear sl d

/-- FREEZE: no counter changes except by clearing while frozen; PMC.CTL is package-wide (R500). -/
def execFreeze (on : Bool) (s : State) : Host.Outcome State Fault Refusal :=
  nextDyn s fun _ d => put .pmcCtlFreeze 0 (b2n on) d

/-! ## Slot shares (R504) -/

/-- The shares of a port unit, `none` when INVALID: DELIVERED, WASTED, STARVED_FRONT, BLOCKED_BACK in whole percent of TOTAL,
rounded down. -/
def tdShares (d : Dyn) (die p : Nat) : Option (List Nat) :=
  let j := die * 1024 + 16 * p
  let total := rd d .pmcValCount (j + 4)
  if total = 0 ∨ ((List.range 5).any fun k => rd d .pmcValOvf (j + k) == 1) then none
  else some ((List.range 4).map fun k => rd d .pmcValCount (j + k) * 100 / total)

/-- PMC.TD_p as it reads. -/
def tdWord (d : Dyn) (die p : Nat) : Nat :=
  match tdShares d die p with
  | none => 2 ^ 31
  | some l => (l[0]?).getD 0 * 2 ^ 21 + (l[1]?).getD 0 * 2 ^ 14 + (l[2]?).getD 0 * 2 ^ 7 + (l[3]?).getD 0

/-- PMC.OVF_w as it reads: the OVF bits of 32 counters. -/
def ovfWord (d : Dyn) (die w : Nat) : Nat :=
  (List.range 32).foldl (fun n b => n + rd d .pmcValOvf (die * 1024 + 32 * w + b) * 2 ^ b) 0

end Machine
end Sys2Proof
end

