-- ==== Sys2Proof/Machine/View.lean ====
section
/-! DEFINITION. What registers show that the machine keeps elsewhere: each computed field of spec/01 to spec/19 as one function
of the state, so that a status has one home. -/

namespace Sys2Proof
namespace Machine

/-! ## Counts over the state -/

/-- The joined devices of a tier. -/
def tierJoined (d : Dyn) (t : Nat) : List Nat := d.alloc.joined.filter fun b => rd d .xltBedevTier b == t

/-- Blocks of a tier in FREE (ALLOC.POOL_STS). -/
def poolFree (d : Dyn) (t : Nat) : Nat := (tierJoined d t).foldl (fun n b => n + (freeBlks d b).length) 0

/-- Blocks of a device in ZEROING, its unlisted blocks among them (R186). -/
def devZeroing (d : Dyn) (b : Nat) : Nat :=
  nblk d b - (devBlks d b).length + ((devBlks d b).filter fun x => blkState x.2 == 1).length

/-- Blocks of a tier in ZEROING. -/
def poolZeroing (d : Dyn) (t : Nat) : Nat := (tierJoined d t).foldl (fun n b => n + devZeroing d b) 0

/-- Channels of a die's data mover in use: ring work, one for each migration chunk in flight and one for zeroing under way
(assumption 64). -/
def chBusy (d : Dyn) (die : Nat) : Nat :=
  chRing d die + ((List.range 16).filter fun s => (migGet d (die * 16 + s)).busy.isSome).length
    + b2n (d.alloc.joined.any fun b => devDie d b == die && decide (0 < devZeroing d b))

/-- Rings of a die in a state. -/
def ringsIn (d : Dyn) (die st : Nat) : Nat :=
  (d.ring.rings.cells.filter fun c => c.2.die == die && c.2.state == st).length

/-- RCFG of a ring. -/
def rcfgWord (r : Ring) : Nat :=
  r.irqMode * 2 ^ 30 + r.vec * 2 ^ 24 + r.log2 * 2 ^ 16 + r.ver * 2 ^ 15 + r.poll
/-- RSTS of a ring. -/
def rstsWord (r : Ring) : Nat :=
  r.state * 2 ^ 29 + b2n r.heldAt.isSome * 2 ^ 28 + r.why * 2 ^ 24 + r.err * 2 ^ 16 + min 15 (inflt r)
/-- RCFG of a result ring. -/
def resCfgWord (r : ResRing) : Nat := r.irqMode * 2 ^ 30 + r.vec * 2 ^ 24 + r.log2 * 2 ^ 16
/-- RSTS of a result ring: OFF or ACTIVE. -/
def resStsWord (r : ResRing) : Nat := b2n r.on * 2 ^ 29

/-- A word of RING.RING_n: rings that another die serves read 0. -/
def ringMir (d : Dyn) (i : Nat) (f : Ring → Nat) : Nat :=
  let r := ringGet d (i % 16384)
  if r.die = i / 16384 then f r else 0

/-- The router of die i / 8 with number i % 8 in its block. -/
def rtrOf (i : Nat) : Nat := i % 4 * 8 + 2 * (i / 8) + i / 4 % 2

/-- The route word of register index i (R342). -/
def rtWord (d : Dyn) (i : Nat) : Nat :=
  bankWord (bankOf d (i / 128 % 2)) (rtrOf (i / 256)) (i / 32 % 4) (i % 32)

/-- Running activities by code (HLTH.ARB_STS). -/
def arbRunning (d : Dyn) : Nat := (List.range 10).foldl (fun n c => n + b2n (d.hlth.running.any fun a => a.q.code.val == c) * 2 ^ c) 0

/-- Seconds a host has left in GRACE or QUARANTINE (R210). -/
def hostRemain (g : Cfg) (d : Dyn) (h : Nat) : Nat :=
  let spent := (d.now - aget 0 d.alloc.hostAt h) / 1000000000
  match hostState d h with
  | 1 => cg g .allocCtlGraceS 0 - spent
  | 2 => cg g .allocCtl2ReclaimS 0 - spent
  | _ => 0

/-- Members of a shared region. -/
def srCount (g : Cfg) (i : Nat) : Nat := min 128 (srMembers g i).length
/-- Size of a shared region in 256 MiB blocks. -/
def srBlocks (g : Cfg) (i : Nat) : Nat :=
  match (srMembers g i).head? with
  | some m => cg g .allocRgnPages (m.1 * 8 + m.2) / 128
  | none => 0

/-- All clusters of a die hold the preferred idle test (DIE.PROF_EFF.CT_PREF). -/
def ctPrefAll (g : Cfg) (die : Nat) : Bool := (List.range 6).all fun c => cg g .cluFwdCtlCtPref (6 * die + c) == 1
/-- The clusters of a die differ in it (CT_MIXED). -/
def ctPrefMixed (g : Cfg) (die : Nat) : Bool :=
  !ctPrefAll g die && (List.range 6).any fun c => cg g .cluFwdCtlCtPref (6 * die + c) == 1

/-- The valid ways of a directory slice. -/
def dirWays (d : Dyn) (i : Nat) : List DirWay := (dirGet d i).sets.cells.flatMap fun c => c.2

/-- Seconds a die's Ranger stays unlocked. -/
def monRemain (d : Dyn) (i : Nat) : Nat :=
  if rd d .monDbgStsUnlocked i = 1 then ((aget mon0 d.mon i).until0 - d.now + 999999999) / 1000000000 else 0

/-- Failed checks of the last 10 minutes (R524). -/
def monFails (d : Dyn) (i : Nat) : Nat := min 3 ((aget mon0 d.mon i).fails.filter fun t => decide (d.now < t + 600000000000)).length

/-- A word of the trace records of a die (R522). -/
def traceWord (d : Dyn) (i : Nat) : Nat :=
  ((((aget mon0 d.mon (i / 1024)).trace[i % 1024 / 8]?).getD [])[i % 8]?).getD 0

/-! ## The view -/

/-- A status field as it reads: stored, or computed from where the machine keeps it. The eye and error-count readings of a
receiver are analogue: free values (assumption 65). -/
def view (g : Cfg) (d : Dyn) (f : SFld) (i : Nat) : Nat :=
  match f with
  | .dieProfEffMigRate => migRate g
  | .dieProfEffCtMixed => b2n (ctPrefMixed g i)
  | .dieProfEffDpIdle => cg g .pwrLimDpIdle 0
  | .dieProfEffReeqPause => cg g .hlthCtlReeqPause 0
  | .dieProfEffL1En => cg g .portLpmCtlL1En 0
  | .dieProfEffL0pEn => cg g .portLpmCtlL0pEn 0
  | .dieProfEffTwinHot => cg g .xltCtlTwinHot 0
  | .dieProfEffXltPrefetch => cg g .xltCtlXltPrefetch 0
  | .dieProfEffDeepest => min 2 (cg g .pwrLimDeepest 0)
  | .dieProfEffMigEn => cg g .xltCtlMigEn 0
  | .dieProfEffCtPref => b2n (ctPrefAll g i)
  | .mgmtPathStsQueued => min 32 (d.mgmt.held.length + d.mgmt.bg.length)
  | .hlthArbStsRunning => arbRunning d
  | .hlthArbStsWaiting => min 1023 d.hlth.waiting.length
  | .hlthElogStsNext => d.boot.elogAt % 4096
  | .hlthElogStsQueued => d.ev.length
  | .nocRtrStsPwr => max (domPwr d (domRtr (rtrOf i))) (b2n (gated d (120 + rtrOf i)))
  | .nocRtrStsOldCnt =>
    if rd d .nocEpochSwitched 0 = 1 then min 1023 (d.noc.net.filter fun f => f.rtr == rtrOf i && f.epoch == rd d .nocEpochCur 0).length else 0
  | .nocRtV => bits (rtWord d i) 31 1
  | .nocRtOrder => bits (rtWord d i) 30 1
  | .nocRtColDir => bits (rtWord d i) 29 1
  | .nocRtRowDir => bits (rtWord d i) 28 1
  | .nocRtPlane => bits (rtWord d i) 26 2
  | .nocRtColHops => bits (rtWord d i) 23 3
  | .nocRtRowHops => bits (rtWord d i) 21 2
  | .gklCrdHavail => hAvail d (i / 8) (i % 8)
  | .gklCrdDavail => dAvail d (i / 8) (i % 8)
  | .gklEyeHeight => Config.freeNat d.free
  | .gklEyeWidth => Config.freeNat (d.free + 1)
  | .gklLpbkErrCount => aget 0 (gklGet d i).errs (rd d .gklLpbkErrLane i)
  | .cluOccCells => classCells (bufOf d (i / 8)) (i % 8)
  | .cluShrStsFree => sharedFree g i d (bufOf d i)
  | .mirCtlActive => b2n (mirActive g d i)
  | .mirCtlCfgErr => b2n (mirErr g d i)
  | .dirTrkStsRsv => (rsvUsed (dirGet d i)).length
  | .dirTrkStsShr => shrUsed (dirGet d i)
  | .dirTrkStsWb => wbUsed (dirGet d i)
  | .dirOccValid => (dirWays d i).length
  | .dirCoarseEntries => ((dirWays d i).filter fun w => w.crs).length
  | .cohSrCfgMembers => srCount g i
  | .cohSrCfgBlocks => srBlocks g i
  | .xltLdtFirst => ldFirst g i
  | .xltHoldStsHeld => heldCount d i
  | .allocPoolStsZeroing => poolZeroing d i
  | .allocPoolStsFree => poolFree d i
  | .allocGntStsWaiting => d.alloc.queue.length
  | .allocGntStsBusy => (List.range 8).foldl (fun n k => n + b2n (ctxGet d k).busy * 2 ^ k) 0
  | .allocHostStsRemainS => hostRemain g d i
  | .gateGenInstalling => b2n (decide (genOf d i < d.gate.newest))
  | .gateGenGen => genOf d i % 65536
  | .gateSyncInflt => min 4095 (inFlightPkg d (oldestGen d))
  | .gateSyncDoneOldestGen => oldestGen d % 65536
  | .qosPolStsRedMk => b2n (redMarked d i)
  | .qosSliceLvlLevel => if shaped (qCfg g d) i then rd d .qosSliceLvlLevel i else burstBytes (qCfg g d) i
  | .ringEngStsActive => ringsIn d i 1
  | .ringEngStsError => ringsIn d i 2
  | .ringMovStsChRing => min 32 (chRing d i)
  | .ringMovStsChBusy => min 64 (chBusy d i)
  | .ringMirRcfgWord => ringMir d i rcfgWord
  | .ringMirRstsWord => ringMir d i rstsWord
  | .ringMirRidxWord => ringMir d i (fun r => r.ridx)
  | .ringMirHeadWord => ringMir d i (fun r => r.head)
  | .pmcTdInvalid => b2n (tdShares d (i / 12) (i % 12)).isNone
  | .pmcTdDelivered => bits (tdWord d (i / 12) (i % 12)) 21 7
  | .pmcTdWasted => bits (tdWord d (i / 12) (i % 12)) 14 7
  | .pmcTdStarved => bits (tdWord d (i / 12) (i % 12)) 7 7
  | .pmcTdBlocked => bits (tdWord d (i / 12) (i % 12)) 0 7
  | .pmcOvfOvf => ovfWord d (i / 32) (i % 32)
  | .nvmSagStsHeld => min 64 d.boot.nvq.length
  | .monDbgStsFails => monFails d i
  | .monDbgStsRemainS => monRemain d i
  | .monTraceRecWord => traceWord d i
  | f => rd d f i

end Machine
end Sys2Proof
end

