-- ==== Sys2Proof/Machine/Csr.lean ====
section
/-! DEFINITION. Configuration and status registers: the map, reads and writes by access type, high-word latches, the alias and
the debug-unlock registers (R3 to R11, R507 to R509, R522 to R524, R545). -/

namespace Sys2Proof
namespace Machine

/-! ## The register map (R507) -/

/-- One index of a strided register: the index and what is left of the offset. -/
def takeIdx (stride count x : Nat) : Option (Nat × Nat) :=
  if stride = 0 then some (0, x) else if x / stride < count then some (x / stride, x % stride) else none

/-- Where an offset lies in a register: unit, two indices and word. -/
def locate (r : RegRow) (off : Nat) : Option (Nat × Nat × Nat × Nat) :=
  if off < r.off then none
  else
    match takeIdx r.ustride r.ucount (off - r.off) with
    | none => none
    | some (u, x) => match takeIdx r.s1 r.c1 x with
      | none => none
      | some (i, y) => match takeIdx r.s2 r.c2 y with
        | none => none
        | some (j, z) => if z % 4 = 0 ∧ z / 4 < r.words then some (u, i, j, z / 4) else none

/-- A register found: its row, its index within a die, and the word addressed. -/
structure RegAt where
  row  : RegRow
  idx  : Nat
  word : Nat
deriving DecidableEq, Repr

/-- The register at an offset of a die window, if one is there (R8). -/
def regFind (off : Nat) : List RegRow → Option RegAt
  | [] => none
  | r :: t => match locate r off with
    | some (u, i, j, w) => some ⟨r, (u * r.c1 + i) * r.c2 + j, w⟩
    | none => regFind off t

/-- The register at an offset of a die window. -/
def regAt (off : Nat) : Option RegAt := regFind off regTable

/-- How many of a register there are in a die window. -/
def regCount (r : RegRow) : Nat := r.ucount * r.c1 * r.c2

/-- The index of a die's copy of a register. -/
def regIdx (a : RegAt) (die : Nat) : Nat := if a.row.perDie then die * regCount a.row + a.idx else a.idx

/-- The index of a field of a register. -/
def fldIdx (e : FEnt) (k : Nat) : Nat := k * e.mul + e.sub

/-- The fields of PORT.LPCFG. -/
def isLpcfg (f : CFld) : Bool :=
  f == .portLpcfgRole || f == .portLpcfgBind || f == .portLpcfgVcs || f == .portLpcfgAutoBind

/-- A field as it reads; LPCFG of a sub-port that does not exist reads 0 (R52). -/
def fldRead (g : Cfg) (d : Dyn) (e : FEnt) (k : Nat) : Nat :=
  match e.fld with
  | .inl f => if isLpcfg f && !lpExists g (fldIdx e k) then 0 else cg g f (fldIdx e k)
  | .inr f => view g d f (fldIdx e k) % 2 ^ stsWidth f

/-- A register as it reads, all its words. -/
def regVal (g : Cfg) (d : Dyn) (l : List FEnt) (k : Nat) : Nat := l.foldl (fun n e => n + fldRead g d e k * 2 ^ e.lo) 0

/-- A read clears the RC fields of the word read (R3). -/
def rcClear (l : List FEnt) (k w : Nat) (d : Dyn) : Dyn :=
  forAll l (fun e d => match e.fld with
    | .inr f =>
      if stsAcc f = .rc ∧ e.lo / 32 = w then (if f = .gklLpbkErrCount then lpbkClear (fldIdx e k) d else put f (fldIdx e k) 0 d) else d
    | .inl _ => d) d

/-- The word a CSR read returns where there is no access (R6, R11). -/
def csrNone : Nat := 4294967295

/-! ## Reads (R6 to R8, R11, R501, R509, R545) -/

/-- The high-word latch of a path: the register last read low and the high word it then had. -/
def latchOf (d : Dyn) (p : Path) : Option (Nat × Nat) := (d.mgmt.latch.find? fun x => x.1 == p).map Prod.snd

/-- Fill a path's latch. -/
def latchSet (p : Path) (a hi : Nat) (d : Dyn) : Dyn :=
  { d with mgmt := { d.mgmt with latch := (d.mgmt.latch.filter fun x => x.1 != p) ++ [(p, a, hi)] } }

/-- A word of a 64-bit value read by a path: the low word latches the high word; the high word is the latched one when the path's latch was
last filled by the low word of the same value, else the current one (R7). -/
def pairRead (p : Path) (key v : Nat) (hi : Bool) (d : Dyn) : Nat × Dyn :=
  if !hi then (v % 2 ^ 32, latchSet p key (v / 2 ^ 32 % 2 ^ 32) d)
  else match latchOf d p with
    | some (x, h) => if x = key then (h, d) else (v / 2 ^ 32 % 2 ^ 32, d)
    | none => (v / 2 ^ 32 % 2 ^ 32, d)

/-- What a read does beside returning a word: the sample time of a counter, and free values drawn for analogue readings. -/
def readSide (l : List FEnt) (k w : Nat) (d : Dyn) : Dyn :=
  match l.head? with
  | some ⟨.inr .pmcValOvf, _, _, _⟩ => if w = 0 then put .pmcRdTsNs (k / 1024) (dieTs d (k / 1024)) d else d
  | some ⟨.inr .gklEyeLane, _, _, _⟩ => { d with free := d.free + 2 }
  | _ => d

/-- A die's management complex answers: not closed by span closure (R352) and not failed. -/
def mgmtAnswers (d : Dyn) (die : Nat) : Bool := !fenced d (48 + die) && !d.hlth.down.contains die

/-- A read of one register of a die by a path; `peek` leaves RC fields as they are. -/
def regRead (g : Cfg) (p : Path) (peek : Bool) (a : RegAt) (die : Nat) (d : Dyn) : Nat × Dyn :=
  let k := regIdx a die
  let v := regVal g d a.row.flds k
  let key := (if a.row.perDie then die else 0) * 2 ^ 28 + a.row.off + 2 ^ 40 * k
  let d1 := readSide a.row.flds k a.word d
  let d1 := if peek then d1 else rcClear a.row.flds k a.word d1
  if a.row.words = 1 then (v % 2 ^ 32, d1)
  else pairRead p key v (a.word != 0) d1

/-- A CSR read: misaligned or above 0x4FFF_FFFF it returns all ones, an unimplemented offset 0, the alias the lead's copy (R6,
R8, R10, R11, R352, R545). -/
def csrRead (g : Cfg) (p : Path) (peek : Bool) (addr size : Nat) (d : Dyn) : Nat × Dyn :=
  if size ≠ 4 ∨ addr % 4 ≠ 0 ∨ 0x4FFFFFFF < addr then (csrNone, d)
  else
    let die := if 0x40000000 ≤ addr then leadOr0 d else addr / 2 ^ 28
    if !mgmtAnswers d die then (csrNone, doIf (fenced d (48 + die)) (fenceRefuse (svcRouter (2 * leadOr0 d)) (48 + die)) d)
    else match regAt (addr % 2 ^ 28) with
      | none => (0, d)
      | some a => regRead g p peek a die d

/-- Consecutive words read by one command. -/
def csrReads (g : Cfg) (p : Path) (peek : Bool) (addr : Nat) : Nat → Dyn → List Nat × Dyn
  | 0, d => ([], d)
  | n + 1, d =>
    let r := csrRead g p peek addr 4 d
    let t := csrReads g p peek (addr + 4) n r.2
    (r.1 :: t.1, t.2)

/-! ## Keys and signatures (R451, R452) -/

/-- A key slot named by a signature: programmed, not revoked, and holding the hash of the key (R451). -/
def slotGood (set rev : Nat) (hashes : List Nat) (idx hash : Nat) : Bool :=
  decide (idx < 4) && bitAt set idx && !bitAt rev idx && hashes[idx]? == some hash

/-- The Ed25519 half of a signature block verifies. -/
def edGood (d : Dyn) (s : SigBlock) : Bool :=
  slotGood (rd d .secKeyStsEdSet 0) (rd d .secKeyStsEdRev 0) d.boot.otp.edHash s.edIdx s.edHash && s.edOk
/-- The ML-DSA-65 half of a signature block verifies. -/
def mlGood (d : Dyn) (s : SigBlock) : Bool :=
  slotGood (rd d .secKeyStsMlSet 0) (rd d .secKeyStsMlRev 0) d.boot.otp.mlHash s.mlIdx s.mlHash && s.mlOk

/-! ## The debug-unlock registers (R522 to R524) -/

/-- Eight new challenge words for a die (MON.CHAL: random, free values). -/
def newChal (die : Nat) (d : Dyn) : Dyn :=
  forAll (List.range 8) (fun w d => let r := drawWord d; put .monChalChal (die * 8 + w) r.1.toNat r.2) d

/-- A Ranger locks again, event 0x0E04 (R524). -/
def monLock (die : Nat) (d : Dyn) : Dyn :=
  if rd d .monDbgStsUnlocked die = 1 then
    raise 0x0E04 die [die] (put .monDbgStsUnlocked die 0 (put .monDbgStsScTrace die 0 (put .monDbgStsScWrite die 0 d)))
  else d

/-- A word of a die's token window. -/
def winWord (d : Dyn) (die w : Nat) : Nat := aget 0 (aget mon0 d.mon die).win w

/-- A key slot that a signature block names may verify: programmed and not revoked (R451, R452). -/
def keyUsable (set rev idx : Nat) : Bool := decide (idx < 4) && bitAt set idx && !bitAt rev idx

/-- The token in the window unlocks the die, but for the verdict on its keys' hashes and its signatures: its block names key slots that are
programmed and not revoked (R451, R523, Tables 15.6 and 18.6). -/
def tokenGood (d : Dyn) (die : Nat) : Bool :=
  winWord d die 0 == 0x4B4C4E55 && decide (60 ≤ winWord d die 2) && decide (winWord d die 2 ≤ 3600)
    && ((List.range 8).all fun w => winWord d die (4 + w) == rd d .monChalChal (die * 8 + w))
    && keyUsable (rd d .secKeyStsEdSet 0) (rd d .secKeyStsEdRev 0) (bits (winWord d die 12) 0 8)
    && keyUsable (rd d .secKeyStsMlSet 0) (rd d .secKeyStsMlRev 0) (bits (winWord d die 12) 8 8)

/-- A failed check: event 0x0E03, and with the third in 10 minutes LOCKOUT for 10 minutes (R524). -/
def monFail (die : Nat) (d : Dyn) : Dyn :=
  let m := aget mon0 d.mon die
  let l := (m.fails.filter fun t => decide (d.now < t + 600000000000)) ++ [d.now]
  let d := raise 0x0E03 die [die] d
  if 3 ≤ l.length ∧ rd d .monDbgStsLockout die = 0 then
    put .monDbgStsLockout die 1 { d with mon := aset mon0 d.mon die { m with fails := l, outEnd := d.now + 600000000000 } }
  else { d with mon := aset mon0 d.mon die { m with fails := l } }

/-- A write of 1 to DBG_CMD.GO: the token is checked, and a new challenge drawn whatever the outcome (R523, R524). -/
def monGo (die : Nat) (sigs : Bool) (d : Dyn) : Dyn :=
  let d1 :=
    if rd d .monDbgStsLockout die = 0 && tokenGood d die && sigs then
      let sc := winWord d die 1
      let d := put .monDbgStsUnlocked die 1 (put .monDbgStsScWrite die (sc % 2) (put .monDbgStsScTrace die (sc / 2 % 2) d))
      let m := aget mon0 d.mon die
      raise 0x0E02 die [die] { d with mon := aset mon0 d.mon die { m with until0 := d.now + winWord d die 2 * 1000000000 } }
    else monFail die d
  newChal die d1

/-- A write of TRACE_CTL by an unlocked Ranger with SCOPE TRACE arms or stops the trace; arming raises event 0x0E06 (R522). -/
def traceWrite (die : Nat) (arm : Bool) (lp : Nat) (d : Dyn) : Dyn :=
  let d := put .monTraceCtlArmed die (b2n arm) (put .monTraceCtlLport die lp d)
  if arm then
    let m := aget mon0 d.mon die
    raise 0x0E06 die [lp] (put .monTraceCtlFull die 0 (put .monTraceCtlCount die 0 { d with mon := aset mon0 d.mon die { m with trace := [] } }))
  else d

/-- A path may arm the header trace of a die (Table 18.4). -/
def mayTrace (d : Dyn) (p : Path) (die : Nat) : Bool :=
  match p with
  | .ranger k => k.val == die && rd d .monDbgStsUnlocked die == 1 && rd d .monDbgStsScTrace die == 1
  | _ => false

/-! ## Writes (R3 to R6, R8, R11, R508, R545) -/

/-- A write of a register's plain fields: RW fields take the value, RW1C fields clear where it has 1; every other field keeps its
value (R3, R4, R5). -/
def plainWrite (l : List FEnt) (k w v : Nat) (d : Dyn) : Dyn :=
  forAll l (fun e d => match e.fld with
    | .inl _ => d
    | .inr f =>
      if e.lo / 32 ≠ w then d
      else
        let x := bits v (e.lo % 32) (stsWidth f)
        match stsAcc f with
        | .rw => put f (fldIdx e k) x d
        | .rw1c => put f (fldIdx e k) (rd d f (fldIdx e k) - (rd d f (fldIdx e k) &&& x)) d
        | _ => d) d

/-- A write to one register of a die: registers with an effect of their own act, the others take the value. The signatures of a
token checked through this write are free verdicts (assumption 66). -/
def regWrite (g : Cfg) (p : Path) (a : RegAt) (die v : Nat) (d : Dyn) : Dyn :=
  let k := regIdx a die
  let plain := plainWrite a.row.flds k a.word v
  match a.row.flds.head?.map FEnt.fld with
  | some (.inr .gateSyncReq) => if bitAt v 31 then syncStart d else d
  | some (.inr .gateVlogStsLost) => if bitAt v 7 then vlogFree die (bits v 0 7) d else d
  | some (.inr .portContSynCnt) =>
    let d := put .portContCaSel k (bits v 2 1) (put .portContNfTrig k (bits v 1 1) d)
    let d := if bitAt v 7 then dpcTrigRelease k d else d
    if bitAt v 3 then dpc g k 6 false d else d
  | some (.inr .gklPhyCtlEn) =>
    if bitAt v 31 then (if rd d .gklPhyCtlEn k = 0 then phyEnable k d else d)
    else if rd d .gklPhyCtlEn k = 1 then phyDisable k d else d
  | some (.inr .gklSwapCmdGo) => if bitAt v 31 then swapAsk k (bits v 8 4) (bits v 0 4) d else plain d
  | some (.inr .gklLpbkCtlRefused) => lpbkWrite k (bits v 0 2) d
  | some (.inr .slotCmdResult) =>
    if bits v 0 4 = 1 then slotCycle g k d else if bits v 0 4 = 2 then slotClear g k d else d
  | some (.inr .pmcClrAll) => clrWrite die (bitAt v 31) (bits v 0 10) d
  | some (.inr .pmcSlcClrGo) => if bitAt v 31 then slcClear (bits v 0 12) d else d
  | some (.inr .pmcSelEn) => selWrite die a.idx v d
  | some (.inr .mirCtlEn) => setMirror k (bitAt v 31) d
  | some (.inr .monDbgCmdLock) =>
    let d := if bitAt v 1 then monLock die d else d
    if bitAt v 0 then let r := drawNat d; monGo die (r.1 % 2 == 1) r.2 else d
  | some (.inr .monTraceCtlArmed) => if mayTrace d p die then traceWrite die (bitAt v 31) (bits v 16 8) d else d
  | some (.inr .monUnlockWinWord) =>
    let m := aget mon0 d.mon die
    { d with mon := aset mon0 d.mon die { m with win := aset 0 m.win a.idx v } }
  | _ => plain d

/-- A register that is one for the package: written through the alias only; a write through a die window is counted in MISDIRECT
(R508). -/
def csrWrite (g : Cfg) (p : Path) (addr size v : Nat) (d : Dyn) : Dyn :=
  if size ≠ 4 ∨ addr % 4 ≠ 0 ∨ 0x4FFFFFFF < addr then d
  else
    let alias1 := decide (0x40000000 ≤ addr)
    let die := if alias1 then leadOr0 d else addr / 2 ^ 28
    if !mgmtAnswers d die then doIf (fenced d (48 + die)) (fenceRefuse (svcRouter (2 * leadOr0 d)) (48 + die)) d
    else match regAt (addr % 2 ^ 28) with
      | none => d
      | some a =>
        if a.row.perDie then
          if alias1 then forAll ((List.range 4).filter fun k => mgmtAnswers d k) (fun k d => regWrite g p a k v d) d
          else regWrite g p a die v d
        else if alias1 then regWrite g p a die v d
        else bump .mgmtPathStsMisdirect die 1 d

/-- Consecutive words written as one unit (R511). -/
def csrWrites (g : Cfg) (p : Path) : Nat → List Nat → Dyn → Dyn
  | _, [], d => d
  | addr, v :: t, d => csrWrites g p (addr + 4) t (csrWrite g p addr 4 v d)

end Machine
end Sys2Proof
end

