-- ==== Sys2Proof/Machine/Access.lean ====
section
/-! DEFINITION. Single CSR accesses by a management path: what each path may reach, accesses that wait for a handover, and the
commands that read or write one register (R3 to R11, R501, R504, R519). -/

namespace Sys2Proof
namespace Machine

/-- The package is in RECOVERY: only the boot ROM runs (R446, R520). -/
def inRecovery (d : Dyn) : Bool := rd d .secBootStsStage 0 == 15

/-- A path may read CSRs (Tables 18.2 and 18.4): MCTP from MCTP_VCS and I3C while enabled, a Ranger and the ring engine's PERF_READ always, an
FCF mailbox never; in RECOVERY none (R520). -/
def mayRead (g : Cfg) (d : Dyn) (p : Path) : Bool :=
  !inRecovery d && match p with
  | .fcf _ => false
  | .mctp v _ => cg g .mgmtPathCtlMctpEn 0 == 1 && cg g .mgmtPathCtlMctpVcs 0 == v.val
  | .i3c k => cg g .mgmtPathCtlI3cEn k.val == 1
  | .ranger _ | .perf _ => true

/-- An offset is one of the MON unlock registers, UNLOCK_WIN or DBG_CMD (R524). -/
def unlockReg (addr : Nat) : Bool :=
  let off := addr % 2 ^ 28
  off == 0x2400008 || (decide (0x2401000 ≤ off) && decide (off < 0x2403000))

/-- A path may write a CSR (Table 18.4): MCTP from MCTP_VCS and I3C while enabled, a Ranger unlocked with SCOPE WRITE, and any of them the MON
unlock registers; in RECOVERY nothing is written (R520). -/
def mayWrite (g : Cfg) (d : Dyn) (p : Path) (addr : Nat) : Bool :=
  !inRecovery d && match p with
  | .fcf _ | .perf _ => false
  | .mctp v _ => cg g .mgmtPathCtlMctpEn 0 == 1 && cg g .mgmtPathCtlMctpVcs 0 == v.val
  | .i3c k => cg g .mgmtPathCtlI3cEn k.val == 1
  | .ranger k => unlockReg addr || (rd d .monDbgStsUnlocked k == 1 && rd d .monDbgStsScWrite k == 1)

/-- The power domain that holds a per-die register, and its region: a port unit's, a cluster's, a router's, a GnokuLink endpoint's, or one of
the service block of local region 1; none for registers of the management complex, the slices and the always-on block, which are privileged
or never sleep (Table 13.5 code 0x6; DEDUCED, assumption 156). -/
def regDom (die off : Nat) : Option (Nat × Nat) :=
  if !((regAt off).any fun a => a.row.perDie) then none
  else
    let rtr (r : Nat) : Option (Nat × Nat) := some (domRtr r, rtrRegion r)
    if 0x400100 ≤ off ∧ off < 0x400180 then rtr (rtrOf (die * 8 + (off - 0x400100) / 16))
    else if 0x401000 ≤ off ∧ off < 0x403000 then rtr (rtrOf (die * 8 + (off - 0x401000) / 0x400))
    else if 0x500000 ≤ off ∧ off < 0x509000 then
      let r := gklRegion (die * 9 + (off - 0x500000) / 0x1000)
      some (domReg r, r)
    else if 0x800000 ≤ off ∧ off < 0x8C0000 then
      let p := die * 12 + (off - 0x800000) / 0x10000
      some (domPu p, puRegion p)
    else if 0xC00000 ≤ off ∧ off < 0xC60000 then
      let c := die * 6 + (off - 0xC00000) / 0x10000
      some (domClu c, cluRegion c)
    else if 0x1400000 ≤ off ∧ off < 0x2000000 then some (domSvc (2 * die + 1), 2 * die + 1)
    else none

/-- A register's domain sleeps and can be woken: an access to it completes after the wake. Unused port units, domains left off and failed
regions are not woken (R43, R40, R412, Table 13.5 code 0x6). -/
def regAsleep (g : Cfg) (d : Dyn) (addr : Nat) : Option Nat :=
  match regDom (addr / 2 ^ 28) (addr % 2 ^ 28) with
  | none => none
  | some (j, r) =>
    if decide (2 ≤ domPwr d j) && mgmtAnswers d (addr / 2 ^ 28) && !regFail d r
        && ((j :: domAbove j).all fun x => rd d .pwrDomStsFail x == 0)
        && !(decide (j % 23 < 12) && puUnused g d (j / 23 * 12 + j % 23)) then some j else none

/-- An access waits: through the alias during a handover or failover, to the window of a die that reloads firmware, or for its register's
domain to wake (R10, R463, Table 13.5 code 0x6). -/
def accessWaits (g : Cfg) (d : Dyn) (addr : Nat) : Bool :=
  if decide (0x40000000 ≤ addr) then d.mgmt.moving else d.mgmt.reload.contains (addr / 2 ^ 28) || (regAsleep g d addr).isSome

/-- The offsets a command touches, as its first word. -/
def cmdAddr (c : MCmd) : Option Nat :=
  match c with
  | .csrRead a _ _ | .csrWrite a _ | .word a _ _ => some a
  | _ => none

/-- Keep a command in the lead's queue until it can run; the domain of a register it waits for gets a wake (R10, R510, Table 13.5). -/
def holdCmd (g : Cfg) (p : Path) (c : MCmd) (d : Dyn) : Dyn :=
  let d := { d with mgmt := { d.mgmt with held := d.mgmt.held ++ [⟨p, c⟩] } }
  match (cmdAddr c).bind fun a => if a < 0x40000000 then regAsleep g d a else none with
  | some j => emit (.wake (4000 + j)) d
  | none => d

/-- One word read or written now. -/
def wordRun (g : Cfg) (p : Path) (addr size : Nat) (val : Option Nat) (d : Dyn) : Dyn :=
  match val with
  | some v => if mayWrite g d p addr then csrWrite g p addr size v d else d
  | none => if mayRead g d p then let r := csrRead g p false addr size d; emit (.csrData p [r.1]) r.2 else d

/-- One word read or written, held while a handover, a failover or a reload is under way (R10). -/
def wordAccess (g : Cfg) (p : Path) (addr size : Nat) (val : Option Nat) (d : Dyn) : Dyn :=
  if accessWaits g d addr && addr ≤ 0x4FFFFFFF then holdCmd g p (.word addr size val) d else wordRun g p addr size val d

/-- REGISTER_WRITE: a CSR write, applied under its field access types (R3 to R6, R508, R545). -/
def execRegisterWrite (p : Path) (addr size : Nat) (v : Word) (s : State) : Host.Outcome State Fault Refusal :=
  nextDyn s fun g d => wordAccess g p addr size (some v.toNat) d

/-- HIGH_WORD_LATCH_READ: a read of a word of a 64-bit value, through the path's high-word latch (R7, R509). -/
def execHighWordLatchRead (p : Path) (addr size : Nat) (s : State) : Host.Outcome State Fault Refusal :=
  nextDyn s fun g d => wordAccess g p addr size none d

/-- READ_CLEAR: a read of an RC field returns its value and clears it (R3). -/
def execReadClear (p : Path) (addr size : Nat) (s : State) : Host.Outcome State Fault Refusal :=
  nextDyn s fun g d => wordAccess g p addr size none d

/-- ALIAS_ACCESS: the lead serves an access through the global alias; the offset is taken inside it (R10, R545). -/
def execAliasAccess (p : Path) (off size : Nat) (v : Option Word) (s : State) : Host.Outcome State Fault Refusal :=
  nextDyn s fun g d => wordAccess g p (0x40000000 + off % 2 ^ 28) size (v.map fun x => x.toNat) d

/-- COUNTER_SAMPLE: a read of VAL_i's low word samples the counter, latches its high word and sets RD_TS (R501). -/
def execCounterSample (p : Path) (die : Die) (i : Fin 1024) (s : State) : Host.Outcome State Fault Refusal :=
  nextDyn s fun g d => wordAccess g p (die.val * 2 ^ 28 + 0x2104000 + 8 * i.val) 4 none d

/-- TD_READ: a read of PMC.TD_p computes the slot shares (R504). -/
def execTdRead (p : Path) (die : Die) (u : Fin 12) (s : State) : Host.Outcome State Fault Refusal :=
  nextDyn s fun g d => wordAccess g p (die.val * 2 ^ 28 + 0x2100100 + 4 * u.val) 4 none d

end Machine
end Sys2Proof
end

