-- ==== Sys2Proof/Machine/Lead.lean ====
section
/-! DEFINITION. Leadership of the dies: healthy dies, lead and standby, takeover, the failure of a region, the flash source and
records on their way to flash (R26 to R28, R40, R218 to R220, R447 to R449, R488 to R491). -/

namespace Sys2Proof
namespace Machine

/-! ## Healthy dies and the flash source -/

/-- A die is healthy: its management complex works, its lead functions are not withdrawn, neither region has failed (R27,
R488). -/
def dieHealthy (d : Dyn) (k : Nat) : Bool :=
  !d.hlth.down.contains k && !d.hlth.withdrawn.contains k && !regFail d (2 * k) && !regFail d (2 * k + 1)

/-- The first healthy die after a die, in ring order (R27). -/
def nextHealthy (d : Dyn) (k : Nat) : Option Nat :=
  ((List.range 3).map fun i => (k + 1 + i) % 4).find? fun j => dieHealthy d j

/-- The flash source: the lowest die whose flash passed and whose local region 0 has not failed (R448). -/
def flashSource (d : Dyn) : Option Nat := firstFrom (fun k => rd d .nvmFlashStsPass k == 1 && !regFail d (2 * k)) 0 4

/-- The flashes that are written: every one that passed, on a die whose local region 0 has not failed (R447). -/
def flashWritten (d : Dyn) : List Nat := (List.range 4).filter fun k => rd d .nvmFlashStsPass k == 1 && !regFail d (2 * k)

/-! ## Records on their way to flash (R447 to R449, R466) -/

/-- Writes to flash are withheld: supply sag, or no flash to write (R448, R466). -/
def nvHeld (d : Dyn) : Bool := rd d .nvmSagStsSag 0 == 1 || (flashSource d).isNone

/-- The program of the first record that waits begins, when writes are not withheld (R449, R466). -/
def nvBegin (d : Dyn) : Dyn := { d with boot := { d.boot with nvBegun := !nvHeld d && !d.boot.nvq.isEmpty } }

/-- A record is put behind those that wait. Under supply sag, and without flash, AON SRAM holds 64 records; event records beyond
are dropped with event 0x0B0E and counted (Table 15.10). -/
def nvPut (r : NvRec) (d : Dyn) : Dyn :=
  let held := nvHeld d
  let isEv := match r with
    | .ev _ => true
    | _ => false
  if held && isEv && decide (64 ≤ d.boot.nvq.length) then
    raise 0x0B0E (leadOr0 d) [] (bump .nvmSagStsDropped 0 1 d)
  else
    let d := ungate (184 + leadOr0 d) { d with boot := { d.boot with nvq := d.boot.nvq ++ [r] } }
    if d.boot.nvBegun then d else nvBegin d

/-! ## Lead and standby (R27, R28, R218 to R220) -/

/-- Journal records that no standby will acknowledge any more take effect: the copy of the whole state covers them (R220). -/
def journalFlush (g : Cfg) (d : Dyn) : Dyn :=
  journalDrop g (fun w => decide (w < 4)) d

/-- The standby of a lead is chosen: a whole-state copy to it starts, or without one the allocator runs unmirrored with event
0x040A (R27, R220). -/
def setStandby (g : Cfg) (lead : Nat) (d : Dyn) : Dyn :=
  let d := forAll (List.range 4) (fun k d => put .dieDieIdStandby k 0 d) d
  let d := put .allocMirStsMirrored 0 0 (put .allocMirStsSyncing 0 0 d)
  match nextHealthy d lead with
  | some k => journalFlush g (put .allocMirStsSyncing 0 1 (put .allocMirStsStbyDie 0 k (put .dieDieIdStandby k 1 d)))
  | none => raise 0x040A lead [] (journalFlush g (put .allocMirStsStbyDie 0 0 d))

/-- The LEAD bits name one die (R26). -/
def setLead (k : Nat) (d : Dyn) : Dyn := forAll (List.range 4) (fun j d => put .dieDieIdLead j (b2n (j == k)) d) d

/-- Contexts that had not reached step 7 run again from step 4 (R219). -/
def ctxsRerun (d : Dyn) : Dyn :=
  forAll (List.range 9) (fun k d =>
    let c := ctxGet d k
    if c.busy ∧ (c.step = 4 ∨ c.step = 6) then ctxWrite k (ctxForget k d) else d) d

/-- Amendments not yet committed are lost with the lead, without a result; a committed one is applied by the new lead (R459). -/
def amdsLost (d : Dyn) : Dyn :=
  let lost := (d.boot.amdq ++ d.boot.amd.toList).filter fun r => r.phase != 3
  let kept := d.boot.amd.filter fun r => r.phase == 3
  let nvq := if kept.isNone then d.boot.nvq.filter (fun r => match r with
    | .log (.amd _) => false
    | _ => true) else d.boot.nvq
  let busy := lost.filterMap fun r => match r.src with
    | .path p => some p
    | .ring _ _ => none
  let d := { d with boot := { d.boot with amdq := [], amd := kept, nvq := nvq },
                    mgmt := { d.mgmt with bg := d.mgmt.bg.filter fun p => !busy.contains p } }
  let d := if kept.isNone then put .secAmdStsBusy 0 0 d else d
  forAll (lost.filter fun r => r.phase == 1 || r.phase == 2) (fun r d => arbFree r.act d) d

/-- A reconfiguration not yet at T is loaded again by the new lead under the same grant (R355). -/
def reconfAgain (d : Dyn) : Dyn :=
  if rd d .nocEpochBusy 0 = 1 ∧ rd d .nocEpochSwitched 0 = 0 then { d with noc := { d.noc with loadAt := d.now, swAt := none } } else d

/-- The lead's functions pass to a die by failover (Table 16.8): event 0x0C09, the LEAD bit, the allocator with event 0x040B, the
reconfiguration and the amendment in hand, the new standby. When lead and standby failed together the state is rebuilt, event
0x0C0A (R490). -/
def takeOver (g : Cfg) (old new : Nat) (rebuilt : Bool) (d : Dyn) : Dyn :=
  let d := raise 0x0C09 new [old, new] d
  let d := put .hlthFoStsTo 0 new (put .hlthFoStsFrom 0 old (put .hlthFoStsCount 0 (rd d .hlthFoStsCount 0 + 1) d))
  let d := setLead new (put .hlthFoNsNs 0 (dieTs d new) d)
  let d := { d with mgmt := { d.mgmt with moving := false }, hlth := { d.hlth with hbLead := d.now, hbWord := d.now, hbAns := d.now } }
  let d := if rebuilt then raise 0x0C0A new [] { d with alloc := { d.alloc with rebuild := true } } else raise 0x040B new [] d
  let d := ctxsRerun d
  setStandby g new (amdsLost (reconfAgain d))

/-- A die stops serving: as the lead it is taken over by the standby, or with the standby gone too by the next healthy die; as
the standby it is replaced (R27, R40, R489, R490). -/
def dieGone (g : Cfg) (k : Nat) (d : Dyn) : Dyn :=
  if leadDie d = some k then
    match standbyDie d with
    | some s =>
      if dieHealthy d s then takeOver g k s false d
      else match nextHealthy d k with
        | some n => takeOver g k n true d
        | none => d
    | none => match nextHealthy d k with
      | some n => takeOver g k n true d
      | none => d
  else if standbyDie d = some k then match leadDie d with
    | some l => setStandby g l d
    | none => d
  else d

/-- A region has failed: FAIL, its downstream ports contained, its upstream ports down, its links lost, its endpoints fenced, its
functions taken over, and the flash source moved on (R40, R356, R357, R448). -/
def regionFailed (g : Cfg) (r : Nat) (d : Dyn) : Dyn :=
  if regFail d r then d
  else
    let src := flashSource d
    let die := r / 2
    let d := if r % 2 = 0 then put .dieRclkStsR0Fail die 1 d else put .dieRclkStsR1Fail die 1 d
    let lps := (List.range 192).filter fun lp => puRegion (lpPu lp) == r
    let d := forAll lps (fun lp d => if isDown g d lp then dpc g lp 1 false d else upLost g lp d) d
    let d := fenceRegion r (loseRegion r d)
    let d := if r % 2 = 0 then { d with hlth := { d.hlth with down := (d.hlth.down.filter fun k => k != die) ++ [die] } } else d
    let d := dieGone g die d
    if src.isSome && (flashSource d).isNone then raise 0x0B11 (leadOr0 d) [] d else d

end Machine
end Sys2Proof
end

