-- ==== Sys2Proof/Machine/Apply.lean ====
section
/-! DEFINITION. Register records: writing configuration words at start and by amendment, and what start makes of the values (R4,
R42, R46, R47, R52 to R58, R103, R132, R227, R439, R453, R457, R508, R545). -/

namespace Sys2Proof
namespace Machine

/-! ## One word of a record (R4, R453, R457) -/

/-- Width of a field. -/
def entWidth (e : FEnt) : Nat :=
  match e.fld with
  | .inl f => cfgWidth f
  | .inr f => stsWidth f

/-- Access type of a field. -/
def entAcc (e : FEnt) : Acc :=
  match e.fld with
  | .inl f => cfgAcc f
  | .inr f => stsAcc f

/-- A field as stored. -/
def entVal (g : Cfg) (d : Dyn) (e : FEnt) (k : Nat) : Nat :=
  match e.fld with
  | .inl f => cg g f (fldIdx e k)
  | .inr f => rd d f (fldIdx e k)

/-- A field lies in word `w` of its register, wholly or in part. -/
def entIn (e : FEnt) (w : Nat) : Bool := decide (e.lo < 32 * w + 32) && decide (32 * w < e.lo + entWidth e)

/-- A field's value once word `w` of its register is written with `v`. -/
def mixWord (x lo width w v : Nat) : Nat :=
  let r := x * 2 ^ lo
  bits (r - bits r (32 * w) 32 * 2 ^ (32 * w) + v * 2 ^ (32 * w)) lo width

/-- A record's word acts on a field: RWL fields from the image alone, RWA and RW fields also from an amendment (R4, R457). -/
def recTakes (start : Bool) (a : Acc) : Bool :=
  match a with
  | .rwl => start
  | .rwa | .rw => true
  | _ => false

/-- RW fields that a write acts on in its own way (`recHook`), or that a record cannot write. -/
def recOwn : SFld → Bool
  | .gateVlogStsCountAdv | .monTraceCtlArmed | .monTraceCtlLport | .pmcSelEn | .pmcSelQual | .pmcSelEvent | .pmcSelThr
  | .mirCtlEn | .gklPhyCtlEn | .gklLpbkCtlMode => true
  | _ => false

/-- One field of a word written by a record. -/
def recFld (start : Bool) (k w v : Nat) (e : FEnt) (s : Cfg × Dyn) : Cfg × Dyn :=
  if !entIn e w || !recTakes start (entAcc e) then s
  else
    let x := mixWord (entVal s.1 s.2 e k) e.lo (entWidth e) w v
    match e.fld with
    | .inl f => (cput f (fldIdx e k) x s.1, s.2)
    | .inr f => if recOwn f then s else (s.1, put f (fldIdx e k) x s.2)

/-- RW fields with an effect of their own, as their register's write has it. GnokuLink endpoints that the image enables start at
step 9 of Table 15.1. -/
def recHook (start : Bool) (a : RegAt) (die v : Nat) (d : Dyn) : Dyn :=
  let k := regIdx a die
  match a.row.flds.head?.map FEnt.fld with
  | some (.inr .pmcSelEn) => selWrite die a.idx v d
  | some (.inr .mirCtlEn) => setMirror k (bitAt v 31) d
  | some (.inr .gklLpbkCtlRefused) => lpbkWrite k (bits v 0 2) d
  | some (.inr .gklPhyCtlEn) =>
    if start then put .gklPhyCtlEn k (bits v 31 1) d
    else if bitAt v 31 then (if rd d .gklPhyCtlEn k = 0 then phyEnable k d else d)
    else if rd d .gklPhyCtlEn k = 1 then phyDisable k d else d
  | _ => d

/-- One word of a register on one die. -/
def recReg (start : Bool) (a : RegAt) (v die : Nat) (s : Cfg × Dyn) : Cfg × Dyn :=
  let s := forAll a.row.flds (recFld start (regIdx a die) a.word v) s
  (s.1, recHook start a die v s.2)

/-- The dies a record's word reaches: the die of its window, every die by the alias; a package-wide register is written through the
alias alone (R453, R508, R545). -/
def recDies (a : RegAt) (addr : Nat) : List Nat :=
  if 0x40000000 ≤ addr then (if a.row.perDie then [0, 1, 2, 3] else [0])
  else if a.row.perDie then [addr / 2 ^ 28] else []

/-- One word of a record. -/
def recWord (start : Bool) (addr v : Nat) (s : Cfg × Dyn) : Cfg × Dyn :=
  match regAt (addr % 2 ^ 28) with
  | none => s
  | some a => forAll (recDies a addr) (recReg start a v) s

/-- An offset that a record may reach. -/
def recKnown (addr : Nat) : Bool := decide (addr ≤ 0x4FFFFFFF) && (regAt (addr % 2 ^ 28)).isSome

/-- The words of a record with their offsets. -/
def recWords (r : RegRec) : List (Nat × Nat) := r.words.zipIdx.map fun x => (r.off + 4 * x.2, x.1.toNat)

/-- A record that is applied: 1 to 65,536 words, none at an offset that is unimplemented or above 0x4FFF_FFFF (R453). -/
def recGood (r : RegRec) : Bool :=
  decide (1 ≤ r.words.length) && decide (r.words.length ≤ 65536) && (recWords r).all fun x => recKnown x.1

/-- Apply the records in order; later writes win (R453). -/
def recsApply (start : Bool) (l : List RegRec) (s : Cfg × Dyn) : Cfg × Dyn :=
  forAll (l.filter recGood) (fun r s => forAll (recWords r) (fun x s => recWord start x.1 x.2 s) s) s

/-- Records skipped are counted, event 0x0B10 once (R453). -/
def recsTell (l : List RegRec) (d : Dyn) : Dyn :=
  let n := (l.filter fun r => !recGood r).length
  if n = 0 then d else raise 0x0B10 (leadOr0 d) [n] d

/-- Every word leaves each RWL field at its current value (check 6 of Table 15.9). -/
def recsKeepRwl (g : Cfg) (d : Dyn) (l : List RegRec) : Bool :=
  (l.filter recGood).all fun r => (recWords r).all fun x =>
    match regAt (x.1 % 2 ^ 28) with
    | none => true
    | some a => (recDies a x.1).all fun die => a.row.flds.all fun e =>
      let k := regIdx a die
      !(entIn e a.word && entAcc e == .rwl)
        || mixWord (entVal g d e k) e.lo (entWidth e) a.word x.2 == entVal g d e k

/-! ## Which configuration an amendment changed -/

/-- The keys of configuration fields whose value differs. -/
def changedKeys (old new : Cfg) : List Nat :=
  ((old.cells ++ new.cells).map Prod.fst).filter fun k => cellsFind k old.cells != cellsFind k new.cells

/-- A field of a run of fields of `CFld`. -/
def keyBetween (a b : CFld) (k : Nat) : Bool := decide (a.ctorIdx ≤ k % 1024) && decide (k % 1024 ≤ b.ctorIdx)

/-- Records write gate rules or DFLT bits (R273, R279). -/
def writesGate (l : List RegRec) : Bool :=
  (l.filter recGood).any fun r => (recWords r).any fun x =>
    match regAt (x.1 % 2 ^ 28) with
    | none => false
    | some a => !(recDies a x.1).isEmpty && a.row.flds.any fun e => match e.fld with
      | .inl f => decide (CFld.gateCtlDfltHost.ctorIdx ≤ f.ctorIdx) && decide (f.ctorIdx ≤ CFld.gateRuleTgtTgt.ctorIdx)
      | .inr _ => false

/-! ## The profile (R42, R46, R47, Table 1.8) -/

/-- The defaults a profile sets: 0 VIADUCT, 1 FOOTBRIDGE, 2 UNDERSTORY. -/
def profileDefaults (p : Nat) (g : Cfg) : Cfg :=
  let pick (v f u : Nat) : Nat := if p = 1 then f else if p = 2 then u else v
  let g := forAll (List.range 24) (fun c g => cput .cluFwdCtlCtPref c (pick 0 1 0) g) g
  let g := cput .xltCtlMigRate 0 (pick 100 0 10) (cput .xltCtlMigEn 0 (pick 1 0 1) g)
  let g := cput .xltCtlTwinHot 0 (pick 1 0 1) (cput .xltCtlXltPrefetch 0 (pick 1 1 0) g)
  let g := cput .pwrLimDpIdle 0 (pick 1 0 1) (cput .pwrLimDeepest 0 (pick 1 0 2) g)
  let g := cput .portLpmCtlL1En 0 (pick 1 0 1) (cput .portLpmCtlL0pEn 0 (pick 0 0 1) g)
  cput .hlthCtlReeqPause 0 (pick 1 0 1) g

/-- The records write 0b11 to PROFILE, in any window and whatever a later one writes (R46). -/
def badProfile (l : List RegRec) : Bool :=
  (l.filter recGood).any fun r => (recWords r).any fun x => x.1 % 2 ^ 28 == 0x40 && x.2 % 4 == 3

/-- The profile is the same on every die; 0b11 is stored as VIADUCT, and BAD_SEL says that the image wrote it (R46, R47). -/
def profileStore (p : Nat) (bad : Bool) (s : Cfg × Dyn) : Cfg × Dyn :=
  (forAll (List.range 4) (fun k g => cput .dieProfCtlProfile k (if p = 3 then 0 else p) g) s.1,
   forAll (List.range 4) (fun k d => put .dieProfCtlBadSel k (b2n bad) d) s.2)

/-! ## What start makes of the values -/

/-- Reserved BIF, ROLE and BIND values, and a VCS number that a lower port has, leave a port UNUSED with CFG_BAD and event 0x010A
(R56, R57). -/
def portsCheck (g : Cfg) (d : Dyn) : Dyn :=
  let bad (lp : Nat) (d : Dyn) : Dyn := raise 0x010A (lpDie lp) [lp] (put .portLstsCfgBad lp 1 d)
  let d := forAll (List.range 192) (fun lp d =>
    if cg g .portPcfgBif (lpPu lp) = 3 then bad lp d
    else if !lpExists g lp then d
    else if cg g .portLpcfgRole lp = 3 ∨ (cg g .portLpcfgRole lp = 2 ∧ lpBind g lp = 3) then bad lp d else d) d
  let d := forAll (List.range 192) (fun lp d =>
    if isUp g d lp && (List.range lp).any fun q => isUp g d q && cg g .portLpcfgVcs q == cg g .portLpcfgVcs lp
    then bad lp d else d) d
  let ups := (List.range 192).filter fun lp => isUp g d lp
  { d with port := { d.port with vcs := ups.map fun lp => cg g .portLpcfgVcs lp,
                                 vcsPort := ups.foldl (fun a lp => aset 0 a (cg g .portLpcfgVcs lp) (lp + 1)) arrEmpty } }

/-- Floors of the class minimums (Table 3.1). -/
def cminFloor (q : Nat) : Nat :=
  match q with
  | 0 => 1 | 1 => 64 | 2 => 1 | 3 => 34 | 4 => 64 | 7 => 1 | _ => 0

/-- Store the minimum of a class. -/
def cminPut (cl q v : Nat) (g : Cfg) : Cfg :=
  if q % 2 = 0 then cput .cluCminCminLo (cl * 4 + q / 2) v g else cput .cluCminCminHi (cl * 4 + q / 2) v g

/-- Class minimums are raised to their floors, or all put at their defaults when they sum above 14,336; CFG_BAD; POOL (R103). -/
def cminCheck (cl : Nat) (s : Cfg × Dyn) : Cfg × Dyn :=
  let qs := List.range 8
  let want (q : Nat) : Nat := max (cminFloor q) (classMin s.1 cl q)
  let sum := qs.foldl (fun n q => n + want q) 0
  let used (q : Nat) : Nat := if 14336 < sum then cminReset q else want q
  let bad := decide (14336 < sum) || qs.any fun q => decide (classMin s.1 cl q < cminFloor q)
  let pool := 16384 - qs.foldl (fun n q => n + used q) 0
  (forAll qs (fun q g => cminPut cl q (used q) g) s.1,
   put .cluFwdCtlCfgBad cl (b2n bad) (put .cluShrCtlPool cl pool s.2))

/-- PAGES of the LDs above `n` are emptied from the highest on until the sum of all fits 2^28 (R132). -/
def ldEmpty : Nat → Cfg × Dyn → Cfg × Dyn
  | 0, s => s
  | n + 1, s =>
    let sum := (List.range 128).foldl (fun m k => m + ldPages s.1 k) 0
    if sum ≤ 2 ^ 28 then s
    else if ldPages s.1 n = 0 then ldEmpty n s
    else ldEmpty n (cput .xltLdtPages n 0 s.1, raise 0x030B (leadOr0 s.2) [n] s.2)

/-- PAGES above 2^27 are reduced, then LDs emptied; event 0x030B for each (R132). -/
def ldCheck (s : Cfg × Dyn) : Cfg × Dyn :=
  ldEmpty 128 (forAll (List.range 128) (fun n s =>
    if 2 ^ 27 < ldPages s.1 n then (cput .xltLdtPages n (2 ^ 27) s.1, raise 0x030B (leadOr0 s.2) [n] s.2) else s) s)

/-- A shared region is rejected (R227). -/
def srBad (g : Cfg) (d : Dyn) (i : Nat) : Bool :=
  let ms := srMembers g i
  let key (m : Nat × Nat) : Nat := m.1 * 8 + m.2
  let pages := ms.map fun m => cg g .allocRgnPages (key m)
  ms.any (fun m => cg g .allocRpolDefined (key m) == 0 || cg g .allocRpolShared (key m) == 0)
    || pages.any (fun p => p != pages.headD 0 || decide (524288 < p))
    || (List.range 128).any (fun n => decide (2 ≤ (ms.filter fun m => m.1 == n).length))
    || !(cg g .cohSrCfgHomePkg i == ownPkg d || bitAt (members g) (cg g .cohSrCfgHomePkg i))

/-- Shared regions are checked, event 0x0205 for each rejected one and for each region with SHARED = 1 that no shared region names
(R227). -/
def srCheck (g : Cfg) (d : Dyn) : Dyn :=
  let d := forAll (List.range 64) (fun i d =>
    if cg g .cohSrCfgV i = 1 && srBad g d i then raise 0x0205 (leadOr0 d) [i] (put .cohSrCfgCfgBad i 1 d) else d) d
  forAll (List.range 1024) (fun k d =>
    let named := match srOf g (k / 8) (k % 8) with
      | some i => cg g .cohSrCfgV i == 1
      | none => false
    if cg g .allocRpolShared k = 1 ∧ !named then raise 0x0205 (leadOr0 d) [k / 8, k % 8] d else d) d

/-- Twin regions that prefer tier 0 are placed single while TWIN_HOT = 0, reported once at start (Table 1.8, event 0x0306). -/
def twinHotTell (g : Cfg) (d : Dyn) : Dyn :=
  if cg g .xltCtlTwinHot 0 = 1 then d
  else forAll (List.range 1024) (fun k d =>
    if cg g .allocRpolDefined k = 1 ∧ cg g .allocRpolTwin k = 1 ∧ cg g .allocRpolTierPref k = 0
    then raise 0x0306 (leadOr0 d) [k / 8, k % 8] d else d) d

/-- The register records of an image at start: the profile's defaults first, the records over them, then every check that start makes
(step 6 of Table 15.1); rules of generation 0 that never match are counted, event 0x0506 (R263). -/
def recsStart (l : List RegRec) (s : Cfg × Dyn) : Cfg × Dyn :=
  let p := cg (recsApply true l s).1 .dieProfCtlProfile (leadOr0 s.2)
  let s1 := profileStore p (badProfile l) (recsApply true l (profileDefaults p s.1, s.2))
  let s1 := (s1.1, portsCheck s1.1 (recsTell l s1.2))
  let s1 := ldCheck (forAll (List.range 24) cminCheck s1)
  let g := s1.1
  let d := sysStart g (twinHotTell g (srCheck g s1.2))
  let d := forAll (List.range 48) (fun n d => put .slotCtlCfgBad n (b2n (slotBad g n && slotEn g n)) d) d
  let d := qosMarkBad g { d with qos := { d.qos with old := some s.1, lastUs := d.now / 1000 } }
  let d := forAll (List.range 4) (fun k d => put .gateGenBadRules k (badRules g) d) d
  (g, if badRules g = 0 then d else raise 0x0506 (leadOr0 d) [0] d)

end Machine
end Sys2Proof
end

