-- ==== Sys2Proof/Machine/Amend.lean ====
section
/-! DEFINITION. Amendments: checks, refusal, the log in flash, and their effect on configuration, bindings and the pool (R217,
R222 to R224, R273, R279, R308, R438, R447 to R461). -/

namespace Sys2Proof
namespace Machine

/-! ## The amendment log in flash (R447, R449, Table 15.3) -/

/-- Bytes of a record in the log: the frame, the payload rounded up to 4 bytes and the commit word. Payloads of BASE and VOID are not
stated; they count 52 and 4 bytes here (assumption 67). -/
def logBytes (b : LogBody) : Nat :=
  20 + match b with
  | .base _ _ => 52
  | .amd a => (a.size + 3) / 4 * 4
  | .void _ => 4

/-- The log as the flash source holds it. -/
def logOf (d : Dyn) : List LogRec :=
  match flashSource d with
  | some k => ((d.boot.flash[k]?).map FlashIn.log).getD []
  | none => []

/-- A record names a base: it opens the log of an image. -/
def isBase (b : LogBody) : Bool :=
  match b with
  | .base _ _ => true
  | _ => false

/-- The committed records after the last BASE record (R449, R461). -/
def logTail (l : List LogRec) : List LogBody :=
  l.foldl (fun acc r => if r.torn then acc else if isBase r.body then [] else acc ++ [r.body]) []

/-- The last committed BASE record: the slot it names. -/
def logBase (l : List LogRec) : Option Bool :=
  l.foldl (fun acc r => match r.body with
    | .base s _ => if r.torn then acc else some s
    | _ => acc) none

/-- Bytes of the log after its last BASE record. -/
def logUsed (d : Dyn) : Nat := (logTail (logOf d)).foldl (fun n b => n + logBytes b) 0

/-- Append a record to the log of every flash that is written (R447); LOG_USE follows. -/
def logAppend (b : LogBody) (d : Dyn) : Dyn :=
  let ks := flashWritten d
  let fl := d.boot.flash.zipIdx.map fun x => if ks.contains x.2 then { x.1 with log := x.1.log ++ [⟨false, b⟩] } else x.1
  let d := { d with boot := { d.boot with flash := fl, nseq := d.boot.nseq + 1 } }
  put .secAmdStsLogUse 0 (min 100 (logUsed d * 100 / 8388608)) d

/-! ## Checks 1 to 10 (Table 15.9) -/

/-- No two sections overlap. -/
def sectsApart (l : List Sect) : Bool :=
  l.zipIdx.all fun x => l.zipIdx.all fun y =>
    x.2 == y.2 || decide (x.1.off + x.1.len ≤ y.1.off) || decide (y.1.off + y.1.len ≤ x.1.off)

/-- A section type appears. -/
def hasSect (l : List Sect) (t : Nat) : Bool := l.any fun s => s.ty == t

/-- A section type appears at most once. -/
def sectOnce (l : List Sect) (t : Nat) : Bool := decide ((l.filter fun s => s.ty == t).length ≤ 1)

/-- Check 1: layout of Table 15.8 and R455. -/
def amdFormat (a : Amendment) : Bool :=
  decide (a.size ≤ 1048576) && a.magic == 0x444E4D41 && decide (1 ≤ a.seq) && decide (a.seq < 2 ^ 24)
    && decide (1 ≤ a.nsect) && decide (a.nsect ≤ 8) && a.sects.length == a.nsect
    && a.sects.all (fun s => decide (s.off + s.len ≤ a.bodyLen) && [1, 2, 6, 7, 8].contains s.ty && sectOnce a.sects s.ty)
    && sectsApart a.sects && a.resv0
    && (!hasSect a.sects 6 || (a.revoke.length == 1 && a.revoke.all fun w => w.toNat / 65536 == 0))
    && (!hasSect a.sects 7 || (decide (1 ≤ a.drain.length) && decide (a.drain.length ≤ 128) && a.drain.all fun w => w.toNat / 128 == 0))
    && (!hasSect a.sects 8 || (a.svnRaise.length == 1 && a.svnRaise.all fun w => w.toNat / 256 == 0))

/-- The register records of an amendment. -/
def amdRegs (a : Amendment) : List RegRec := if hasSect a.sects 1 then a.regs else []
/-- The policy entries of an amendment. -/
def amdPol (a : Amendment) : Policy := if hasSect a.sects 2 then a.policy else ⟨[], []⟩
/-- The devices an amendment drains. -/
def amdDrain (a : Amendment) : List Nat := if hasSect a.sects 7 then a.drain.map BitVec.toNat else []
/-- The key slot an amendment revokes: algorithm and slot. -/
def amdRevoke (a : Amendment) : Option (Nat × Nat) :=
  if hasSect a.sects 6 then a.revoke.head?.map fun w => (bits w.toNat 0 8, bits w.toNat 8 8) else none
/-- The SVN_MIN an amendment sets. -/
def amdSvn (a : Amendment) : Option Nat := if hasSect a.sects 8 then a.svnRaise.head?.map BitVec.toNat else none

/-- BASE names the running image: the first 16 bytes of its digest (check 2). -/
def amdBase (d : Dyn) (a : Amendment) : Bool :=
  match d.boot.image with
  | some m => a.base == m.digest % 2 ^ 128
  | none => false

/-- Pages in use on some devices. -/
def pagesOn (d : Dyn) (devs : List Nat) : Nat :=
  (d.xlt.pt.cells.filter fun c => c.2.state != 0 && !c.2.poison && devs.contains c.2.dev).length
    + (d.xlt.tw.cells.filter fun c => c.2.v && devs.contains c.2.dev).length

/-- Free pages of the devices that give pages, outside some. -/
def pagesFreeOff (d : Dyn) (devs : List Nat) : Nat :=
  ((tierDevs d 0 ++ tierDevs d 1).filter fun b => !devs.contains b).foldl (fun n b =>
    n + (devBlks d b).foldl (fun m x => m + freePgs x.2) 0) 0

/-- Check 8: every device drained is usable and holds no placement copy, and the others can take its pages (R217, R455). -/
def drainOk (d : Dyn) (l : List Nat) : Bool :=
  l.all (fun b => devOk d b && !(decide (0 < rd d .xltPtLocBlocks 0) && b == rd d .xltPtLocPrimDev 0)
      && !(rd d .xltPtLocCopyV 0 == 1 && b == rd d .xltPtLocCopyDev 0))
    && decide (pagesOn d l ≤ pagesFreeOff d l)

/-- A binding entry of a policy table: logical port, LD-ID, target. -/
def bindEnt (w : Word) : Nat × Nat × Nat := (bits w.toNat 24 8, bits w.toNat 16 8, bits w.toNat 8 8)

/-- The entries of a table, those repeated by a later one left out (R454). -/
def bindEnts (l : List Word) : List (Nat × Nat × Nat) :=
  (l.map bindEnt).zipIdx.filterMap fun x =>
    if (l.map bindEnt).zipIdx.any (fun y => decide (x.2 < y.2) && y.1.1 == x.1.1 && y.1.2.1 == x.1.2.1) then none else some x.1

/-- A backend device of a logical port and LD that is in the pool. -/
def poolDev (d : Dyn) (lp ld : Nat) : Option Nat :=
  match devAt d lp ld with
  | some b => if d.alloc.joined.contains b && rd d .xltBedevLost b == 0 then some b else none
  | none => none

/-- The bindings that entries would leave, applied in order: an LD's old entry goes, a new one needs a VCS that a port leads and one of its 31
vPPBs; none where one is refused (R61, R62, R224). -/
def bindsFit (d : Dyn) : List (Nat × Nat × Nat) → List (Nat × Nat × Nat) → Bool
  | [], _ => true
  | e :: t, l =>
    let rest := l.filter fun b => !(b.1 == e.1 && b.2.1 == e.2.1)
    if 128 ≤ e.2.2 then bindsFit d t rest
    else d.port.vcs.contains e.2.2 && decide ((rest.filter fun b => b.2.2 == e.2.2).length < 31) && bindsFit d t (rest ++ [e])

/-- Every entry finds its VCS and a vPPB there when it takes effect, those of devices that drain last (R61, R62, R224). -/
def bindsRoom (d : Dyn) (l : List Word) (drain : List Nat) : Bool :=
  let es := bindEnts l
  let late (e : Nat × Nat × Nat) : Bool := match poolDev d e.1 e.2.1 with
    | some b => drain.contains b
    | none => false
  bindsFit d ((es.filter fun e => !late e) ++ es.filter late) (d.alloc.bnds.map fun b => (b.lport, b.ldId, b.vcs))

/-- Check 9: every entry names a DOWNSTREAM port and a VCS that a port leads or the pool or nothing; no VCS is asked for more vPPBs
than it has free; a device leaves the pool only with its drain (R61, R62, R224). -/
def bindsOk (g : Cfg) (d : Dyn) (l : List Word) (drain : List Nat) : Bool :=
  bindsRoom d l drain && (bindEnts l).all fun e =>
    decide (e.1 < 192) && isDown g d e.1 && (decide (e.2.2 < 128) || decide (254 ≤ e.2.2))
      && (e.2.2 == 254 || match poolDev d e.1 e.2.1 with
        | some b => drain.contains b
        | none => true)

/-- Slots of a key algorithm that stay usable after a revocation (R452). -/
def keysLeft (set rev : Nat) (gone : Nat) : Bool := (List.range 4).any fun k => bitAt set k && !bitAt rev k && k != gone

/-- Check 10: a slot is revoked by keys of other slots, leaving one of its algorithm; SVN_MIN rises to no more than the running
image's SVN (R452, R455). -/
def keysOk (d : Dyn) (a : Amendment) : Bool :=
  (match amdRevoke a with
    | none => true
    | some (alg, k) =>
      decide (k < 4) &&
      if alg = 1 then a.sig.edIdx != k && keysLeft (rd d .secKeyStsEdSet 0) (rd d .secKeyStsEdRev 0) k
      else if alg = 2 then a.sig.mlIdx != k && keysLeft (rd d .secKeyStsMlSet 0) (rd d .secKeyStsMlRev 0) k
      else false)
    && match amdSvn a with
    | none => true
    | some v => decide (rd d .secKeyStsSvnMin 0 < v) && decide (v ≤ rd d .secImgVerSvn 0)

/-- Checks 1 to 10 in order: the reason of the first that fails (R456). -/
def amdCheck (g : Cfg) (d : Dyn) (a : Amendment) : Option Nat :=
  if !amdFormat a then some 1
  else if !amdBase d a then some 2
  else if a.seq ≠ rd d .secAmdStsLastSeq 0 + 1 then some 3
  else if !edGood d a.sig then some 4
  else if !mlGood d a.sig then some 5
  else if !recsKeepRwl g d (amdRegs a) then some 6
  else if writesGate (amdRegs a) && genWindowFull d then some 7
  else if !drainOk d (amdDrain a) then some 8
  else if !bindsOk g d (amdPol a).bind (amdDrain a) then some 9
  else if !keysOk d a then some 10
  else none

/-- The events of a check that fails: 0x0B05 for a signature, 0x0505 for the gate window, 0x010A for a binding without a VCS or a vPPB (R61,
R62, R224, R279, R451). -/
def amdCheckTell (a : Amendment) (why : Nat) (d : Dyn) : Dyn :=
  if why = 4 ∨ why = 5 then raise 0x0B05 (leadOr0 d) [why - 4, a.seq] d
  else if why = 7 then raise 0x0505 (leadOr0 d) [a.seq] d
  else if why = 9 && !bindsRoom d (amdPol a).bind (amdDrain a) then raise 0x010A (leadOr0 d) [a.seq] d
  else d

/-! ## Effect (R222, R223, R224, R457) -/

/-- A passthrough binding is taken away: the vPPB shows an empty slot, requests are answered, what the host owes a BISnp of the device is
discarded, event 0x040D (R223, Table 2.9). -/
def unbindLd (g : Cfg) (lp ld : Nat) (d : Dyn) : Dyn :=
  match bndOf d lp ld with
  | none => d
  | some b =>
    let gone (f : Flight) : Bool := f.devs.contains (1000 + lp) && match f.req.tgt with
      | .pt p k => p.val == lp && k.val == ld
      | _ => false
    let owed := d.flights.filter fun f => f.req.kind == .biSnp && f.req.lport.val == lp && match f.req.tgt with
      | .host v => v.val == b.vcs
      | _ => false
    let d := forAll owed (fun f d => answer f.req none d) d
    let d := if b.present then
        raise 0x040D (lpDie lp) [lp, ld, b.vcs, b.vppb]
          (forAll (d.flights.filter gone) (fun f d => answerContained g lp f.req d) (if ptSeen g d b.vcs lp then pdChanged g b.vcs b.vppb d else d))
      else d
    { d with alloc := { d.alloc with bnds := d.alloc.bnds.filter fun x => !(x.lport == lp && x.ldId == ld) } }

/-- The trained device of a port and the size of one of its LDs. -/
def trainedLd (d : Dyn) (lp ld : Nat) : Option (Partner × Nat) :=
  if !lpLinkUp d lp then none
  else match cellsFind lp d.port.device.cells with
    | none => none
    | some p => ((ldsOf p).find? fun x => x.1 == ld).map fun x => (p, x.2)

/-- An entry of an amendment binds a port or LD: its one entry moves, and a device that has trained is bound; one that is there and has not
is bound when it trains (R222, R223). -/
def rebindLd (g : Cfg) (lp ld t : Nat) (d : Dyn) : Dyn :=
  let here := match bndOf d lp ld with
    | some b => b.vcs == t && b.present
    | none => false
  if here || (t == 254 && (poolDev d lp ld).isSome) then d
  else
    let had := bndOf d lp ld
    let d := if (had.map Bnd.vcs) = some t then d else unbindLd g lp ld d
    let d := match trainedLd d lp ld with
      | some (p, n) =>
        if t = 255 then d
        else if !bindOk p t then bindRefuse lp ld t d
        else if t < 128 then bindPass g lp ld t false d
        else bindPool g lp ld n false d
      | none =>
        if t < 128 ∧ (bndOf d lp ld).isNone then
          match freeVppb d t with
          | some k =>
            let d := dpcFollow t k lp { d with alloc := { d.alloc with bnds := d.alloc.bnds ++ [⟨lp, ld, t, k, false⟩] } }
            let d := raise 0x040C (lpDie lp) [lp, ld, t, k] d
            if rd d .portLstsPrsnt lp = 1 then { d with port := { d.port with owedBind := d.port.owedBind ++ [(lp, ld)] } } else d
          | none => bindRefuse lp ld t d
        else d
    boundView g lp d

/-- The policy entries of an amendment join the tables, and its bindings take effect; those of a device that drains wait for the
device to leave (R224, R454). -/
def polEffect (g : Cfg) (p : Policy) (drain : List Nat) (d : Dyn) : Dyn :=
  let d := { d with boot := { d.boot with pol := ⟨d.boot.pol.bind ++ p.bind, d.boot.pol.hotAdd ++ p.hotAdd⟩ } }
  forAll (bindEnts p.bind) (fun e d =>
    match poolDev d e.1 e.2.1 with
    | some b =>
      if drain.contains b then { d with alloc := { d.alloc with bindLater := d.alloc.bindLater ++ [e] } } else d
    | none => rebindLd g e.1 e.2.1 e.2.2 d) d

/-- What records, policy entries and drains change: a gate generation when rules or DFLT bits are written, slices and policers at the
next refill, slot channels at the next sample, bindings, drains (R217, R273, R308, R438, R457). -/
def amdEffect (regs : List RegRec) (pol : Policy) (drain : List Nat) (s : Cfg × Dyn) : Cfg × Dyn :=
  let old := s.1
  let s1 := recsApply false regs s
  let g := s1.1
  let ch := changedKeys old g
  let d := recsTell regs s1.2
  let d := if writesGate regs then genMake old d else d
  let d := if ch.any (keyBetween .qosCtlRedDl .qosSliceSchedBurst) && d.qos.old.isNone then
    { d with qos := { d.qos with old := some old } } else d
  let slots := (List.range 48).filter fun n => ch.any fun k => k / 1024 == n && keyBetween .slotCtlRetryMax .slotTimeInsMs k
  let d := forAll slots (fun n d => slotRecheck g n d) d
  let d := polEffect g pol drain d
  let new := drain.filter fun b => !d.alloc.drains.contains b
  (g, drainKick g { d with alloc := { d.alloc with drains := d.alloc.drains ++ new } })

/-- A revoked slot and a raised SVN_MIN are burnt into OTP, event 0x0B0F each (R452). -/
def keyEffect (a : Amendment) (d : Dyn) : Dyn :=
  let d := match amdRevoke a with
    | none => d
    | some (alg, k) =>
      let otp := d.boot.otp
      let d := if alg = 1 then
          putBit .secKeyStsEdRev 0 k true { d with boot := { d.boot with otp := { otp with edRev := bitSet otp.edRev k } } }
        else putBit .secKeyStsMlRev 0 k true { d with boot := { d.boot with otp := { otp with mlRev := bitSet otp.mlRev k } } }
      raise 0x0B0F (leadOr0 d) [alg, k] d
  match amdSvn a with
  | none => d
  | some v => raise 0x0B0F (leadOr0 d) [v]
      (put .secKeyStsSvnMin 0 v { d with boot := { d.boot with otp := { d.boot.otp with svnMin := v } } })

/-- An accepted amendment takes effect: LAST_SEQ, measurement 4 and event 0x0B06 (R457, R469). -/
def amdApply (a : Amendment) (s : Cfg × Dyn) : Cfg × Dyn :=
  let s := amdEffect (amdRegs a) (amdPol a) (amdDrain a) s
  let d := keyEffect a s.2
  let d := put .secAmdStsLastSeq 0 a.seq { d with boot := { d.boot with chain := d.boot.chain ++ [a.digest] } }
  (s.1, raise 0x0B06 (leadOr0 d) [a.seq] d)

/-! ## Handling, one at a time (R456, R458, R460) -/

/-- The answer to a command: a message to a requester behind the upstream port of a VCS is a Q7 packet there, other paths have a way of
their own (R100, R507). -/
def mgmtReply (p : Path) (op rc detail : Nat) (words : List Nat) (d : Dyn) : Dyn :=
  match p with
  | .mctp v _ => match aget 0 d.port.vcsPort v with
    | 0 => emit (.cmdResp p op rc detail words) d
    | n + 1 => stage n ⟨⟨0, 7, 64 + 4 * words.length, 200, n, none, none, 1, 0, 0, 0, true, .mgmt p op rc detail words⟩, none, false⟩ d
  | _ => emit (.cmdResp p op rc detail words) d

/-- Count a vendor command as done, and answer it. -/
def cmdDone (p : Path) (op : Nat) (words : List Nat) (d : Dyn) : Dyn :=
  mgmtReply p op 0 0 words (bump .mgmtCmdCntDone (leadOr0 d) 1 d)

/-- The host whose mailbox a path is. -/
def pathHost (p : Path) : Option Nat :=
  match p with
  | .fcf h => some h.val
  | _ => none

/-- Refuse a vendor command: a CXL mailbox return code with DETAIL, event 0x0E01, counted (R517, R518). -/
def cmdRefuse (p : Path) (op rc detail : Nat) (d : Dyn) : Dyn :=
  mgmtReply p op rc detail [] (raise 0x0E01 (leadOr0 d) ([op, rc, detail] ++ (pathHost p).toList) (bump .mgmtCmdCntRefused (leadOr0 d) 1 d))

/-- A path's background command ends. -/
def bgEnd (p : Path) (d : Dyn) : Dyn := { d with mgmt := { d.mgmt with bg := d.mgmt.bg.filter fun q => q != p } }

/-- CXL mailbox return codes used here: Invalid Input, Unsupported, Busy. -/
def rcInvalid : Nat := 2
/-- Unsupported. -/
def rcUnsupported : Nat := 3
/-- Busy. -/
def rcBusy : Nat := 6

/-- The result of an amendment goes to who submitted it: none when accepted, else the reason (R328, R456). -/
def amdAnswer (g : Cfg) (r : AmdRun) (why : Option Nat) (d : Dyn) : Dyn :=
  match r.src with
  | .path p =>
    let d := bgEnd p d
    match why with
    | none => cmdDone p 0xC030 [] d
    | some n => cmdRefuse p 0xC030 rcInvalid n d
  | .ring n idx =>
    match why with
    | none => entDone g n idx 0 0 [] d
    | some w => entDone g n idx 0x1A w [] d

/-- The amendment in hand is refused: event 0x0B07, its arbiter request dropped, its result (R456). -/
def amdRefuse (g : Cfg) (r : AmdRun) (why : Nat) (d : Dyn) : Dyn :=
  let d := put .secAmdStsBusy 0 0 { d with boot := { d.boot with amd := none } }
  let d := if r.phase = 1 ∨ r.phase = 2 then arbFree r.act d else d
  amdAnswer g r (some why) (raise 0x0B07 (leadOr0 d) [why, r.amd.seq] d)

/-- A granted amendment meets checks 12 and 13 and its log record is written; one that waited while another image was activated is
refused with BASE (R460, Table 15.9). -/
def amdGranted (g : Cfg) (d : Dyn) : Dyn :=
  match d.boot.amd with
  | some r =>
    if r.phase ≠ 1 ∨ !granted d r.act then d
    else if !amdBase d r.amd then amdRefuse g r 2 d
    else if (flashSource d).isNone then amdRefuse g r 13 d
    else if 8388608 < logUsed d + logBytes (.amd r.amd) then amdRefuse g r 12 d
    else nvPut (.log (.amd r.amd)) { d with boot := { d.boot with amd := some { r with phase := 2 } } }
  | none => d

/-- The amendment in hand goes on to the arbiter, unless supply sag holds it (check 11, R458). -/
def amdAsk (g : Cfg) (d : Dyn) : Dyn :=
  match d.boot.amd with
  | some r =>
    if r.phase = 0 ∧ rd d .nvmSagStsSag 0 = 0 then
      let x := arbAsk (actReq 7 [] []) 0 d
      amdGranted g { x.2 with boot := { x.2.boot with amd := some { r with phase := 1, act := x.1 } } }
    else d
  | none => d

/-- Take the next amendment in order of arrival through checks 1 to 10 (R456); refused ones give way to the next. -/
def amdNext (g : Cfg) : Nat → Dyn → Dyn
  | 0, d => d
  | n + 1, d =>
    if d.boot.amd.isSome then d
    else match d.boot.amdq with
      | [] => d
      | r :: t =>
        let d := { d with boot := { d.boot with amdq := t } }
        match amdCheck g d r.amd with
        | some why => amdNext g n (amdRefuse g r why (amdCheckTell r.amd why d))
        | none => amdAsk g (put .secAmdStsBusy 0 1 { d with boot := { d.boot with amd := some r } })

/-- An amendment arrives. -/
def amdSubmit (g : Cfg) (a : Amendment) (src : AmdSrc) (d : Dyn) : Dyn :=
  let d := { d with boot := { d.boot with amdq := d.boot.amdq ++ [⟨a, src, 0, 0⟩] } }
  amdNext g (d.boot.amdq.length + 1) d

end Machine
end Sys2Proof
end

