-- ==== Sys2Proof/Machine/Start.lean ====
section
/-! DEFINITION. The start sequence of Table 15.1: power-on, flash checks and election, image choice and verification, register
records, replay, firmware, links, device ready, and RECOVERY (R26, R43, R58, R221, R345, R441 to R454, R461). -/

namespace Sys2Proof
namespace Machine

/-! ## Images (R443, R445, R450, R451) -/

/-- Limit of a section type in bytes (Table 15.5); types it does not list have none. -/
def sectLimit (t : Nat) : Option Nat :=
  match t with
  | 1 | 2 => some 4194304
  | 3 => some 12582912
  | 4 => some 1048576
  | _ => none

/-- The layout of an image is accepted (R450). -/
def imgLayout (m : Image) : Bool :=
  m.headerGood && m.verMajor == 2 && decide (1 ≤ m.sects.length) && decide (m.sects.length ≤ 16)
    && m.sects.all (fun s => decide (s.off + s.len ≤ m.bodyLen) && match sectLimit s.ty with
      | some n => decide (s.len ≤ n)
      | none => true)
    && sectsApart m.sects && [1, 2, 3].all (sectOnce m.sects) && hasSect m.sects 1 && hasSect m.sects 3

/-- An image verifies: layout, an SVN at or above SVN_MIN, this package in PKG_MASK, both signatures (R444, R445, R450, R451). -/
def imgGood (d : Dyn) (m : Image) : Bool :=
  imgLayout m && decide (rd d .secKeyStsSvnMin 0 ≤ m.svn) && bitAt m.pkgMask (ownPkg d) && edGood d m.sig && mlGood d m.sig

/-- The events of signatures that fail, which they name: 0 Ed25519, 1 ML-DSA-65 (R451). -/
def sigTell (s : SigBlock) (seq : Nat) (d : Dyn) : Dyn :=
  let d := if edGood d s then d else raise 0x0B05 (leadOr0 d) [0, seq] d
  if mlGood d s then d else raise 0x0B05 (leadOr0 d) [1, seq] d

/-- A flash passes its check (R443). -/
def flashPass (f : FlashIn) : Bool :=
  f.answers && f.octal && f.erase4k && decide (9 ≤ f.log2Mbit) && (f.slotA.headerGood || f.slotB.headerGood)

/-- The image in a slot of a flash. -/
def slotImage (f : FlashIn) (b : Bool) : Image := if b then f.slotB else f.slotA

/-- A slot may be tried first without a BASE record: good header, SVN at or above SVN_MIN (R445). -/
def slotTry (d : Dyn) (m : Image) : Bool := m.headerGood && decide (rd d .secKeyStsSvnMin 0 ≤ m.svn)

/-- The slot tried first: that of the last BASE record, else the one with the higher SEQ among those that may be tried; slot A
on a tie (R445). -/
def firstSlot (d : Dyn) (f : FlashIn) : Option Bool :=
  match logBase f.log with
  | some b => some b
  | none =>
    match slotTry d f.slotA, slotTry d f.slotB with
    | true, true => some (decide (f.slotA.seq < f.slotB.seq))
    | true, false => some false
    | false, true => some true
    | false, false => none

/-- Write an image to a slot of every flash that is written (R447). -/
def slotWrite (b : Bool) (m : Image) (d : Dyn) : Dyn :=
  let ks := flashWritten d
  let fl := d.boot.flash.zipIdx.map fun x =>
    if ks.contains x.2 then (if b then { x.1 with slotB := m } else { x.1 with slotA := m }) else x.1
  { d with boot := { d.boot with flash := fl } }

/-! ## Restart -/

/-- Slot channels through a restart: every gate is off, since now or since it went off before (R427, R533). -/
def slotsOff (d : Dyn) : Arr SlotCh :=
  d.slot.cells.foldl (fun a c => aset slot0 a c.1 { slot0 with offAt := if c.2.gate then d.now else c.2.offAt }) arrEmpty

/-- What a restart keeps: package time, OTP, the contents of flash (slots, log, event log, ageing store), the thermal latch and the
supply, when each slot gate went off; the model's own counter and messages sent. -/
def carry (d : Dyn) : Dyn :=
  { dyn0 with
    now := d.now, free := d.free, out := d.out, slot := slotsOff d,
    hlth := { hlth0 with plans := d.hlth.plans, based := d.hlth.based, laneBase := d.hlth.laneBase, elog := d.hlth.elog },
    boot := { boot0 with otp := d.boot.otp, flash := d.boot.flash, elogAt := d.boot.elogAt, nseq := d.boot.nseq },
    elec := { d.elec with hot := [], relock := arrEmpty } }

/-- The boot ROM of every die starts: strap, OTP values, the local timestamp, a challenge, the region clocks (R34, R441, R451,
R452, R471, R535). -/
def romStart (pkg : Nat) (d : Dyn) : Dyn :=
  let otp := d.boot.otp
  let d := forAll (List.range 4) (fun k d =>
    let d := put .dieDieIdPkgId k pkg (put .dieTstampNs k d.now d)
    let d := put .dieRclkStsR0Lock k 1 (put .dieRclkStsR1Lock k 1 d)
    newChal k (put .dieThermStsTripped k (b2n d.elec.trip) d)) d
  let d := forAll (List.range 8) (fun r d => put .hlthVregVset r ((otp.vset[r]?).getD 0) d) d
  let d := put .secKeyStsEdSet 0 otp.edSet (put .secKeyStsEdRev 0 otp.edRev d)
  let d := put .secKeyStsMlSet 0 otp.mlSet (put .secKeyStsMlRev 0 otp.mlRev d)
  put .secKeyStsSvnMin 0 otp.svnMin { d with elec := { d.elec with trip := false } }

/-- The package enters RECOVERY: event 0x0B04 (R446). -/
def recovery (d : Dyn) : Dyn := raise 0x0B04 (leadOr0 d) [] (put .secBootStsStage 0 15 d)

/-! ## Meanings -/

/-- POWER_ON: VIN rises through UVLO: the AON rails rise, the timestamp master starts at 0 and straps are sampled; step 2 waits
while COLD_RST# is low (R441, R528, R530, R534, R535). -/
def execPowerOn (env : PowerEnv) (s : State) : Host.Outcome State Fault Refusal :=
  nextCfg s fun g d =>
    if d.elec.vin then (g, d)
    else
      let d0 := carry d
      let d0 := { d0 with now := 0, slot := arrEmpty, boot := { d0.boot with otp := env.otp, flash := env.flash },
                          elec := { d0.elec with vin := true, trip := false } }
      (arrEmpty, romStart env.pkgId d0)

/-- What each die's check of its flash shows: whether it answers, its size, and whether it passes (R443, R444). -/
def flashCheck (d : Dyn) : Dyn :=
  forAll (d.boot.flash.zipIdx.take 4) (fun x d =>
    let d := put .nvmFlashStsPresent x.2 (b2n x.1.answers) (put .nvmFlashStsPass x.2 (b2n (flashPass x.1)) d)
    let d := if x.1.answers then put .nvmFlashStsLog2Mbit x.2 x.1.log2Mbit d else d
    putBit .secBootStsNvmOk 0 x.2 (flashPass x.1) d) d

/-- Die k leads from stage 2 on, with a standby and event 0x0B02 (R27, R444). -/
def electDie (g : Cfg) (k : Nat) (d : Dyn) : Dyn :=
  let d := setLead k (put .secBootStsLead0 0 k (put .secBootStsStage 0 2 d))
  setStandby g k (raise 0x0B02 k [k, rd d .secBootStsNvmOk 0] d)

/-- LEAD_ELECTION: each die checks its flash, and the lowest that passes leads; with none the package enters RECOVERY (R27, R443,
R444, R446). Under COLD_RST# and after a thermal trip nothing starts (R533, R542). -/
def execLeadElection (s : State) : Host.Outcome State Fault Refusal :=
  nextDyn s fun g d =>
    if !d.elec.vin || d.elec.reset || d.elec.trip || rd d .secBootStsStage 0 ≠ 0 then d
    else
      match flashSource (flashCheck d) with
      | none => recovery (flashCheck d)
      | some k => electDie g k (flashCheck d)

/-- IMAGE_LOAD: the lead chooses the slot to try and reads its image; torn records of the log are counted, event 0x0B0D (R442, R445,
R449). With no slot to try the package enters RECOVERY. -/
def execImageLoad (s : State) : Host.Outcome State Fault Refusal :=
  nextDyn s fun _ d =>
    if rd d .secBootStsStage 0 ≠ 2 then d
    else match flashSource d with
      | none => d
      | some k => match d.boot.flash[k]? with
        | none => d
        | some f =>
          if d.boot.tried then
            put .secBootStsStage 0 3 { d with boot := { d.boot with cand := some (slotImage f d.boot.tryB) } }
          else
            let torn := (f.log.filter fun r => r.torn).length
            let d := forAll (List.range torn) (fun _ d => raise 0x0B0D k [k] d) (bump .nvmFlashStsTorn k torn d)
            match firstSlot d f with
            | none => recovery d
            | some b => put .secBootStsStage 0 3
                { d with boot := { d.boot with tryB := b, cand := some (slotImage f b) } }

/-- IMAGE_VERIFY: the image must verify; a slot that fails gives way to the other, event 0x0B03, and a BASE record then names the slot
in use; with no slot left the package enters RECOVERY (R444, R445, R446, R450, R451). -/
def execImageVerify (s : State) : Host.Outcome State Fault Refusal :=
  nextDyn s fun _ d =>
    if rd d .secBootStsStage 0 ≠ 3 then d
    else match d.boot.cand with
      | none => d
      | some m =>
        if imgGood d m then
          let d := put .secImgSeqSeq 0 m.seq (put .secImgVerMajor 0 m.verMajor (put .secImgVerMinor 0 m.verMinor d))
          let d := put .secImgVerSvn 0 m.svn (put .secBootStsSlot 0 (b2n d.boot.tryB) (put .secBootStsStage 0 4 d))
          let d := { d with boot := { d.boot with image := some m, cand := none, chain := [] } }
          if d.boot.tried then logAppend (.base d.boot.tryB m.digest) d else d
        else
          let d := if imgLayout m then sigTell m.sig m.seq d else d
          if d.boot.tried then recovery { d with boot := { d.boot with cand := none } }
          else
            let d := put .secBootStsFallback 0 1 (put .secBootStsStage 0 2
              { d with boot := { d.boot with tried := true, tryB := !d.boot.tryB, cand := none } })
            raise 0x0B03 (leadOr0 d) [m.seq] d

/-- RECOVERY_IMAGE_TRANSFER: an image received over MCTP on I3C in RECOVERY is written to the slot that no BASE record names and
verified; on success the switch starts again from step 2 (R446, R520). -/
def execRecoveryImageTransfer (m : Image) (s : State) : Host.Outcome State Fault Refusal :=
  nextCfg s fun g d =>
    if rd d .secBootStsStage 0 ≠ 15 then (g, d)
    else match flashSource d with
      | none => (g, d)
      | some k =>
        let used := match d.boot.flash[k]? with
          | some f => (logBase f.log).getD true
          | none => true
        let d := slotWrite (!used) m d
        if imgGood d m then (arrEmpty, romStart (ownPkg d) (carry d)) else (g, if imgLayout m then sigTell m.sig m.seq d else d)

/-- REGISTER_RECORDS: the register records of the image are applied on every die, every check of start is made, one VCS is created for
each accepted UPSTREAM port, and RWL fields lock (R42, R46, R47, R52 to R58, R103, R132, R227, R453, R454). -/
def execRegisterRecords (s : State) : Host.Outcome State Fault Refusal :=
  nextCfg s fun g d =>
    if rd d .secBootStsStage 0 ≠ 4 then (g, d)
    else match d.boot.image with
      | none => (g, d)
      | some m =>
        let pol := if hasSect m.sects 2 then m.policy else ⟨[], []⟩
        recsStart m.regs (g, put .secBootStsStage 0 5 { d with boot := { d.boot with pol := pol } })

/-- Every die installs what generations there are. -/
def installAll (g : Cfg) (d : Dyn) : Dyn := forAll (List.range 4) (fun k d => genInstall g k d) d

/-- Replay records in log order: checks 1 to 10, then effect without the arbiter. A record that fails stops replay, with a VOID record
and event 0x0B08; nothing after a VOID record is replayed (R461). -/
def replayLog : List LogBody → Cfg × Dyn → Cfg × Dyn
  | [], s => s
  | b :: t, s =>
    match b with
    | .base _ _ => replayLog t s
    | .void _ => s
    | .amd a =>
      match amdCheck s.1 s.2 a with
      | none =>
        let r := amdApply a s
        replayLog t (r.1, installAll r.1 r.2)
      | some why =>
        let d := logAppend (.void a.seq) (amdCheckTell a why s.2)
        (s.1, raise 0x0B08 (leadOr0 d) [a.seq, why] d)

/-- AMENDMENT_REPLAY: the committed amendments after the last BASE record are replayed (R449, R461). -/
def execAmendmentReplay (s : State) : Host.Outcome State Fault Refusal :=
  nextCfg s fun g d =>
    if rd d .secBootStsStage 0 ≠ 5 then (g, d)
    else
      let r := replayLog (logTail (logOf d)) (g, d)
      (r.1, put .secAmdStsLogUse 0 (min 100 (logUsed r.2 * 100 / 8388608)) (put .secBootStsStage 0 6 r.2))

/-- FIRMWARE_START: management firmware starts on every die; the standby's allocator holds what the lead's does (R27, R441). -/
def execFirmwareStart (s : State) : Host.Outcome State Fault Refusal :=
  nextDyn s fun _ d =>
    if rd d .secBootStsStage 0 ≠ 6 then d
    else
      let d := put .secBootStsStage 0 7 d
      if rd d .allocMirStsSyncing 0 = 1 then put .allocMirStsSyncing 0 0 (put .allocMirStsMirrored 0 1 d) else d

/-- LINK_ENABLE: every GnokuLink-D endpoint and the -P endpoints the image uses are enabled together, bank 0 is computed from ORDER and
the shortest directions, and staging is released (R345, R395, R441, R442). -/
def execLinkEnable (s : State) : Host.Outcome State Fault Refusal :=
  nextDyn s fun g d =>
    if rd d .secBootStsStage 0 ≠ 7 || d.noc.bank0.used then d
    else
      let d := { d with noc := { d.noc with bank0 := ⟨true, cg g .nocCtlOrder 0, arrEmpty⟩ } }
      forAll (List.range 36) (fun n d =>
        if !gklIsP n || rd d .gklPhyCtlEn n == 1 || cg g .gklSysLinkV (n / 9) == 1 then phyEnable n (put .gklPhyCtlEn n 0 d) else d) d

/-- Slot channels and unused port units at device ready: unused port units go to CLEARING, the ports of slot channels are held in reset until
theirs releases them, and PERST# of channels without EN is released; the time of the start is noted (R43, R434, R436, R441, R536). -/
def slotsStart (g : Cfg) (d : Dyn) : Dyn :=
  let d := forAll (List.range 48) (fun p d => if puUnused g d p then put .pwrDomStsState (domPu p) 3 d else d) d
  let d := { d with port := { d.port with inReset := (List.range 48).filter fun n => slotEn g n },
                    boot := { d.boot with started := d.now },
                    hlth := { d.hlth with planAt := d.now + 60000000000, hbLead := d.now, hbWord := d.now, hbAns := d.now } }
  forAll (List.range 48) (fun n d =>
    let x := slotGet d n
    let d := if slotEn g n then slotRecheck g n d else slotSet n { x with perst := false } d
    if perstDriven g d n then emit (.pin (.perst n (slotGet d n).perst)) d else d) d

/-- The devices present train and are bound in port order, those behind a slot channel keeping their place (R221). -/
def devicesStart (g : Cfg) (devs : List (Lport × Partner)) (d : Dyn) : Dyn :=
  forAll (List.range 192) (fun lp d => match devs.find? fun x => x.1.val == lp with
    | some x => startPort g lp x.2 (linkUpAt g lp x.2 true) d
    | none => d) d

/-- DEVICE_READY: slot channels and ports start, the devices present train and are bound, the placement devices are chosen; event 0x0B01,
READY_NS (R43, R137, R140, R182, R221, R434, R437, R441, R536). -/
def execDeviceReady (devs : List (Lport × Partner)) (s : State) : Host.Outcome State Fault Refusal :=
  nextDyn s fun g d =>
    if rd d .secBootStsStage 0 ≠ 7 || !d.noc.bank0.used then d
    else
      let d := slotsStart g (put .secBootStsStage 0 8 d)
      let d := put .secReadyNsNs 0 (dieTs d (leadOr0 d)) d
      choosePt g (devicesStart g devs (raise 0x0B01 (leadOr0 d) [rd d .secReadyNsNs 0] d))

end Machine
end Sys2Proof
end

