-- ==== Sys2Proof/Machine/RingOps.lean ====
section
/-! DEFINITION. The commands of the work rings: doorbells, reads of control blocks and slots, dispatch, the operations that
move data or ask, records that wait, control block writes and ring commands (R310 to R337). -/

namespace Sys2Proof
namespace Machine

/-! ## Finding work (R315, R330) -/

/-- The host memory words of a read. -/
def hostWords (x : HostRead) : List Nat := leWords (x.bytes.map Fin.val)

/-- Work reaches the ring engine of a die: its clock opens, and a sleeping service block is woken (R349, R405). -/
def engineIn (die : Nat) (d : Dyn) : Dyn :=
  let d := ungate (168 + die) d
  if 2 ≤ domPwr d (domSvc (2 * die + 1)) then emit (.wake (1000 + svcRouter (2 * die + 1))) d else d

/-- A doorbell reads the control block (R330); nothing is fetched for a ring that is OFF or HALTING (Table 9.10). -/
def ringBell (g : Cfg) (n : Nat) (d : Dyn) : Dyn :=
  if (ringGet d n).state = 1 ∨ (ringGet d n).state = 2 then readRcb g n (engineIn (ringGet d n).die d) else d

/-- The result ring's doorbell (R332). -/
def resBell (g : Cfg) (h s : Nat) (d : Dyn) : Dyn := if (resGet d s).on then readRes g h s d else d

/-- RDB: a write to RDB_k makes the engine read ring k's control block (R330); of a page the host does not own it only counts
(R73). -/
def execRdb (h : Host) (sl : Slc) (k : Fin 4) (s : State) : Host.Outcome State Fault Refusal :=
  nextDyn s fun g d => pageWrite g h sl (ringBell g (4 * sl.val + k.val)) d

/-- RESDB: a write to RESDB makes the engine read the result ring's control block again (R332). -/
def execResdb (h : Host) (sl : Slc) (s : State) : Host.Outcome State Fault Refusal :=
  nextDyn s fun g d => pageWrite g h sl (resBell g h sl) d

/-- A ring's control block returns: on ENABLE the head comes from it; a TAIL more than the ring's size ahead stops the ring with
BAD_RCB, a failed read with FETCH_FAIL (R315, Tables 9.6 and 9.11); then the slots up to TAIL are read (R330). -/
def rcbTake (g : Cfg) (n : Nat) (x : HostRead) (d : Dyn) : Dyn :=
  let r := ringGet d n
  let w := hostWords x
  if r.state ≠ 1 ∧ r.state ≠ 2 then d
  else if !x.ok then (if r.state = 1 then ringError g n r.disp 7 d else d)
  else
    let head := if r.taking then wAt w 2 else r.head
    let r := { r with head := head, disp := if r.taking then head else r.disp, taking := false }
    if ringSlots r.log2 < idxSub (wAt w 0) head then
      (if r.state = 1 then ringError g n r.disp 9 (ringSet n r d) else d)
    else
      let d := ringSet n { r with tail := wAt w 0 } d
      if r.state = 1 then readSlots g n d else d

/-- A control block read of a ring ends; doorbells that came meanwhile cause one more (R330). -/
def rcbBack (g : Cfg) (n : Nat) (x : HostRead) (d : Dyn) : Dyn :=
  let r := ringGet d n
  if !r.cbBusy then d
  else
    let d := rcbTake g n x (ringSet n { r with cbBusy := false, cbAgain := false } d)
    let d := ringSet n { ringGet d n with taking := false } d
    if r.cbAgain then ringBell g n d else d

/-- The result ring's control block returns: CONS, and PROD with it on ENABLE as HEAD for a ring (assumption 70); records held for
room are written as space appears (R332). -/
def resBack (g : Cfg) (sl : Nat) (x : HostRead) (d : Dyn) : Dyn :=
  let q := resGet d sl
  let w := hostWords x
  if !q.cbBusy then d
  else if !q.on || !x.ok then resSet sl { q with cbBusy := false, taking := false } d
  else
    let q := { q with cbBusy := false, taking := false, cons := wAt w 0, prod := if q.taking then wAt w 2 else q.prod }
    sliceSettle g sl (resSet sl q d)

/-- CONTROL_BLOCK_READ: the read of the control block of ring 0 to 3 or of the result ring (4) returns (R315). -/
def execControlBlockRead (sl : Slc) (which : Fin 5) (x : HostRead) (s : State) : Host.Outcome State Fault Refusal :=
  nextDyn s fun g d => if which.val = 4 then resBack g sl x d else rcbBack g (4 * sl.val + which.val) x d

/-- POLL_US of a ring in ns; above 10,000 acts as 10,000 (RCFG). -/
def pollNs (r : Ring) : Nat := min 10000 r.poll * 1000

/-- POLL: every POLL_US the slot at the next undispatched index is read, and slots beyond it (R330). -/
def execPoll (n : RingId) (s : State) : Host.Outcome State Fault Refusal :=
  nextDyn s fun g d =>
    let r := ringGet d n
    if r.state = 1 ∧ !r.taking ∧ 0 < r.poll ∧ r.pollAt + pollNs r ≤ d.now then
      readSlots g n (ringSet n { r with pollAt := d.now } d)
    else d

/-- Entries of a slice's other rings dispatched and not complete, for which a FENCE of scope 1 fetched now waits (R326). -/
def fenceWaits (d : Dyn) (n : Nat) : List (Nat × Nat) :=
  [0, 1, 2, 3].flatMap fun k =>
    let m := n / 4 * 4 + k
    if m = n then [] else ((ringGet d m).ents.filter fun e => !e.done).map fun e => (m, e.idx)

/-- A fetched slot kept for dispatch. -/
def slotKeep (n : Nat) (f : Fetched) (d : Dyn) : Dyn :=
  let r := ringGet d n
  ringSet n { r with fetched := r.fetched ++ [f], stale := r.stale.filter fun x => x.1 != f.idx } d

/-- An index lies below TAIL (R330). -/
def belowTail (r : Ring) (idx : Nat) : Bool := decide (idxSub idx r.disp < idxSub r.tail r.disp) && decide (idxSub r.tail r.disp ≤ ringSlots r.log2)

/-- A slot read returns: an owned entry is kept, an unowned one below TAIL is to be read again, one at or beyond TAIL is dropped; a
read that failed is kept to stop the ring when its turn comes (R313, R330, FETCH_FAIL). -/
def slotBack (n idx : Nat) (x : HostRead) (d : Dyn) : Dyn :=
  let r := ringGet d n
  let w := hostWords x
  if r.state ≠ 1 || r.taking || !slotWanted r idx then d
  else if !x.ok then slotKeep n ⟨idx, none, []⟩ d
  else if phaseOf w = expMark r.log2 idx then
    slotKeep n ⟨idx, some w, if opOf w = 7 ∧ bitAt (flagsOf w) 0 then fenceWaits d n else []⟩ d
  else if belowTail r idx && !(r.stale.any fun s => s.1 == idx) then
    ringSet n { r with stale := r.stale ++ [(idx, 0, d.now)] } d
  else d

/-- ENTRY_FETCH: the read of a slot returns (R330). -/
def execEntryFetch (n : RingId) (idx : Nat) (x : HostRead) (s : State) : Host.Outcome State Fault Refusal :=
  nextDyn s fun _ d => slotBack n (idx % idxMod) x d

/-- The re-reads a stale slot has had. -/
def staleCount (r : Ring) (idx : Nat) : Nat := ((r.stale.find? fun x => x.1 == idx).map fun x => x.2.1).getD 0

/-- STALE_REREAD: an unowned entry below TAIL is read again every µs; after 1,000 such reads the ring stops with STALE_MARK once every
earlier entry is dispatched (R330, R333). -/
def execStaleReread (n : RingId) (idx : Nat) (x : HostRead) (s : State) : Host.Outcome State Fault Refusal :=
  nextDyn s fun g d =>
    let i := idx % idxMod
    let r := ringGet d n
    match r.stale.find? fun y => y.1 == i with
    | none => d
    | some y =>
      if r.state ≠ 1 ∨ d.now < y.2.2 + 1000 ∨ 1000 ≤ y.2.1 then d
      else if !x.ok || phaseOf (hostWords x) = expMark r.log2 i then
        slotBack n i x (ringSet n { r with stale := dropOne y r.stale } d)
      else
        let k := y.2.1 + 1
        let d := ringSet n { r with stale := mapIf (fun z => z.1 == i) (fun z => (z.1, k, d.now)) r.stale } d
        if 1000 ≤ k ∧ i = r.disp then ringError g n i 8 d else d

/-! ## Dispatch (R317, R326, R331) -/

/-- The fetched slot of an index. -/
def fetchedAt (r : Ring) (idx : Nat) : Option Fetched := r.fetched.find? fun f => f.idx == idx

/-- An entry takes two slots (R317). -/
def twoSlot (r : Ring) (w : List Nat) : Bool := sgOf w && opOf w == 3 && r.ver == 1

/-- An entry that cannot be dispatched now: an ALLOC behind the slice's admitted one, a FENCE that waits, an AMEND under supply sag
(R198, R326, R328, R331). -/
def entHeld (d : Dyn) (n : Nat) (f : Fetched) (w : List Nat) : Bool :=
  let r := ringGet d n
  match opOf w with
  | 1 =>
    (d.alloc.queue.any fun q => q.slice == n / 4) || ((allCtxs d).any fun c => c.slice == n / 4)
      || [0, 1, 2, 3].any fun k => (ringGet d (n / 4 * 4 + k)).ents.any fun e => !e.done && opOf e.w == 1
  | 7 => (r.ents.any fun e => !e.done) || f.waits.any fun x => ((entOf d x.1 x.2).map fun e => !e.done).getD false
  | 10 => rd d .nvmSagStsSag 0 == 1
  | _ => false

/-- What a ring could do next: an error code at the next undispatched index, or the words and extension of an entry to
dispatch. -/
def ringNext (d : Dyn) (n : Nat) : Option (Nat ⊕ (List Nat × List Nat)) :=
  let r := ringGet d n
  if r.state ≠ 1 || r.taking || r.heldAt.isSome then none
  else if 1000 ≤ staleCount r r.disp then some (.inl 8)
  else match fetchedAt r r.disp with
    | none => none
    | some f => match f.w with
      | none => some (.inl 7)
      | some w =>
        let ready (x : List Nat) : Option (Nat ⊕ (List Nat × List Nat)) :=
          match malformed r.ver w x with
          | some c => some (.inl c)
          | none =>
            if (r.ents.any fun e => !e.done && opOf e.w == 7) || decide (8 ≤ inflt r) || entHeld d n f w then none
            else some (.inr (w, x))
        if twoSlot r w then
          if 1000 ≤ staleCount r (idxAdd r.disp 1) then some (.inl 8)
          else match fetchedAt r (idxAdd r.disp 1) with
            | none => none
            | some x => match x.w with
              | none => some (.inl 7)
              | some xw => ready xw
        else ready []

/-- Entries dispatched and not complete on a die. -/
def dieInflt (d : Dyn) (die : Nat) : Nat :=
  d.ring.rings.cells.foldl (fun n c => if c.2.die = die then n + inflt c.2 else n) 0

/-- The next ring of a die in rotation that passes a test (R331). -/
def ringTurn (d : Dyn) (die : Nat) (p : Nat → Bool) : Option Nat :=
  let l := (ringsListed d).filter fun n => (ringGet d n).die == die && p n
  match l.find? fun n => decide (aget 0 d.ring.rot die ≤ n) with
  | some n => some n
  | none => l.head?

/-- A ring of a die may take a turn: it is to stop, or has an entry ready and the die fewer than 512 under way (R331). -/
def mayTurn (d : Dyn) (die n : Nat) : Bool :=
  match ringNext d n with
  | some (.inl _) => true
  | some (.inr _) => decide (dieInflt d die < 512)
  | none => false

/-- DISPATCH: the die's next ring in rotation with an entry ready dispatches it, in index order: at most 8 of a ring and 512 of the
die; a malformed entry, a failed fetch or a stale one stops the ring. A ring engine that stands still dispatches nothing (R38, R317 to
R319, R331, R333). -/
def execDispatch (die : Die) (s : State) : Host.Outcome State Fault Refusal :=
  nextDyn s fun g d =>
    if xltHalted d die then d
    else match ringTurn d die (mayTurn d die) with
    | none => d
    | some n =>
      let d := { d with ring := { d.ring with rot := aset 0 d.ring.rot die (n + 1) } }
      let r := ringGet d n
      match ringNext d n with
      | none => d
      | some (.inl c) => ringError g n r.disp c d
      | some (.inr (w, x)) =>
        let k := if twoSlot r w then 2 else 1
        let e : RingEnt := ⟨r.disp, k, w, x, false, false, false, 0, 0, [], none⟩
        let next := idxAdd r.disp k
        let rest := r.fetched.filter fun f => f.idx != r.disp && !(k == 2 && f.idx == idxAdd r.disp 1)
        ringSet n { r with disp := next, ents := r.ents ++ [e], fetched := rest } d

/-! ## Operations (R321 to R328) -/

/-- The slice of a ring is privileged (R285). -/
def ringPriv (g : Cfg) (d : Dyn) (n : Nat) : Bool := cg (qCfg g d) .qosSliceKeyPriv (n / 4) == 1

/-- NOP: completes with nothing done (Table 9.4). -/
def execNop (n : RingId) (idx : Nat) (s : State) : Host.Outcome State Fault Refusal :=
  nextDyn s fun g d => match entReady d n idx 0 with
    | some _ => entDone g n idx 0 0 [] d
    | none => d

/-- FENCE: once dispatched, everything it waits for is complete (R326). -/
def execFence (n : RingId) (idx : Nat) (s : State) : Host.Outcome State Fault Refusal :=
  nextDyn s fun g d => match entReady d n idx 7 with
    | some _ => entDone g n idx 0 0 [] d
    | none => d

/-- The pages of some pieces, in order. -/
def piecePages (l : List (Nat × Nat)) : List Nat :=
  l.flatMap fun p => (List.range ((p.1 + p.2 - 1) / 2097152 + 1 - p.1 / 2097152)).map fun i => p.1 / 2097152 + i

/-- An LD operand lies in one Dynamic Capacity region that is not shared (R321 check 1). -/
def oneRegion (g : Cfg) (h : Nat) (l : List (Nat × Nat)) : Bool :=
  match l.head? with
  | none => false
  | some p => match regionOf g h p.1 with
    | none => false
    | some r => (srOf g h r).isNone
        && l.all fun q => regionOf g h q.1 == some r && regionOf g h (q.1 + q.2 - 1) == some r

/-- The addresses of some pieces that stand for their 4 KiB pages (R262). -/
def pieceAddrs (l : List (Nat × Nat)) : List Nat :=
  l.flatMap fun p => p.1 :: (List.range ((p.1 + p.2 - 1) / 4096 - p.1 / 4096)).map fun i => (p.1 / 4096 + 1 + i) * 4096

/-- The first address of an LD operand that the gate forbids (R321 check 3). -/
def gateStop (g : Cfg) (d : Dyn) (h die : Nat) (k : ReqKind) (l : List (Nat × Nat)) : Option Nat :=
  (pieceAddrs l).find? fun a => !permits (genCfg g d die) (jobReq g d h 0 k a 64) (some h) ((gateKind k).getD 0) a

/-- Two operands in one address space overlap (R321 check 4). -/
def piecesMeet (a b : List (Nat × Nat)) : Bool :=
  a.any fun p => b.any fun q => decide (p.1 < q.1 + q.2) && decide (q.1 < p.1 + p.2)

/-- The checks of a COPY or FILL, in the order of R321: the status of the first that fails, and for a forbidden operand its kind
and address. -/
def moveCheck (g : Cfg) (d : Dyn) (n : Nat) (e : RingEnt) : Option (Nat × Option (ReqKind × Nat)) :=
  let r := ringGet d n
  let s := srcOf e.w e.ext
  let t := dstOf e.w e.ext
  let fill := opOf e.w == 4
  let ldS := if fill || s.2 then [] else [s.1]
  let ldT := if t.2 then [] else [t.1]
  let here (p : Nat) : Bool := (ptGet d r.host p).state == 1 || (ptGet d r.host p).state == 2
  if (ldS ++ ldT).any fun l => !oneRegion g r.host l then some (5, none)
  else if (ldS ++ ldT).any fun l => (piecePages l).any fun p => !here p then some (0x11, none)
  else match ldS.findSome? (gateStop g d r.host r.die .memRd), ldT.findSome? (gateStop g d r.host r.die .memWr) with
    | some a, _ => some (0x10, some (.memRd, a))
    | none, some a => some (0x10, some (.memWr, a))
    | none, none => if !fill && s.2 == t.2 && piecesMeet s.1 t.1 then some (0x12, none) else none

/-- A COPY or FILL starts: its checks under the die's generation, then its job on the data mover, which a SYNC waits for (R321,
R322, R336). -/
def moveStart (g : Cfg) (n idx op : Nat) (d : Dyn) : Dyn :=
  match entReady d n idx op with
  | none => d
  | some e =>
    let r := ringGet d n
    match moveCheck g d n e with
    | some (st, none) => entDone g n idx st 0 [0] d
    | some (st, some (k, a)) =>
      let rq := jobReq g d r.host 0 k a 64
      let rule := deciding (genCfg g d r.die) rq (some r.host) a
      entDone g n idx st 0 [0] (violate g r.die rq (some r.host) (genOf d r.die) [(a, 1, rule)] d)
    | none =>
      let gen := genOf d r.die
      let f : Flight := ⟨jobReq g d r.host (jobId n idx) .memWr 0 0, r.die, gen, none, 0, none, [], false, .light, none, 0, 0, none, false⟩
      let j : Job := ⟨gen, 0, 0, false, false, false, false, false, 0, false, 0⟩
      let d := setEnt n idx (fun e => { e with started := true, job := some j }) { d with flights := d.flights ++ [f] }
      jobsStart g r.die d

/-- COPY: checked and given to the data mover (R321, R322, R336, R337). -/
def execCopy (n : RingId) (idx : Nat) (s : State) : Host.Outcome State Fault Refusal := nextDyn s fun g d => moveStart g n idx 3 d

/-- FILL: checked and given to the data mover (R321, R322, R336, R337). -/
def execFill (n : RingId) (idx : Nat) (s : State) : Host.Outcome State Fault Refusal := nextDyn s fun g d => moveStart g n idx 4 d

/-- A page lies in a shared region of an LD (R225). -/
def sharedPage (g : Cfg) (ld page : Nat) : Bool :=
  match regionOf g ld (page * 2097152) with
  | some r => (srOf g ld r).isSome
  | none => false

/-- HINT: the hint goes into the entries of the MAPPED or MIGRATING pages of the range; runs that cross its ends split (R324). -/
def execHint (n : RingId) (idx : Nat) (s : State) : Host.Outcome State Fault Refusal :=
  nextDyn s fun g d => match entReady d n idx 5 with
    | none => d
    | some e =>
      let h := (ringGet d n).host
      let lo := argAt e.w 0 / 2097152
      let k := min (bits (argAt e.w 1) 0 28) (ldPages g h - lo)
      let here (p : Nat) : Bool := (ptGet d h p).state == 1 || (ptGet d h p).state == 2
      let pgs := ((List.range k).filter fun i => here (lo + i)).length
      if !ringPriv g d n && (List.range k).any fun i => sharedPage g h (lo + i) then entDone g n idx 5 0 [0] d
      else if pgs = 0 then entDone g n idx 0 0 [0] d
      else
        let hint := bits (flagsOf e.w) 0 2
        let f (_ : Nat) (x : PtEnt) : PtEnt := if x.state = 1 ∨ x.state = 2 then { x with hint := hint } else x
        entDone g n idx 0 0 [pgs] (ptWriteRange h lo k f false .nothing (splitEnds g h lo k d))

/-- MIGRATE: the outcomes of Table 9.5, else the page asks the arbiter for a slot (R325); without a page free on the target tier the
entry ends MIG_ABORT with no reason of Table 4.9 (assumption 71). -/
def execMigrate (n : RingId) (idx : Nat) (s : State) : Host.Outcome State Fault Refusal :=
  nextDyn s fun g d => match entReady d n idx 6 with
    | none => d
    | some e =>
      let h := (ringGet d n).host
      let page := argAt e.w 0 / 2097152
      let tier := argAt e.w 1 % 2
      let now := pageTier d h page
      let fin (st detail : Nat) : Dyn := entDone g n idx st detail [now] d
      let st := (ptGet d h page).state
      if cg g .xltCtlMigEn 0 = 0 then fin 0x15 0
      else if st = 2 ∨ (st = 1 ∧ migBusy d h page) then fin 0x1B 0
      else if st ≠ 1 then fin 0x11 0
      else if now = tier then fin 0x16 0
      else if sharedPage g h page && !ringPriv g d n then fin 5 0
      else if rd d .nvmSagStsSag 0 = 1 then fin 0x17 6
      else match migDst d h page tier with
        | none => fin 0x17 0
        | some x => migAsk g h page x.1 x.2 false false (some (n, idx)) (setEnt n idx (fun e => { e with started := true }) d)

/-- The free blocks of a tier as QUERY QUOTA tells them. -/
def quotaData (g : Cfg) (d : Dyn) (s h : Nat) : List Nat :=
  [rd d .allocSqUsed s * 2 ^ 32 + cg g .allocSqQuota s, rd d .allocHqUsed h * 2 ^ 32 + cg g .allocHqQuota h, tierFree d 0 % 2 ^ 21,
   tierFree d 1 % 2 ^ 21]

/-- The lowest of some ranges that contains a page or lies above it. -/
def nextRange {α : Type} (lo n : α → Nat) (page : Nat) (l : List α) : Option α :=
  l.foldl (fun m x => if lo x + n x ≤ page then m else match m with
    | none => some x
    | some y => if lo x < lo y then some x else m) none

/-- The data of QUERY EXTENT (Table 9.8). -/
def extentData (g : Cfg) (d : Dyn) (h addr : Nat) : List Nat :=
  match nextRange Ext.base Ext.pages (addr / 2097152) (d.alloc.exts.filter fun e => e.ld == h && !e.going && !e.quar) with
  | none => [0, 0, 0, 0]
  | some e =>
    let r := (regionOf g h (e.base * 2097152)).getD 0
    [e.base * 2097152, e.pages * 2097152,
     e.slice.getD 0 + r * 2 ^ 16 + b2n e.slice.isNone * 2 ^ 30 + b2n e.shared * 2 ^ 31, e.tag]

/-- The poisoned ranges of an LD: pages marked poisoned in runs of one reason, the last recorded for each. -/
def poisonRanges (d : Dyn) (h : Nat) : List (Nat × Nat × Nat) :=
  let pgs := d.xlt.pt.cells.filterMap fun c =>
    if c.1 / 2 ^ 27 = h ∧ c.2.poison then
      let page := c.1 % 2 ^ 27
      some (page, aget 0 d.xlt.why c.1)
    else none
  pgs.foldr (fun p acc => match acc with
    | (lo, n, r) :: t => if p.1 + 1 = lo ∧ p.2 = r then (p.1, n + 1, r) :: t else (p.1, 1, p.2) :: acc
    | [] => [(p.1, 1, p.2)]) []

/-- The data of QUERY POISON. -/
def poisonData (d : Dyn) (h addr : Nat) : List Nat :=
  match nextRange (fun x => x.1) (fun x => x.2.1) (addr / 2097152) (poisonRanges d h) with
  | none => [0, 0, 0, 0]
  | some x => [x.1 * 2097152, x.2.1, x.2.2 % 256, 0]

/-- The data of QUERY PAGE: the top byte of the placement entry, and whether it has a twin. -/
def pageData (d : Dyn) (h addr : Nat) : List Nat :=
  let e := ptGet d h (addr / 2097152)
  [ptWord e / 2 ^ 56 % 256 + 256 * b2n (twGet d e.twin).v, 0, 0, 0]

/-- QUERY: the data of Table 9.8 (R327). -/
def execQuery (n : RingId) (idx : Nat) (s : State) : Host.Outcome State Fault Refusal :=
  nextDyn s fun g d => match entReady d n idx 8 with
    | none => d
    | some e =>
      let h := (ringGet d n).host
      let a := argAt e.w 0
      let data := match flagsOf e.w with
        | 0 => quotaData g d (n.val / 4) h
        | 1 => extentData g d h a
        | 2 => poisonData d h a
        | _ => pageData d h a
      entDone g n idx 0 0 data d

/-- One counter as PERF_READ writes it: value, then the timestamp of its read (R327, R501). -/
def perfOne (g : Cfg) (n : Nat) (die i : Nat) (slc : Bool) (d : Dyn) : List Nat × Dyn :=
  let w64 (x : Nat) : List Nat := [x % 2 ^ 32, x / 2 ^ 32 % 2 ^ 32]
  if slc then
    let k := n / 4 * 8 + i
    (w64 (aget 0 d.cnt.slc k + aget 0 d.cnt.slcO k * 2 ^ 63) ++ w64 (dieTs d (ringGet d n).die), d)
  else
    let p : Path := .perf ⟨(ringGet d n).die % 4, Nat.mod_lt _ (by decide)⟩
    let a := die * 2 ^ 28 + 0x2104000 + 8 * i
    let lo := csrRead g p false a 4 d
    let hi := csrRead g p false (a + 4) 4 lo.2
    ([lo.1, hi.1] ++ w64 (rd hi.2 .pmcRdTsNs die), hi.2)

/-- Several counters in turn. -/
def perfAll (g : Cfg) (n die : Nat) (slc : Bool) : List Nat → Dyn → List Nat × Dyn
  | [], d => ([], d)
  | i :: t, d =>
    let a := perfOne g n die i slc d
    let b := perfAll g n die slc t a.2
    (a.1 ++ b.1, b.2)

/-- PERF_READ: records of 16 B, one per counter, to host memory; NOT_PRIV without PMU_USER or privilege (R327). -/
def execPerfRead (n : RingId) (idx : Nat) (s : State) : Host.Outcome State Fault Refusal :=
  nextDyn s fun g d => match entReady d n idx 9 with
    | none => d
    | some e =>
      let r := ringGet d n
      let slc := flagsOf e.w == 0
      let first := bits (argAt e.w 0) 0 10
      let cnt := bits (argAt e.w 0) 16 11
      let die := bits (argAt e.w 0) 32 2
      if !(ringPriv g d n || (slc && cg g .pmcCtlPmuUser 0 == 1)) then entDone g n idx 0x19 0 [0] d
      else
        let x := perfAll g n die slc ((List.range cnt).map fun i => first + i) d
        entDone g n idx 0 0 [cnt] (hostPut g r.host (argAt e.w 1) x.1 x.2)

/-- AMEND: the bytes read from host memory are submitted as one amendment, the entry completing when it is applied or refused;
without privilege nothing is read; a failed read is HOST_ERR (R328, Table 9.9). -/
def execAmend (n : RingId) (idx : Nat) (a : Option Amendment) (s : State) : Host.Outcome State Fault Refusal :=
  nextDyn s fun g d => match entReady d n idx 10 with
    | none => d
    | some _ =>
      if !ringPriv g d n then entDone g n idx 0x19 0 [] d
      else match a with
        | none => entDone g n idx 0x14 0 [] d
        | some a => amdSubmit g a (.ring n idx) (setEnt n idx (fun e => { e with started := true }) d)

/-! ## Records and control blocks (R316, R332) -/

/-- RES_RETRY_US of a die in ns; 0 acts as 1 (RING.CTL). -/
def resRetryNs (g : Cfg) (die : Nat) : Nat := max 1 (cg g .ringCtlResRetryUs die) * 1000

/-- Rings of a slice that hold a record. -/
def slcHolds (d : Dyn) (sl : Nat) : Bool := [0, 1, 2, 3].any fun k => (ringGet d (4 * sl + k)).heldAt.isSome

/-- RESULT_RETRY: while a record is held the result ring's control block is read again every RES_RETRY_US (R332). -/
def execResultRetry (sl : Slc) (s : State) : Host.Outcome State Fault Refusal :=
  nextDyn s fun g d =>
    let q := resGet d sl
    let h := q.host
    let die := ((hostPort g d h).getD 0) / 48
    if q.on ∧ slcHolds d sl ∧ q.retryAt + resRetryNs g die ≤ d.now then readRes g h sl d else d

/-- RESULT_HELD: a ring has held a record for 1 ms: event 0x0602, once per hold (Table 9.13). -/
def execResultHeld (n : RingId) (s : State) : Host.Outcome State Fault Refusal :=
  nextDyn s fun _ d =>
    let r := ringGet d n
    match r.heldAt with
    | none => d
    | some t =>
      if !r.heldTold && t + 1000000 ≤ d.now then
        raise 0x0602 r.die [n.val / 4, n.val % 4, r.head] (ringSet n { r with heldTold := true } d)
      else d

/-- SW_STATE of a ring (Table 9.1): PHASE, STATE, ERRCODE in ERROR. -/
def swState (mark st err : Nat) : Nat := mark * 2 ^ 31 + st * 2 ^ 28 + (if st = 2 then err else 0) * 2 ^ 16

/-- CB_WRITE: HEAD, SW_STATE and ERR_INDEX of ring 0 to 3, or PROD of the result ring (4), with one posted write of 12 B, at most once a
µs, within 2 µs of a change (R316). -/
def execCbWrite (sl : Slc) (which : Fin 5) (s : State) : Host.Outcome State Fault Refusal :=
  nextDyn s fun g d =>
    if which.val = 4 then
      let q := resGet d sl
      let h := q.host
      if q.cbDirty ∧ q.cbAt + 1000 ≤ d.now then
        hostPut g h (q.rcba + 8) [q.prod, swState (expMark q.log2 q.prod) (b2n q.on) 0, 0]
          (resSet sl { q with cbDirty := false, cbAt := d.now } d)
      else d
    else
      let n := 4 * sl.val + which.val
      let r := ringGet d n
      if r.cbDirty ∧ r.cbAt + 1000 ≤ d.now then
        hostPut g r.host (r.rcba + 8) [r.head, swState (expMark r.log2 r.head) r.state r.err, r.ridx]
          (ringSet n { r with cbDirty := false, cbAt := d.now } d)
      else d

/-! ## Ring commands (R312, R334, Table 9.11) -/

/-- ENABLE of a ring: OFF to ACTIVE when RBASE is 4 KiB aligned and RCBA 64 B aligned, and its control block is read; else it stays OFF
with ERRCODE BAD_ALIGN (R312). -/
def ringEnable (g : Cfg) (h n : Nat) (d : Dyn) : Dyn :=
  let r := ringGet d n
  if r.state ≠ 0 then d
  else if r.rbase % 4096 ≠ 0 ∨ r.rcba % 64 ≠ 0 then ringSet n { r with err := 5 } d
  else
    let r := { r with state := 1, why := 0, err := 0, host := h, die := ((hostPort g d h).getD 0) / 48, taking := true
                      cbBusy := true, cbAgain := false, cbDirty := true, fetched := [], stale := [], ents := []
                      heldAt := none, heldTold := false, errPend := false, pollAt := d.now }
    hostSend g h (.hostRd h r.rcba 64) (ringSet n r d)

/-- ENABLE of a result ring: OFF to ACTIVE, its control block read. -/
def resEnable (g : Cfg) (h sl : Nat) (d : Dyn) : Dyn :=
  let q := resGet d sl
  if q.on || q.rbase % 4096 != 0 || q.rcba % 64 != 0 then d
  else readRes g h sl (resSet sl { q with on := true, host := h, closing := false, taking := true, cbDirty := true } d)

/-- DISABLE of a result ring: OFF, which counts as full (R332). -/
def resDisable (sl : Nat) (d : Dyn) : Dyn :=
  let q := resGet d sl
  if q.on then resSet sl { q with on := false, closing := false, cbBusy := false, taking := false, cbDirty := true } d else d

/-- DISABLE of a ring in ACTIVE or ERROR: HALTING with HALT_WHY 0 (Table 9.11). -/
def ringDisable (g : Cfg) (n : Nat) (d : Dyn) : Dyn :=
  if (ringGet d n).state = 1 ∨ (ringGet d n).state = 2 then ringHalt g n 0 d else d

/-- RESUME_RETRY: a ring in ERROR fetches the latched entry again and is ACTIVE (R334). -/
def ringRetry (g : Cfg) (n : Nat) (d : Dyn) : Dyn :=
  let r := ringGet d n
  if r.state ≠ 2 then d
  else
    let r := { r with state := 1, err := 0, errPend := false, cbDirty := true, fetched := r.fetched.filter fun f => f.idx != r.ridx
                      stale := r.stale.filter fun x => x.1 != r.ridx }
    readSlots g n (readRcb g n (ringSet n r d))

/-- RESUME_SKIP: a ring in ERROR completes the latched entry without effect, with its extension, and is ACTIVE (R334). -/
def ringSkip (g : Cfg) (n : Nat) (d : Dyn) : Dyn :=
  let r := ringGet d n
  if r.state ≠ 2 then d
  else
    let w := ((fetchedAt r r.ridx).bind Fetched.w).getD []
    let k := if twoSlot r w then 2 else 1
    let e : RingEnt := ⟨r.ridx, k, w, [], true, true, true, 0, 0, [], none⟩
    let past (i : Nat) : Bool := i == r.ridx || (k == 2 && i == idxAdd r.ridx 1)
    let r := { r with state := 1, err := 0, errPend := false, cbDirty := true, disp := idxAdd r.ridx k, ents := r.ents ++ [e]
                      fetched := r.fetched.filter fun f => !past f.idx, stale := r.stale.filter fun x => !past x.1 }
    let d := ringSettle g n (ringSet n r d)
    readSlots g n (readRcb g n d)

/-- ENABLE: a write of 0x1 to RCMD of ring 0 to 3 or of the result ring (4) (R312, R335). -/
def execEnable (h : Host) (sl : Slc) (which : Fin 5) (s : State) : Host.Outcome State Fault Refusal :=
  nextDyn s fun g d => pageWrite g h sl
    (if which.val = 4 then resEnable g h sl else ringEnable g h (4 * sl.val + which.val)) d

/-- DISABLE: a write of 0x2 to RCMD (R334, Table 9.11). -/
def execDisable (h : Host) (sl : Slc) (which : Fin 5) (s : State) : Host.Outcome State Fault Refusal :=
  nextDyn s fun g d => pageWrite g h sl (if which.val = 4 then resDisable sl else ringDisable g (4 * sl.val + which.val)) d

/-- RESUME_SKIP: a write of 0x3 to RCMD (R334). -/
def execResumeSkip (h : Host) (sl : Slc) (k : Fin 4) (s : State) : Host.Outcome State Fault Refusal :=
  nextDyn s fun g d => pageWrite g h sl (ringSkip g (4 * sl.val + k.val)) d

/-- RESUME_RETRY: a write of 0x4 to RCMD (R334). -/
def execResumeRetry (h : Host) (sl : Slc) (k : Fin 4) (s : State) : Host.Outcome State Fault Refusal :=
  nextDyn s fun g d => pageWrite g h sl (ringRetry g (4 * sl.val + k.val)) d

/-! ## The FCF's BARs (R72 to R74, R506) -/

/-- The 64-bit registers of a doorbell page, RBASE and RCBA of its rings and its result ring, whose high words go through the path's latch
(R7). -/
def pageWide (off : Nat) : Bool := decide (0x100 ≤ off) && decide (off < 0x240) && decide (off % 0x40 < 16)

/-- The word a doorbell page reads at an offset: ring blocks and the result ring block; doorbells and RCMD are write only. -/
def pageRead (d : Dyn) (sl off : Nat) : Nat :=
  let w64 (x o : Nat) : Nat := if o % 8 < 4 then x % 2 ^ 32 else x / 2 ^ 32 % 2 ^ 32
  if 0x100 ≤ off ∧ off < 0x200 then
    let r := ringGet d (4 * sl + (off - 0x100) / 0x40)
    match off % 0x40 / 4 with
    | 0 | 1 => w64 r.rbase off
    | 2 | 3 => w64 r.rcba off
    | 4 => rcfgWord r
    | 5 => rstsWord r
    | 7 => r.ridx
    | _ => 0
  else if 0x200 ≤ off ∧ off < 0x240 then
    let q := resGet d sl
    match off % 0x40 / 4 with
    | 0 | 1 => w64 q.rbase off
    | 2 | 3 => w64 q.rcba off
    | 4 => resCfgWord q
    | 5 => resStsWord q
    | _ => 0
  else 0

/-- One word of a 64-bit register replaced; the low six bits stay 0 (RBASE, RCBA). -/
def putHalf (x v : Nat) (hi : Bool) : Nat := (if hi then x % 2 ^ 32 + v * 2 ^ 32 else x / 2 ^ 32 * 2 ^ 32 + v) / 64 * 64

/-- LOG2SIZE as RCFG keeps it. -/
def cfgLog (v : Nat) : Nat := bits v 16 5

/-- A write inside a doorbell page: doorbells, registers of a ring that is OFF, and RCMD; one that is not aligned falls on no register
(R6, R72, R330, R334). -/
def pageStore (g : Cfg) (h sl off v : Nat) (d : Dyn) : Dyn :=
  if off % 4 ≠ 0 then d
  else if off < 0x10 then ringBell g (4 * sl + off / 4) d
  else if off = 0x10 then resBell g h sl d
  else if 0x100 ≤ off ∧ off < 0x200 then
    let n := 4 * sl + (off - 0x100) / 0x40
    let r := ringGet d n
    let off1 := r.state == 0
    match off % 0x40 / 4 with
    | 0 => if off1 then ringSet n { r with rbase := putHalf r.rbase v false } d else d
    | 1 => if off1 then ringSet n { r with rbase := putHalf r.rbase v true } d else d
    | 2 => if off1 then ringSet n { r with rcba := putHalf r.rcba v false } d else d
    | 3 => if off1 then ringSet n { r with rcba := putHalf r.rcba v true } d else d
    | 4 => if off1 then ringSet n { r with irqMode := bits v 30 2, vec := bits v 24 6, log2 := cfgLog v, ver := bits v 15 1,
                                           poll := bits v 0 14 } d else d
    | 6 => match v % 16 with
      | 1 => ringEnable g h n d
      | 2 => ringDisable g n d
      | 3 => ringSkip g n d
      | 4 => ringRetry g n d
      | _ => d
    | _ => d
  else if 0x200 ≤ off ∧ off < 0x240 then
    let q := resGet d sl
    let off1 := !q.on
    match off % 0x40 / 4 with
    | 0 => if off1 then resSet sl { q with rbase := putHalf q.rbase v false } d else d
    | 1 => if off1 then resSet sl { q with rbase := putHalf q.rbase v true } d else d
    | 2 => if off1 then resSet sl { q with rcba := putHalf q.rcba v false } d else d
    | 3 => if off1 then resSet sl { q with rcba := putHalf q.rcba v true } d else d
    | 4 => if off1 then resSet sl { q with irqMode := bits v 30 2, vec := bits v 24 6, log2 := cfgLog v } d else d
    | 6 => match v % 16 with
      | 1 => resEnable g h sl d
      | 2 => resDisable sl d
      | _ => d
    | _ => d
  else d

/-- A word of BAR2: slice counter j at 0x100 s + 0x10 j, bits [47:0] the count and bit 63 the OVF, when PMU_USER = 1 and the host owns the
slice; else 0; the high word through the host's latch (R7, R74, R506). -/
def bar2Word (g : Cfg) (h : Host) (off : Nat) (d : Dyn) : Dyn :=
    let sl := off / 256
    let j := off % 256 / 16
    let k := sl * 8 + j
    let mine := cg g .pmcCtlPmuUser 0 == 1 && decide (sl < 4096) && owns (qCfg g d) d h sl && decide (j < 8)
    let v := if mine then aget 0 d.cnt.slc k + aget 0 d.cnt.slcO k * 2 ^ 63 else 0
    let key := 2 ^ 80 + k
    if mine && (off % 16 == 0 || off % 16 == 4) then
      let r := pairRead (.fcf h) key v (off % 16 == 4) d
      emit (.csrData (.fcf h) [r.1]) r.2
    else emit (.csrData (.fcf h) [0]) d

/-- A word of BAR4 that does not change: the CXL device register capability array with its two entries, and the payload size of the
primary mailbox (Table 2.6; offsets and layout PRESUMED, assumption 139). -/
def bar4Fixed (o : Nat) : Nat :=
  match o with
  | 0x00 => 0x10000
  | 0x04 => 2
  | 0x10 => 0x10001
  | 0x14 => 0x100
  | 0x18 => 8
  | 0x20 => 0x10002
  | 0x24 => 0x200
  | 0x28 => 0x1020
  | 0x200 => 12
  | _ => 0

/-- A BAR4 word that the host writes: mailbox control, command and payload. -/
def bar4Writes (o : Nat) : Bool := o == 0x204 || o == 0x208 || o == 0x20C || (decide (0x220 ≤ o) && decide (o < 0x1220))

/-- BAR4: the device status reads ready, the mailbox's command and payload words hold what the host wrote; the doorbell bit of its control
reads 0, a command being a row of its own (R72, R75, Table 2.6; assumption 139). -/
def bar4Access (h o : Nat) (v : Option Word) (d : Dyn) : Dyn :=
  let k := h * 2048 + (o - 0x200) / 4
  match v with
  | some x =>
    if o % 4 = 0 ∧ bar4Writes o then
      { d with port := { d.port with mbox := aset 0 d.port.mbox k (if o = 0x204 then x.toNat / 2 * 2 else x.toNat) } }
    else d
  | none => emit (.csrData (.fcf ⟨h % 128, Nat.mod_lt _ (by decide)⟩) [if o % 4 ≠ 0 then 0 else if bar4Writes o then aget 0 d.port.mbox k else bar4Fixed o]) d

/-- FCF_BAR_ACCESS: an access of a host to a BAR of its Fresen Control Function: BAR0 holds the doorbell pages, a page of a slice it
does not own is inert and its writes count; BAR2 the counter window; BAR4 the device registers; an access to no implemented register
reads 0 and writes nothing (R72, R73, R74, R311). A TLP of a selective IDE stream (`sel`) gets Unsupported Request where a completion is
owed (R79). -/
def execFcfBarAccess (h : Host) (bar : Fin 6) (off : Nat) (v : Option Word) (sel : Bool) (s : State) :
    Host.Outcome State Fault Refusal :=
  nextDyn s fun g d =>
    if sel then (if v.isSome then d else emit (.fcfUr h) d)
    else if bar.val = 2 then (if v.isSome then d else bar2Word g h off d)
    else if bar.val = 4 then bar4Access h (off % 65536) v d
    else
    let sl := off / 4096
    let o := off % 4096
    let mine := owns (qCfg g d) d h sl
    match v with
    | some x => if bar.val = 0 ∧ sl < 4096 then pageWrite g h sl (pageStore g h sl o x.toNat) d else d
    | none =>
      if bar.val = 0 ∧ sl < 4096 ∧ mine ∧ o % 4 = 0 then
        if pageWide o then
          let lo := o / 8 * 8
          let r := pairRead (.fcf h) (2 ^ 81 + sl * 4096 + lo) (pageRead d sl lo + 2 ^ 32 * pageRead d sl (lo + 4)) (o % 8 == 4) d
          emit (.csrData (.fcf h) [r.1]) r.2
        else emit (.csrData (.fcf h) [pageRead d sl o]) d
      else emit (.csrData (.fcf h) [0]) d

/-- BAR2_READ: a read of the counter window (R506). -/
def execBar2Read (h : Host) (off : Nat) (s : State) : Host.Outcome State Fault Refusal := nextDyn s fun g d => bar2Word g h off d

end Machine
end Sys2Proof
end

