-- ==== Sys2Proof/Machine/Fw.lean ====
section
/-! DEFINITION. Firmware activation, and what a grant of the maintenance arbiter sets going at once (R447, R462 to R464, R484). -/

namespace Sys2Proof
namespace Machine

/-! ## ACTIVATE (R462) -/

/-- Change the running activation. -/
def fwSet (f : Option FwRun) (d : Dyn) : Dyn := { d with boot := { d.boot with fw := f } }

/-- An activation ends without its effect: RESULT refused (2) or abandoned (3), event 0x0B0A, Invalid Input with the RESULT as DETAIL
(R462, R518). -/
def fwRefuse (p : Path) (result : Nat) (d : Dyn) : Dyn :=
  let d := put .secFwStsResult 0 result (bgEnd p (fwSet none d))
  cmdRefuse p 0xC043 rcInvalid result (raise 0x0B0A (leadOr0 d) [result] d)

/-- ACTIVATE asks: a staged image whose register records keep every RWL field at its value, and flash to write to; then the arbiter is
asked for a firmware handover, which supply sag withholds (R448, R462, R487). -/
def fwAsk (g : Cfg) (p : Path) (d : Dyn) : Dyn :=
  match d.boot.staged with
  | none => fwRefuse p 2 d
  | some (m, b) =>
    if rd d .secFwStsStagedOk 0 = 0 ∨ (flashSource d).isNone ∨ !recsKeepRwl g d m.regs then fwRefuse p 2 d
    else
      let x := arbAsk (actReq 6 [] []) 0 d
      fwSet (some ⟨p, x.1, m, b, 0, leadOr0 d, []⟩) (put .secFwStsResult 0 0 x.2)

/-- The grant of a firmware handover: the BASE record of the new slot is written, whose commit is the commit of the activation (R463
step 1). -/
def fwGranted (d : Dyn) : Dyn :=
  match d.boot.fw with
  | some f =>
    if f.step = 0 ∧ granted d f.act ∧ !(d.boot.nvq.any fun r => r == .log (.base f.slotB f.img.digest)) then
      nvPut (.log (.base f.slotB f.img.digest)) d
    else d
  | none => d

/-- A lost link's reconfiguration runs, for which an activation pauses between its steps (R486). -/
def fwPaused (d : Dyn) : Bool := d.hlth.running.any fun a => a.q.code == 5 && a.q.lostLink

/-- The BASE record of an activation commits: STATE 2 (R463 step 1). -/
def fwCommit (b : Bool) (dg : Nat) (d : Dyn) : Dyn :=
  match d.boot.fw with
  | some f => if f.step = 0 ∧ f.slotB = b ∧ f.img.digest = dg then put .secFwStsState 0 2 (fwSet (some { f with step := 1 }) d) else d
  | none => d

/-- A die's management complex loads the new firmware: its Ranger locks (R524). -/
def fwLoad (k : Nat) (d : Dyn) : Dyn := monLock k d

/-- Step 2: the standby's complex loads the new firmware and starts, and the planned handover begins: STATE 3, accesses to the global alias
are held (R10, R463 step 3). Without a standby the lead stays. -/
def fwStandby (d : Dyn) : Dyn :=
  match d.boot.fw with
  | some f =>
    if f.step ≠ 1 ∨ fwPaused d then d
    else
      let d := match standbyDie d with
        | some k => put .secFwStsState 0 3 (fwLoad k { d with mgmt := { d.mgmt with moving := true } })
        | none => d
      fwSet (some { f with step := 2 }) d
  | none => d

/-- The next die to reload begins: accesses to its window wait (R463 step 4). -/
def fwNext (d : Dyn) : Dyn :=
  match d.boot.fw with
  | some f => { d with mgmt := { d.mgmt with reload := f.todo.take 1 } }
  | none => d

/-- The healthy dies but one, in die order, with the old lead last. -/
def fwOthers (d : Dyn) (new old : Nat) : List Nat :=
  let l := (List.range 4).filter fun k => k != new && dieHealthy d k
  (l.filter fun k => k != old) ++ l.filter fun k => k == old

/-- Step 3: lead passes to the standby by planned handover; a new standby follows R27; then the other dies reload, the old lead last
(R463). -/
def fwHandover (g : Cfg) (d : Dyn) : Dyn :=
  match d.boot.fw with
  | some f =>
    if f.step ≠ 2 then d
    else
      let old := leadOr0 d
      let d := { d with mgmt := { d.mgmt with moving := false } }
      match standbyDie d with
      | some k =>
        let d := setStandby g k (setLead k d)
        let d := put .secFwStsNewLead 0 k (put .secFwStsState 0 4 d)
        let d := { d with hlth := { d.hlth with hbLead := d.now, hbWord := d.now, hbAns := d.now } }
        fwNext (fwSet (some { f with step := 3, todo := fwOthers d k old }) d)
      | none =>
        let d := put .secFwStsNewLead 0 old (put .secFwStsState 0 4 d)
        fwNext (fwSet (some { f with step := 3, todo := [old] }) d)
  | none => d

/-- Steps 5 and 6: the new image's values and policy take effect, amendments of the old image are not carried over, and the
measurements change; the grant is released and event 0x0B09 raised (R463, R469). LAST_SEQ counts from 0 again (assumption 73). -/
def fwEnd (f : FwRun) (s : Cfg × Dyn) : Cfg × Dyn :=
  let pol := if hasSect f.img.sects 2 then f.img.policy else ⟨[], []⟩
  let s := amdEffect f.img.regs pol [] s
  let m := f.img
  let d := s.2
  let d := put .secImgSeqSeq 0 m.seq (put .secImgVerMajor 0 m.verMajor (put .secImgVerMinor 0 m.verMinor d))
  let d := put .secImgVerSvn 0 m.svn (put .secBootStsSlot 0 (b2n f.slotB) (put .secAmdStsLastSeq 0 0 d))
  let d := { d with boot := { d.boot with image := some m, staged := none, chain := [], fw := none },
                    mgmt := { d.mgmt with reload := [] } }
  let d := put .secFwStsStagedOk 0 0 (put .secFwStsState 0 5 (put .secFwStsResult 0 1 d))
  let d := raise 0x0B09 (leadOr0 d) [m.seq] (arbFree f.act d)
  (s.1, cmdDone f.path 0xC043 [] (bgEnd f.path d))

/-- Step 4: a die ends its reload, and the next begins; after the last one the activation ends (R463). -/
def fwReloaded (k : Nat) (s : Cfg × Dyn) : Cfg × Dyn :=
  match s.2.boot.fw with
  | some f =>
    if f.step ≠ 3 ∨ fwPaused s.2 ∨ f.todo.head? ≠ some k then s
    else
      let d := fwLoad k s.2
      let f := { f with todo := f.todo.drop 1 }
      if f.todo.isEmpty then fwEnd f (s.1, d) else (s.1, fwNext (fwSet (some f) d))
  | none => s

/-- A die fails during an activation: failover does its part, and the steps not yet run go on with the surviving dies (R464). A
failover to the standby that runs the new firmware stands for the handover. -/
def fwDies (d : Dyn) : Dyn :=
  match d.boot.fw with
  | some f =>
    if f.step = 2 ∧ leadDie d ≠ some f.lead0 then
      match leadDie d with
      | some k =>
        let d := put .secFwStsNewLead 0 k (put .secFwStsState 0 4 d)
        fwNext (fwSet (some { f with step := 3, todo := fwOthers d k f.lead0 }) d)
      | none => d
    else if f.step = 3 then fwNext (fwSet (some { f with todo := f.todo.filter fun k => dieHealthy d k }) d)
    else d
  | none => d

/-- An activation whose last reloading die failed ends (R464). -/
def fwRest (s : Cfg × Dyn) : Cfg × Dyn :=
  match s.2.boot.fw with
  | some f => if f.step = 3 ∧ f.todo.isEmpty then fwEnd f s else s
  | none => s

/-! ## Image transfer (R445, R462, R466, R517) -/

/-- The slot not named by the last BASE record; slot A when no record names one (assumption 74). -/
def otherSlot (d : Dyn) : Bool := !(logBase (logOf d)).getD true

/-- IMG_XFER_START opens the slot not named by the last BASE record; a staged image there is given up (R517). -/
def xferStart (p : Path) (d : Dyn) : Dyn :=
  if (flashSource d).isNone || d.boot.fw.isSome then cmdRefuse p 0xC040 rcInvalid 0 d
  else
    let d := { d with boot := { d.boot with xfer := some ⟨otherSlot d, 0⟩, staged := none } }
    cmdDone p 0xC040 [] (put .secFwStsStagedOk 0 0 (put .secFwStsState 0 0 d))

/-- IMG_XFER_DATA writes up to 4,064 B at an offset of the open slot; what the slot held no longer verifies (R517). -/
def xferData (p : Path) (off len : Nat) (d : Dyn) : Dyn :=
  if rd d .nvmSagStsSag 0 = 1 then mgmtReply p 0xC041 rcBusy 0 [] d
  else match d.boot.xfer with
    | none => cmdRefuse p 0xC041 rcInvalid 0 d
    | some x =>
      if (flashSource d).isNone ∨ len = 0 ∨ 4064 < len ∨ 25165824 < off + len then cmdRefuse p 0xC041 rcInvalid 0 d
      else
        let upto := if off ≤ x.upto then max x.upto (off + len) else x.upto
        let d := { d with boot := { d.boot with xfer := some { x with upto := upto } } }
        let d := match flashSource d with
          | some k => match d.boot.flash[k]? with
            | some f => slotWrite x.slotB { slotImage f x.slotB with headerGood := false } d
            | none => d
          | none => d
        cmdDone p 0xC041 [] d

/-- IMG_XFER_END: the image now in the slot is verified under R450 and R451 with a SEQ above the running one, and STAGED_OK set
(R462, R517). -/
def xferEnd (p : Path) (m : Image) (d : Dyn) : Dyn :=
  if rd d .nvmSagStsSag 0 = 1 then mgmtReply p 0xC042 rcBusy 0 [] d
  else match d.boot.xfer with
    | none => cmdRefuse p 0xC042 rcInvalid 0 d
    | some x =>
      if (flashSource d).isNone then cmdRefuse p 0xC042 rcInvalid 0 d
      else
        let d := slotWrite x.slotB m { d with boot := { d.boot with xfer := none } }
        if decide (m.bodyLen + 5361 ≤ x.upto) && imgGood d m && decide (rd d .secImgSeqSeq 0 < m.seq) then
          let d := { d with boot := { d.boot with staged := some (m, x.slotB) } }
          cmdDone p 0xC042 [] (put .secFwStsStagedOk 0 1 (put .secFwStsState 0 1 d))
        else cmdRefuse p 0xC042 rcInvalid 0 (if imgLayout m then sigTell m.sig m.seq d else d)

/-! ## Grants that act at once -/

/-- Activities that begin with their grant: amendments, activations, slot cycles and lane swaps (R371, R435, R456, R462, R484). -/
def serveGrants (g : Cfg) (d : Dyn) : Dyn :=
  let d := fwGranted (amdGranted g d)
  let d := forAll (d.slot.cells.map Prod.fst) (fun n d => cycleGo g n d) d
  forAll (d.gkl.cells.map Prod.fst) (fun n d => swapStart n d) d

end Machine
end Sys2Proof
end

