-- ==== Sys2Proof/Machine/Mgmt.lean ====
section
/-! DEFINITION. The command set of the mailboxes, MCTP and I3C: which path may send what, session versions, the lead's queue, the
vendor commands and the FM API commands (R509 to R520). -/

namespace Sys2Proof
namespace Machine

/-! ## Paths and sessions (R513, R516, R517, R520) -/

/-- A path reaches the lead: a mailbox while its host's link is up, MCTP from MCTP_VCS while enabled, I3C while enabled; none in
RECOVERY (Table 18.2, R513, R520). -/
def pathOpen (g : Cfg) (d : Dyn) (p : Path) : Bool :=
  !inRecovery d && match p with
  | .fcf h => hostUp g d h
  | .mctp v _ => cg g .mgmtPathCtlMctpEn 0 == 1 && cg g .mgmtPathCtlMctpVcs 0 == v.val
  | .i3c k => cg g .mgmtPathCtlI3cEn k.val == 1
  | .ranger _ | .perf _ => false

/-- MCTP from another VCS than MCTP_VCS, which is discarded and counted (R513). -/
def mctpStray (g : Cfg) (p : Path) : Bool :=
  match p with
  | .mctp v _ => cg g .mgmtPathCtlMctpEn 0 == 1 && cg g .mgmtPathCtlMctpVcs 0 != v.val
  | _ => false

/-- A path is a host's mailbox. -/
def isFcf (p : Path) : Bool := (pathHost p).isSome

/-- The session version of a path, 1 at first (R516). -/
def sessOf (d : Dyn) (p : Path) : Nat := ((d.mgmt.sess.find? fun x => x.1 == p).map Prod.snd).getD 1

/-- Set the session version of a path. -/
def sessSet (p : Path) (v : Nat) (d : Dyn) : Dyn :=
  { d with mgmt := { d.mgmt with sess := (d.mgmt.sess.filter fun x => x.1 != p) ++ [(p, v)] } }

/-- The session of a path ends: the next begins at version 1 (R516). -/
def sessEnd (p : Path) (d : Dyn) : Dyn := { d with mgmt := { d.mgmt with sess := d.mgmt.sess.filter fun x => x.1 != p } }

/-- Opcode of a command (Table 18.3, R515); CSR accesses through the alias have none. -/
def opcode (c : MCmd) : Nat :=
  match c with
  | .getVersion _ => 0xC000 | .identify => 0xC001 | .csrRead _ _ _ => 0xC010 | .csrWrite _ _ => 0xC011 | .events _ _ => 0xC020
  | .submit _ => 0xC030 | .xferStart => 0xC040 | .xferData _ _ => 0xC041 | .xferEnd _ => 0xC042 | .activate => 0xC043
  | .quar _ true => 0xC050 | .quar _ false => 0xC051 | .fmSwitch => 0x5100 | .fmPort _ => 0x5101 | .fmVcs _ => 0x5200
  | .fmOther op => op | .word _ _ _ => 0

/-- The "since" version of a command (Table 18.3); the PEEK flag is of version 2. -/
def since (c : MCmd) : Nat :=
  match c with
  | .csrRead _ _ true | .xferStart | .xferData _ _ | .xferEnd _ | .activate => 2
  | .quar _ _ => 3
  | _ => 1

/-- A command that Table 18.3 does not list for a mailbox. -/
def notOnFcf (c : MCmd) : Bool :=
  match c with
  | .csrRead _ _ _ | .csrWrite _ _ | .xferStart | .xferData _ _ | .xferEnd _ | .activate | .quar _ _ => true
  | _ => false

/-! ## Events by host (R514) -/

/-- Where a record of an event code carries a host ID or the LD of one. -/
def evHostAt (code : Nat) : Option Nat :=
  match code with
  | 0x0101 | 0x0102 | 0x0103 | 0x0104 | 0x0105 | 0x0201 | 0x0203 | 0x0206 | 0x0301 | 0x0302 | 0x0501 => some 1
  | 0x0109 | 0x0202 | 0x0207 | 0x0303 | 0x0304 | 0x0305 | 0x0401 | 0x0402 | 0x0403 | 0x0404 | 0x0405 | 0x0406 | 0x040E => some 0
  | 0x040C | 0x040D => some 2
  | 0x0E01 => some 3
  | _ => none

/-- Where a record carries a slice. -/
def evSliceAt (code : Nat) : Option Nat :=
  match code with
  | 0x0401 | 0x0402 => some 1
  | 0x0601 | 0x0602 | 0x0603 | 0x0604 | 0x0605 | 0x0D02 => some 0
  | _ => none

/-- A record carries a host's ID or the number of a slice it owns (R514). -/
def evFor (g : Cfg) (d : Dyn) (h : Nat) (e : Ev) : Bool :=
  ((evHostAt e.code).bind fun i => e.args[i]?) == some h
    || match (evSliceAt e.code).bind fun i => e.args[i]? with
      | some s => owns (qCfg g d) d h s
      | none => false

/-- The words a record is returned as: code and die, timestamp, its fields (R12, R493; assumption 72). -/
def evWords (e : Ev) : List Nat := [e.code + e.die * 65536, e.ts % 2 ^ 32, e.ts / 2 ^ 32] ++ e.args

/-- Records up to one payload of 4 KiB less the DETAIL word (assumption 72). -/
def evPayload : Nat → List Ev → List Nat
  | _, [] => []
  | room, e :: t => let w := evWords e; if w.length ≤ room then w ++ evPayload (room - w.length) t else []

/-! ## What the commands do -/

/-- A number as two words, low word first. -/
def words64 (x : Nat) : List Nat := [x % 2 ^ 32, x / 2 ^ 32 % 2 ^ 32]

/-- IDENTIFY: stepping, package ID, lead die, running image SEQ, LAST_SEQ, READY_NS (Table 18.3). -/
def identWords (d : Dyn) : List Nat :=
  [rd d .dieDieIdStep 0, ownPkg d, leadOr0 d] ++ words64 (rd d .secImgSeqSeq 0) ++ [rd d .secAmdStsLastSeq 0]
    ++ words64 (rd d .secReadyNsNs 0)

/-- Bits of a list of numbers below 32 * n, as n words. -/
def bitWords (n : Nat) (l : List Nat) : List Nat :=
  (List.range n).map fun k => ((List.range 32).filter fun i => l.contains (32 * k + i)).foldl (fun m i => m + 2 ^ i) 0

/-- Identify Switch Device: ports, VCSs and vPPBs, with those in use (R515; the layout is CXL's, assumption 75). -/
def switchWords (g : Cfg) (d : Dyn) : List Nat :=
  let ports := (List.range 192).filter fun lp => lpExists g lp
  let up := ports.filter fun lp => lpLinkUp d lp
  [ports.length, d.port.vcs.length, d.alloc.bnds.length, (d.alloc.bnds.filter fun b => b.present).length]
    ++ bitWords 6 up ++ bitWords 4 d.port.vcs

/-- Get Physical Port State of a logical port: role, link state and what has trained (R515; assumption 75). -/
def portWords (g : Cfg) (d : Dyn) (lp : Nat) : List Nat :=
  [lp, lpRole g d lp, rd d .portLstsLinkUp lp, rd d .portLstsPrsnt lp, rd d .portLstsWidth lp, rd d .portLstsSpeed lp,
   rd d .portLstsCxlVer lp, rd d .portLstsMld lp, rd d .portLstsContained lp]

/-- Get Virtual CXL Switch Info of a VCS: its upstream port and its 32 vPPBs, each bound or not, its port and LD-ID, its link and its slot
(R60, R63, R66, R515; assumption 75). -/
def vcsWords (g : Cfg) (d : Dyn) (v : Nat) : List Nat :=
  [v, b2n (d.port.vcs.contains v), (hostPort g d v).getD 255, 32] ++ (List.range 32).flatMap fun k =>
    let b := d.alloc.bnds.find? fun b => b.vcs == v && b.vppb == k
    let bound := if k = 0 then hasLd g d v else (b.map Bnd.present).getD false
    [k, b2n bound, (b.map Bnd.lport).getD 255, (b.map Bnd.ldId).getD 255] ++ (vppbView g d v k).take 2

/-- Answer Busy, which is no refusal (R510, R518). -/
def cmdBusy (p : Path) (c : MCmd) (d : Dyn) : Dyn := mgmtReply p (opcode c) rcBusy 0 [] d

/-- A background command starts on a path, which runs one at a time (R518). -/
def bgStart (p : Path) (c : MCmd) (f : Dyn → Dyn) (d : Dyn) : Dyn :=
  if d.mgmt.bg.contains p then cmdBusy p c d
  else f (mgmtReply p (opcode c) 1 0 [] { d with mgmt := { d.mgmt with bg := d.mgmt.bg ++ [p] } })

/-- An FM API command answered Unsupported (R515). -/
def fmNo (p : Path) (op : Nat) (d : Dyn) : Dyn := mgmtReply p op rcUnsupported 0 [] d

/-- A mailbox asks only after its own host's VCS and ports (R514). -/
def fcfOther (p : Path) (v : Option Nat) : Bool :=
  match pathHost p with
  | some h => v != some h
  | none => false

/-- A logical port is none of a mailbox's own VCS: neither its upstream port nor one with a binding to it (R514). -/
def fcfFar (g : Cfg) (d : Dyn) (p : Path) (lp : Nat) : Bool :=
  match pathHost p with
  | some h => !(isUp g d lp && cg g .portLpcfgVcs lp == h) && !(d.alloc.bnds.any fun b => b.lport == lp && b.vcs == h)
  | none => false

/-- One command served by the lead's management complex (R510 to R518). -/
def mgmtServe (g : Cfg) (p : Path) (c : MCmd) (d : Dyn) : Dyn :=
  match c with
  | .getVersion n => if n = 0 then cmdRefuse p 0xC000 rcInvalid 0 d
      else let v := min n 3; cmdDone p 0xC000 [v, 1, 3] (journalNote (sessSet p v d))
  | .identify => cmdDone p 0xC001 (identWords d) d
  | .csrRead a n peek => if n = 0 ∨ 256 < n then cmdRefuse p 0xC010 rcInvalid 0 d
      else let r := csrReads g p peek a n d; cmdDone p 0xC010 r.1 r.2
  | .csrWrite a vs => if vs.length = 0 ∨ 256 < vs.length then cmdRefuse p 0xC011 rcInvalid 0 d
      else cmdDone p 0xC011 [] (journalNote (csrWrites g p a vs d))
  | .events t flash =>
      let l := (if flash then d.hlth.elog else d.ev).filter fun e => decide (t ≤ e.ts)
      let l := match pathHost p with
        | some h => l.filter (evFor g d h)
        | none => l
      cmdDone p 0xC020 (evPayload 1023 l) d
  | .submit a => if rd d .nvmSagStsSag 0 = 1 ∨ 32 ≤ d.boot.amdq.length then cmdBusy p c d else bgStart p c (amdSubmit g a (.path p)) d
  | .xferStart => xferStart p (journalNote d)
  | .xferData off n => xferData p off n (journalNote d)
  | .xferEnd m => if d.mgmt.bg.contains p then cmdBusy p c d else xferEnd p m (journalNote d)
  | .activate => if d.boot.fw.isSome then cmdBusy p c d
      else bgStart p c (fun d => fwGranted (fwAsk g p (journalNote d))) d
  | .quar h restore => if hostState d h = 2 then
        cmdDone p (opcode c) [] (if restore then restoreHost g h (journalNote d) else reclaimHost g h (journalNote d))
      else cmdRefuse p (opcode c) rcInvalid 0 d
  | .fmSwitch => cmdDone p 0x5100 (switchWords g d) d
  | .fmPort lp => if 192 ≤ lp ∨ fcfFar g d p lp then mgmtReply p 0x5101 rcInvalid 0 [] d
      else cmdDone p 0x5101 (portWords g d lp) d
  | .fmVcs v => if fcfOther p (some v) then mgmtReply p 0x5200 rcInvalid 0 [] d else cmdDone p 0x5200 (vcsWords g d v) d
  | .fmOther op => fmNo p op d
  | .word a n v => wordRun g p a n v d

/-- A command above the session's version, or on a path that does not carry it, is Unsupported and counted (R517). -/
def mgmtRun (g : Cfg) (p : Path) (c : MCmd) (d : Dyn) : Dyn :=
  if sessOf d p < since c || (isFcf p && notOnFcf c) then
    mgmtReply p (opcode c) rcUnsupported 0 [] (bump .mgmtCmdCntRefused (leadOr0 d) 1 d)
  else mgmtServe g p c d

/-! ## The queue (R10, R510 to R512) -/

/-- A command waits: during a handover or failover; for a die that reloads its firmware or a domain that wakes; a CSR_WRITE while an
amendment is applied (R10, R463, R511, R512). -/
def cmdWaits (g : Cfg) (d : Dyn) (c : MCmd) : Bool :=
  match c with
  | .word a _ _ => accessWaits g d a
  | .csrWrite a _ => d.mgmt.moving || accessWaits g d a || (d.boot.amd.any fun r => r.phase == 3)
  | _ => d.mgmt.moving || (cmdAddr c).any fun a => accessWaits g d a

/-- The lead's management complex at work on a command, out of IDLE (R16). -/
def mgmtOn (d : Dyn) : Dyn := ungate (180 + leadOr0 d) d

/-- A command arrives by a path: discarded where the path is closed, Busy with 32 commands queued, kept while it must wait, else served
(R510, R512, R513). -/
def mgmtCmd (g : Cfg) (p : Path) (c : MCmd) (d : Dyn) : Dyn :=
  if mctpStray g p then bump .mgmtCmdCntRefused (leadOr0 d) 1 d
  else if !pathOpen g d p then d
  else
  let d := mgmtOn d
  if cmdWaits g d c then (if 32 ≤ d.mgmt.held.length then cmdBusy p c d else holdCmd g p c d)
  else mgmtRun g p c d

/-- Serve a command that was kept: vendor commands by their rules, single accesses as accesses. -/
def heldServe (g : Cfg) (x : HeldCmd) (d : Dyn) : Dyn :=
  match x.cmd with
  | .word a n v => wordRun g x.path a n v d
  | c => mgmtRun g x.path c d

/-- Serve the commands that were kept, in order; those that still wait stay (R10, R511, R512). -/
def heldRun (g : Cfg) (d : Dyn) : Dyn :=
  let l := d.mgmt.held
  forAll l (fun x d => if cmdWaits g d x.cmd then { d with mgmt := { d.mgmt with held := d.mgmt.held ++ [x] } } else heldServe g x d)
    { d with mgmt := { d.mgmt with held := [] } }

/-! ## Commands -/

/-- GET_VERSION: the session version becomes the lower of CLIENT_MAX and 3; 0 is Invalid Input (R516). -/
def execGetVersion (p : Path) (cmax : Fin 65536) (s : State) : Host.Outcome State Fault Refusal :=
  nextDyn s fun g d => mgmtCmd g p (.getVersion cmax) d

/-- IDENTIFY (R517, Table 18.3). -/
def execIdentify (p : Path) (s : State) : Host.Outcome State Fault Refusal := nextDyn s fun g d => mgmtCmd g p .identify d

/-- CSR_READ: 1 to 256 consecutive words, with PEEK from version 2 (R517). -/
def execCsrRead (p : Path) (addr n : Nat) (peek : Bool) (s : State) : Host.Outcome State Fault Refusal :=
  nextDyn s fun g d => mgmtCmd g p (.csrRead addr n peek) d

/-- CSR_WRITE: 1 to 256 consecutive words as one unit (R511). -/
def execCsrWrite (p : Path) (addr : Nat) (vals : List Word) (s : State) : Host.Outcome State Fault Refusal :=
  nextDyn s fun g d => mgmtCmd g p (.csrWrite addr (vals.map fun v => v.toNat)) d

/-- EVENT_READ: records of the event queue or the flash log from a timestamp on, filtered for a mailbox (R514). -/
def execEventRead (p : Path) (t : Dword) (flash : Bool) (s : State) : Host.Outcome State Fault Refusal :=
  nextDyn s fun g d => mgmtCmd g p (.events t.toNat flash) d

/-- IDENTIFY_SWITCH_DEVICE: FM API 0x5100 (R515). -/
def execIdentifySwitchDevice (p : Path) (s : State) : Host.Outcome State Fault Refusal :=
  nextDyn s fun g d => mgmtCmd g p .fmSwitch d

/-- GET_PHYSICAL_PORT_STATE: FM API 0x5101 (R515). -/
def execGetPhysicalPortState (p : Path) (lp : Lport) (s : State) : Host.Outcome State Fault Refusal :=
  nextDyn s fun g d => mgmtCmd g p (.fmPort lp) d

/-- GET_VIRTUAL_CXL_SWITCH_INFO: FM API 0x5200 (R515). -/
def execGetVirtualCxlSwitchInfo (p : Path) (v : Host) (s : State) : Host.Outcome State Fault Refusal :=
  nextDyn s fun g d => mgmtCmd g p (.fmVcs v) d

/-- FM_UNSUPPORTED: any other FM API command is answered Unsupported; bindings change only by amendment (R223, R515). -/
def execFmUnsupported (p : Path) (op : Fin 65536) (s : State) : Host.Outcome State Fault Refusal :=
  nextDyn s fun g d => mgmtCmd g p (.fmOther op) d

/-- I3C_DYNAMIC_ADDRESS: the controller assigns a die's I3C target a dynamic address, or resets it, which returns the session to
version 1 (R513, R516). -/
def execI3cDynamicAddress (die : Die) (a : Option (Fin 128)) (s : State) : Host.Outcome State Fault Refusal :=
  nextDyn s fun g d =>
    if cg g .mgmtPathCtlI3cEn die.val = 0 then d
    else match a with
      | some x => put .mgmtPathStsI3cDaV die 1 (put .mgmtPathStsI3cDa die x d)
      | none =>
        sessEnd (.i3c die) (put .mgmtPathStsI3cDaV die 0 (put .mgmtPathStsI3cDa die 0 d))

/-- QUAR_RESTORE: the quarantine of a host ends with its capacity restored, on the management paths only (R214). -/
def execQuarRestore (p : Path) (h : Host) (s : State) : Host.Outcome State Fault Refusal :=
  nextDyn s fun g d => mgmtCmd g p (.quar h true) d

/-- QUAR_RECLAIM: the quarantined extents of a host are released at once (R214, R548). -/
def execQuarReclaim (p : Path) (h : Host) (s : State) : Host.Outcome State Fault Refusal :=
  nextDyn s fun g d => mgmtCmd g p (.quar h false) d

/-- DRAIN_COMPLETE: no page remains on a draining device, which leaves the pool and is unbound, unless a binding of the same amendment
names it (R217, R224). -/
def execDrainComplete (dev : Dev) (s : State) : Host.Outcome State Fault Refusal :=
  nextDyn s fun g d =>
    if !d.alloc.drains.contains dev.val || devInUse d dev then d
    else
      let lp := rd d .xltBedevLport dev
      let ld := rd d .xltBedevLdId dev
      let d := put .xltBedevV dev 0 (devLeave dev d)
      let d := { d with alloc := { d.alloc with drains := d.alloc.drains.filter fun b => b != dev.val } }
      let d := boundView g lp (journalNote d)
      match d.alloc.bindLater.find? fun x => x.1 == lp && x.2.1 == ld with
      | some x =>
        let d := { d with alloc := { d.alloc with bindLater := dropOne x d.alloc.bindLater } }
        rebindLd g lp ld x.2.2 d
      | none => d

end Machine
end Sys2Proof
end

