-- ==== Sys2Proof/Machine/Trust.lean ====
section
/-! DEFINITION. The commands of trust after start: records on their way to flash, amendments, image transfer and activation, supply
sag, and attestation (R447 to R449, R456 to R469). -/

namespace Sys2Proof
namespace Machine

/-! ## Records (R447, R449, R493) -/

/-- The event log keeps its newest 4,092 records at least: slots are written in order and wrap (R493). -/
def elogPut (e : Ev) (d : Dyn) : Dyn :=
  let l := d.hlth.elog ++ [e]
  { d with hlth := { d.hlth with elog := l.drop (l.length - 4092) }, boot := { d.boot with elogAt := (d.boot.elogAt + 1) % 4096 } }

/-- The plan records the ageing store keeps: the first start's, and the newest 496 that the rest of the 2 MiB holds (R472). -/
def planKeep (l : List PlanRec) : List PlanRec :=
  if l.length ≤ 497 then l else l.take 1 ++ l.drop (l.length - 496)

/-- A record has committed in every flash that is written (R447, R457, R463). -/
def nvCommit (r : NvRec) (d : Dyn) : Dyn :=
  let area := match r with
    | .log _ => 0
    | .ev _ => 1
    | .plan _ => 2
  let d := forAll (flashWritten d) (fun k d => emit (.flashWr k area d.boot.nseq) d) d
  match r with
  | .log (.amd a) =>
    let d := logAppend (.amd a) d
    match d.boot.amd with
    | some x => if x.phase = 2 ∧ x.amd = a then { d with boot := { d.boot with amd := some { x with phase := 3 } } } else d
    | none => d
  | .log (.base b dg) => fwCommit b dg (logAppend (.base b dg) d)
  | .log (.void n) => logAppend (.void n) d
  | .ev e => elogPut e d
  | .plan p =>
    { d with hlth := { d.hlth with plans := planKeep (d.hlth.plans ++ [p]) }, boot := { d.boot with nseq := d.boot.nseq + 1 } }

/-- A record that can no longer be written because no flash survives: the amendment or activation that waits for it is refused
(R448, Table 15.9 check 13). -/
def nvLost (g : Cfg) (r : NvRec) (d : Dyn) : Dyn :=
  match r with
  | .log (.amd _) => match d.boot.amd with
    | some x => if x.phase = 2 then amdNext g (d.boot.amdq.length + 1) (amdRefuse g x 13 d) else d
    | none => d
  | .log (.base _ _) => match d.boot.fw with
    | some f => if f.step = 0 then fwRefuse f.path 2 (arbFree f.act d) else d
    | none => d
  | _ => d

/-- NVM_RECORD_WRITE: the first record that waits commits, in every flash in turn; the next one's program begins unless writes are
withheld (R447, R449, R466). -/
def execNvmRecordWrite (s : State) : Host.Outcome State Fault Refusal :=
  nextDyn s fun g d =>
    match d.boot.nvq with
    | [] => d
    | r :: t =>
      if (flashSource d).isNone then
        match r with
        | .log _ => nvLost g r { d with boot := { d.boot with nvq := t, nvBegun := false } }
        | _ => d
      else if !d.boot.nvBegun && nvHeld d then d
      else nvBegin (nvCommit r { d with boot := { d.boot with nvq := t } })

/-! ## Amendments (R456 to R459) -/

/-- AMEND_SUBMIT: a path submits an amendment, in the background; Busy under supply sag (R456, R458, R518). -/
def execAmendSubmit (p : Path) (a : Amendment) (s : State) : Host.Outcome State Fault Refusal :=
  nextDyn s fun g d => mgmtCmd g p (.submit a) d

/-- A committed amendment takes effect: its result, the end of its grant, the next amendment, and the writes that waited for it (R456,
R457, R511). -/
def amdCommitted (s : Cfg × Dyn) : Cfg × Dyn :=
  match s.2.boot.amd with
  | some r =>
    if r.phase ≠ 3 then s
    else
      let s := amdApply r.amd s
      let d := put .secAmdStsBusy 0 0 { s.2 with boot := { s.2.boot with amd := none } }
      let d := amdAnswer s.1 r none (arbFree r.act d)
      let d := amdNext s.1 (d.boot.amdq.length + 1) d
      (s.1, heldRun s.1 (serveGrants s.1 d))
  | none => s

/-- AMENDMENT_APPLY: the committed amendment takes effect record by record (R457). -/
def execAmendmentApply (s : State) : Host.Outcome State Fault Refusal := nextCfg s fun g d => amdCommitted (g, d)

/-! ## Image transfer and activation (R462 to R464) -/

/-- IMG_XFER_START (R517). -/
def execImgXferStart (p : Path) (s : State) : Host.Outcome State Fault Refusal := nextDyn s fun g d => mgmtCmd g p .xferStart d

/-- IMG_XFER_DATA: up to 4,064 B at an offset; Busy under supply sag (R517, R518). -/
def execImgXferData (p : Path) (off len : Nat) (s : State) : Host.Outcome State Fault Refusal :=
  nextDyn s fun g d => mgmtCmd g p (.xferData off len) d

/-- IMG_XFER_END: the image in the slot is verified and staged (R462). -/
def execImgXferEnd (p : Path) (m : Image) (s : State) : Host.Outcome State Fault Refusal :=
  nextDyn s fun g d => mgmtCmd g p (.xferEnd m) d

/-- ACTIVATE: the staged image is to become the running one; accepted under R462, it asks the arbiter and commits by a BASE record
(R462, R463). -/
def execActivate (p : Path) (s : State) : Host.Outcome State Fault Refusal := nextDyn s fun g d => mgmtCmd g p .activate d

/-- STANDBY_FW_START: the standby's management complex has loaded the new firmware and starts (R463 step 2). -/
def execStandbyFwStart (s : State) : Host.Outcome State Fault Refusal := nextDyn s fun _ d => fwStandby d

/-- LEAD_HANDOVER: lead passes to the standby by planned handover, and the accesses it held complete (R10, R463 step 3). -/
def execLeadHandover (s : State) : Host.Outcome State Fault Refusal := nextDyn s fun g d => heldRun g (fwHandover g d)

/-- DIE_FW_RELOAD: a die's management complex has reloaded the new firmware; accesses held for its window complete; after the last
die the image's values take effect (R463 steps 4 to 6). -/
def execDieFwReload (k : Die) (s : State) : Host.Outcome State Fault Refusal :=
  nextCfg s fun g d =>
    let r := fwReloaded k (g, d)
    (r.1, heldRun r.1 (serveGrants r.1 r.2))

/-! ## Supply sag (R465, R466) -/

/-- VIN_NVW in 0.1 V, outside its range at the nearest bound (NVM.SAG_CTL). -/
def sagLevel (g : Cfg) : Nat := clamp 60 380 (cg g .nvmSagCtlVinNvw 0)

/-- SAG_ENTER: VIN (in 0.1 V) below VIN_NVW on 8 samples, or a rail monitor flagging: event 0x0B0B; running migrations abort with SAG but
for a flip, and what Table 15.10 lists is withheld. While sag is in force the flags follow what is measured (R465, R466). -/
def execSagEnter (vin : Fin 1024) (railLow : Bool) (s : State) : Host.Outcome State Fault Refusal :=
  nextDyn s fun g d =>
    let low := decide (vin.val < sagLevel g)
    let was := rd d .nvmSagStsSag 0
    if !low && !railLow && was == 0 then d
    else
      let d := put .nvmSagStsSag 0 1 (put .nvmSagStsVinLow 0 (b2n low) (put .nvmSagStsRailLow 0 (b2n railLow) d))
      if was = 1 then d
      else forAll (List.range 64) (fun i d => migAbort g i 6 d) (raise 0x0B0B (leadOr0 d) [b2n low, b2n railLow] d)

/-- SAG_EXIT: 10 ms with VIN at or above VIN_NVW + 0.5 V and no flagging rail: event 0x0B0C; held records are written, gates turn on, and
the arbiter grants in arrival order (R465, R466, R487). -/
def execSagExit (vin : Fin 1024) (s : State) : Host.Outcome State Fault Refusal :=
  nextDyn s fun g d =>
    if rd d .nvmSagStsSag 0 = 0 ∨ vin.val < sagLevel g + 5 then d
    else
      let d := put .nvmSagStsSag 0 0 (put .nvmSagStsVinLow 0 0 (put .nvmSagStsRailLow 0 0 d))
      let d := nvBegin (raise 0x0B0C (leadOr0 d) [] d)
      slotsResume g (serveGrants g (arbScan (amdAsk g d)))

/-! ## Attestation (R467 to R469) -/

/-- A request that extends the transcript of its port (R468). -/
def spdmExtends (q : SpdmReq) : Bool :=
  match q with
  | .getVersion | .getCapabilities | .negotiateAlgorithms | .getDigests | .getCertificate | .challenge | .getMeasurements
  | .keyExchange | .finish => true
  | .heartbeat | .keyUpdate | .endSession | .chunkGet | .vendorDefined | .ideKm _ | .other => false

/-- A measurement: 1 ROM, 2 the running firmware, 3 the running image digest, 4 the amendment chain since the last BASE, 5 the OTP key
state and SVN_MIN; hashes are kept as what they cover (R469, assumption 76). -/
def measure (d : Dyn) (i : Nat) : List Nat :=
  match i with
  | 1 => [Config.romHash]
  | 2 => (d.boot.image.map Image.fwDigest).toList
  | 3 => (d.boot.image.map Image.digest).toList
  | 4 => d.boot.chain
  | 5 => [rd d .secKeyStsEdSet 0, rd d .secKeyStsEdRev 0, rd d .secKeyStsMlSet 0, rd d .secKeyStsMlRev 0, rd d .secKeyStsSvnMin 0]
  | _ => []

/-- The indices that GET_MEASUREMENTS takes: 0 asks for their number, 255 for all (R469; the two from SPDM, assumption 159). -/
def measured (d : Dyn) (i : Nat) : Option (List Nat) :=
  if i = 0 then some [5]
  else if i = 255 then some ((List.range 5).flatMap fun k => measure d (k + 1))
  else if i ≤ 5 then some (measure d i) else none

/-- What an answer states: the versions, the data transfer size, the one algorithm of each kind with its bit of SPDM (Ed25519, SHA-384,
measurement hash SHA-384, secp384r1, AES-256-GCM), the one slot (Table 15.11; the bits from SPDM, assumption 159). -/
def spdmArgs (q : SpdmReq) : List Nat :=
  match q with
  | .getVersion => [0x12, 0x13]
  | .getCapabilities => [4096]
  | .negotiateAlgorithms => [0x400, 2, 4, 0x10, 2]
  | .getDigests => [1]
  | .getCertificate | .challenge | .getMeasurements | .keyExchange | .finish | .heartbeat | .keyUpdate | .endSession | .chunkGet
  | .vendorDefined | .ideKm _ | .other => []

/-- IDE_KM at the responder of an upstream port, whose host is the requester (R77): QUERY is answered with the modes the switch can run, 1
skid and 2 containment; KEY_PROG puts a key and the mode in place, containment where both ends support it (R78); K_SET_GO starts the
stream, which brings a link kept out of CXL.cachemem back (R80); K_SET_STOP ends it. Kinds of answer: 3 done, 0 an error. -/
def ideServe (lp : Nat) (m : IdeKm) (d : Dyn) : Dyn :=
  let ver1 := rd d .portLstsCxlVer lp == 1
  let have0 := cellsFind lp d.port.ide.cells
  let setIde (x : IdeLink) (d : Dyn) : Dyn := { d with port := { d.port with ide := ⟨cellsPut lp x (cellsDrop lp d.port.ide.cells)⟩ } }
  match m, have0 with
  | .query, _ => emit (.spdm lp 3 [1, 2]) d
  | .keyProg key cont, _ => if ver1 then emit (.spdm lp 0 []) d else emit (.spdm lp 3 []) (setIde ⟨cont, 2 * key + 1, true, false⟩ d)
  | .setGo, some x =>
    let d := setIde { x with on := true } { d with port := { d.port with insecure := d.port.insecure.filter fun y => y != lp } }
    emit (.spdm lp 3 []) (put .portLstsIdeOn lp 1 (put .portLstsMem lp 1 (put .portLstsCache lp 1 d)))
  | .setStop, some x => emit (.spdm lp 3 []) (put .portLstsIdeOn lp 0 (setIde { x with on := false } d))
  | _, none => emit (.spdm lp 0 []) d

/-- SPDM_REQUEST: the responder of an upstream port answers the requests of Table 15.11 and no others, with slot 0 only; `param` is the
slot or the measurement index, `sign` asks for a signature. A signed answer waits for its hybrid half until the next request that
extends the transcript (R467, R468, R469). Kinds of answer: 1 the response, 0 an error. -/
def execSpdmRequest (h : Host) (q : SpdmReq) (param : Fin 256) (sign : Bool) (s : State) : Host.Outcome State Fault Refusal :=
  nextDyn s fun g d =>
    if !hostUp g d h then d
    else
      let lp := (hostPort g d h).getD 0
      let slot := q == .getCertificate || q == .challenge || q == .keyExchange
      match q with
      | .ideKm m => ideServe lp m d
      | _ =>
      if q == .other || q == .vendorDefined || (slot && param != 0) || (q == .getMeasurements && (measured d param).isNone) then emit (.spdm lp 0 []) d
      else
        let signed := q == .challenge || q == .keyExchange || (q == .getMeasurements && sign)
        let l := if spdmExtends q then d.boot.signed.filter fun x => x != h.val else d.boot.signed
        let d := { d with boot := { d.boot with signed := if signed then l ++ [h.val] else l } }
        emit (.spdm lp 1 (if q == .getMeasurements then (measured d param).getD [] else spdmArgs q)) d

/-- GET_HYBRID_SIG: the ML-DSA-65 signature of what the last signed response covered, before the next request that extends the
transcript; else UnexpectedRequest (R468). -/
def execGetHybridSig (h : Host) (s : State) : Host.Outcome State Fault Refusal :=
  nextDyn s fun g d =>
    if !hostUp g d h then d
    else emit (.spdm ((hostPort g d h).getD 0) (if d.boot.signed.contains h.val then 2 else 0) [1]) d

/-- GET_HYBRID_CERT: the ML-DSA-65 identity chain (R468). -/
def execGetHybridCert (h : Host) (s : State) : Host.Outcome State Fault Refusal :=
  nextDyn s fun g d => if hostUp g d h then emit (.spdm ((hostPort g d h).getD 0) 2 [2]) d else d

end Machine
end Sys2Proof
end

