-- ==== Sys2Proof/Machine/Power.lean ====
section
/-! DEFINITION. Power states and wake (spec/13): what a domain holds, how deep it may go, the entry handshake, wake sources and the
return order (R400 to R413). A domain is die * 23 + k. -/

namespace Sys2Proof
namespace Machine

/-! ## Domains (Table 13.2) -/

/-- The local regions a domain lies in or holds, as regions of the package. -/
def domRegions (j : Nat) : List Nat :=
  let die := j / 23
  let k := j % 23
  if k < 12 then [2 * die + k / 6] else if k < 18 then [2 * die + (k - 12) / 3] else if k < 20 then [2 * die + (k - 18)]
  else if k < 22 then [2 * die + (k - 20)] else [2 * die, 2 * die + 1]

/-- The port units in a domain, as port units of the package. -/
def domPus (j : Nat) : List Nat := (domAll j).filterMap fun x => if x % 23 < 12 then some (x / 23 * 12 + x % 23) else none

/-- The logical ports of a port unit that exist. -/
def puPorts (g : Cfg) (p : Nat) : List Nat := [4 * p, 4 * p + 1, 4 * p + 2, 4 * p + 3].filter fun lp => lpExists g lp

/-- A block of a domain: the smallest domain it lies in, its number as a privileged endpoint if it is one, and its GnokuLink
endpoint if it is one. -/
structure PBlk where
  dom  : Nat
  priv : Option Nat
  gkl  : Option Nat
deriving DecidableEq, Repr

/-- The blocks of one smallest domain: a port unit; the buffer, router and two slices of a cluster; the router, management complex and
NVM controller, or the router, ring engine, data mover, four translation banks and allocator shard, of a service block; the
GnokuLink endpoints of a region (Table 1.2). -/
def ownBlks (j : Nat) : List PBlk :=
  let die := j / 23
  let k := j % 23
  if k < 12 then [⟨j, none, none⟩]
  else if k < 18 then
    let c := die * 6 + (k - 12)
    [⟨j, none, none⟩, ⟨j, none, none⟩, ⟨j, some (2 * c), none⟩, ⟨j, some (2 * c + 1), none⟩]
  else if k = 18 then [⟨j, none, none⟩, ⟨j, some (48 + die), none⟩, ⟨j, some (52 + die), none⟩]
  else if k = 19 then
    [⟨j, none, none⟩, ⟨j, none, none⟩, ⟨j, none, none⟩, ⟨j, none, none⟩, ⟨j, none, none⟩, ⟨j, none, none⟩, ⟨j, none, none⟩,
     ⟨j, some (56 + die), none⟩]
  else if k < 22 then
    ((List.range 9).filter fun e => gklRegion (die * 9 + e) == 2 * die + (k - 20)).map fun e => ⟨j, none, some (die * 9 + e)⟩
  else []

/-- The blocks of a domain and everything below it, in order: what a request is sent to. -/
def domBlks (j : Nat) : List PBlk := (domAll j).flatMap ownBlks

/-- The privileged endpoints of a domain. -/
def domPriv (j : Nat) : List Nat := (domBlks j).filterMap PBlk.priv

/-! ## How deep a domain may go (R16, R18, R254, R402 to R404, R413) -/

/-- DEEPEST in force: 1 IDLE, 2 GLADE, 3 CLEARING; 0b11 acts as 0b10 (PWR.LIM). -/
def limDeepest (g : Cfg) : Nat := 1 + min 2 (cg g .pwrLimDeepest 0)

/-- A link of a port is in L0 or L0p. -/
def inL0 (d : Dyn) (lp : Nat) : Bool :=
  lpLinkUp d lp && !d.port.l1.contains lp && !(d.hlth.reeq.any fun x => x.1 == lp)

/-- How deep a port unit may go by its ports (R403). -/
def puLimit (g : Cfg) (d : Dyn) (p : Nat) : Nat :=
  let quiet := (puPorts g p).all fun lp => lpRole g d lp == 0 || (isDown g d lp && !inL0 d lp)
  if !quiet then 1
  else if cg g .portPcfgBif p = 0 ∨ (puPorts g p).all fun lp => lpRole g d lp == 0 then 3 else 2

/-- How deep a cluster or service block may go by itself: no closed slice while a shared region is valid, no endpoint that is never
closed, no service block of local region 1 while a migration slot is out of FREE (R167, R254, R350, Table 13.2). -/
def ownLimit (g : Cfg) (d : Dyn) (j : Nat) : Nat :=
  let never := ((ownBlks j).filterMap PBlk.priv).any fun e => neverClosed g d e
  let k := j % 23
  if never then 1
  else if k = 19 ∧ anyMig d then 1
  else if k = 22 ∧ (leadDie d = some (j / 23) ∨ standbyDie d = some (j / 23)) then 1
  else 3

/-- The deepest state a domain may enter (R402). -/
def domLimit (g : Cfg) (d : Dyn) (j : Nat) : Nat :=
  (domAll j).foldl (fun n x => min n (if x % 23 < 12 then puLimit g d (x / 23 * 12 + x % 23) else ownLimit g d x)) (limDeepest g)

/-- A voltage step runs in a region of a domain (R413). -/
def avIn (d : Dyn) (j : Nat) : Bool := d.hlth.running.any fun a => a.q.code == 2 && meet a.q.regions (domRegions j)

/-- A domain of a region enters, is in, or leaves GLADE or CLEARING, but for port units the image leaves unused (R43, R413). -/
def regionSleeps (g : Cfg) (d : Dyn) (r : Nat) : Bool :=
  (List.range 92).any fun j => (domRegions j).contains r && decide (2 ≤ rd d .pwrDomStsState j)
    && !(decide (j % 23 < 12) && puUnused g d (j / 23 * 12 + j % 23))

/-! ## Work (R405) -/

/-- A port unit has work: packets staged, or requests not answered that came by it or that its devices owe. -/
def puBusy (d : Dyn) (p : Nat) : Bool :=
  ((List.range 32).any fun k => !(aget [] d.fwd.stag (32 * p + k)).isEmpty)
    || d.flights.any fun f => lpPu f.req.lport == p || f.devs.any fun w => lpPu (whoPort d w) == p

/-- A router has work: packets in it or waiting to enter there. -/
def rtrBusy (d : Dyn) (r : Nat) : Bool := (d.noc.net.any fun f => f.rtr == r) || d.noc.wait.any fun f => f.src == r

/-- A unit has work: port units, slices, buffers and routers what they hold; a translation bank its misses; the ring engine what it has
fetched and dispatched; the data mover its chunks and zero writes; the allocator shard requests, grants and placement writes; the management
complex its commands; the NVM controller the records on their way to flash; a link endpoint a link in training, at work or looping (R405). -/
def unitBusy (d : Dyn) (u : Nat) : Bool :=
  if u < 48 then puBusy d u
  else if u < 96 then !(dirGet d (u - 48)).opens.isEmpty || !(dirGet d (u - 48)).wbs.isEmpty
  else if u < 120 then
    !(bufOf d (u - 96)).isEmpty || (List.range 8).any fun t => !(aget [] d.fwd.eject ((u - 96) * 8 + t)).isEmpty
  else if u < 152 then rtrBusy d (u - 120)
  else if u < 168 then d.xlt.miss.any fun m => m.die == (u - 152) / 4 && xltBank m.die m.ld m.page == u - 152
  else if u < 172 then d.ring.rings.cells.any fun r => r.2.die == u - 168 && (!r.2.fetched.isEmpty || !r.2.ents.isEmpty)
  else if u < 176 then decide (0 < dieInflt d (u - 172))
  else if u < 180 then
    (leadDie d == some (u - 176) && (!d.alloc.queue.isEmpty || d.alloc.ctxs.cells.any fun x => x.2.busy)) || !d.xlt.pws.isEmpty || !d.xlt.shoots.isEmpty
  else if u < 184 then leadDie d == some (u - 180) && (!d.boot.amdq.isEmpty || d.boot.amd.isSome || d.boot.fw.isSome || !d.mgmt.held.isEmpty)
  else if u < 188 then leadDie d == some (u - 184) && !d.boot.nvq.isEmpty
  else phySt d (u - 188) == 1 || phySt d (u - 188) == 2 || phySt d (u - 188) == 5

/-- A smallest domain has work of its own, which keeps its blocks from accepting (R405). -/
def ownBusy (d : Dyn) (j : Nat) : Bool :=
  let die := j / 23
  let k := j % 23
  if k < 12 then puBusy d (die * 12 + k)
  else if k < 18 then
    let c := die * 6 + (k - 12)
    [120 + cluRouter c, 96 + c, 48 + 2 * c, 49 + 2 * c].any fun u => unitBusy d u
  else if k = 18 then rtrBusy d (svcRouter (2 * die))
  else if k = 19 then
    rtrBusy d (svcRouter (2 * die + 1)) || (d.xlt.miss.any fun m => m.die == die) || decide (0 < dieInflt d die)
  else false

/-- A domain has work in itself or below. -/
def domBusy (d : Dyn) (j : Nat) : Bool := (domAll j).any fun x => ownBusy d x

/-- The time since when a domain is without work: every unit in it has gated its clock or sleeps, the last at that time. -/
def idleSince (d : Dyn) (j : Nat) : Option Nat :=
  if (domUnits j).all fun u => gated d u || decide (2 ≤ domPwr d (unitDom u)) then
    some ((domAll j).foldl (fun m x => max m (pwrGet d x).workAt) (pwrGet d j).workAt)
  else none

/-! ## Closures of privileged endpoints (R351, R407) -/

/-- An endpoint is closed: fenced, and its closure has reached step 6. -/
def epClosed (d : Dyn) (e : Nat) : Bool :=
  fenced d e && !(rd d .nocSpanStsBusy 0 == 1 && rd d .nocSpanStsEp 0 == e)

/-- Start an endpoint's closure (Table 10.4 step 1). -/
def epClose (g : Cfg) (e : Nat) (d : Dyn) : Dyn :=
  if neverClosed g d e || fenced d e || d.noc.spanQ.contains e || (rd d .nocSpanStsBusy 0 == 1 && rd d .nocSpanStsEp 0 == e) then d
  else spanNext { d with noc := { d.noc with spanQ := d.noc.spanQ ++ [e] } }

/-- Reopen an endpoint: at once when it is closed, at step 6 when its closure runs or waits (R351, R407). -/
def epReopen (e : Nat) (d : Dyn) : Dyn :=
  if epClosed d e && !regFail d (epRegion e) then spanOpen e d
  else if d.noc.spanQ.contains e || (rd d .nocSpanStsBusy 0 == 1 && rd d .nocSpanStsEp 0 == e) then
    { d with noc := { d.noc with reopen := (d.noc.reopen.filter fun x => x != e) ++ [e] } }
  else d

/-! ## Clock gating and requests (R404, R405) -/

/-- The cluster of a port unit, a cluster buffer or a router in a cluster, which DP_IDLE bars from gating (R404). -/
def dpClu (u : Nat) : Option Nat :=
  if u < 48 then some (u / 2)
  else if 96 ≤ u ∧ u < 120 then some (u - 96)
  else if 120 ≤ u ∧ u < 152 then (List.range 24).find? fun c => cluRouter c == u - 120
  else none

/-- DP_IDLE = 0 keeps a unit's clock running: a logical port of its cluster is in L0 or L0p (R404). -/
def dpLive (g : Cfg) (d : Dyn) (u : Nat) : Bool :=
  cg g .pwrLimDpIdle 0 == 0 && match dpClu u with
    | some c => (puPorts g (2 * c) ++ puPorts g (2 * c + 1)).any fun lp => inL0 d lp
    | none => false

/-- CLOCK_GATE: a unit gates its own clock after 16 cycles without work; with DP_IDLE = 0 no port unit, cluster buffer or router while a
port of its cluster is in L0 or L0p. A domain is IDLE once every unit in it has gated its clock (R16, R404, R405). -/
def execClockGate (u : GateUnit) (s : State) : Host.Outcome State Fault Refusal :=
  nextDyn s fun g d =>
    let n := gateNo u
    let j := unitDom n
    if gated d n || decide (1 ≤ domPwr d j) || rd d .pwrDomStsFail j == 1 || unitBusy d n || dpLive g d n then d
    else
      let d := pwrSet j { pwrGet d j with workAt := d.now } { d with elec := { d.elec with gated := d.elec.gated ++ [n] } }
      forAll (j :: domAbove j) (fun x d =>
        if rd d .pwrDomStsState x = 0 ∧ (domUnits x).all (fun v => gated d v || decide (2 ≤ domPwr d (unitDom v)))
        then put .pwrDomStsState x 1 d else d) d

/-- The blocks that sleep already, whose answer is clamped to ACCEPT (Table 13.4). -/
def preAccept (d : Dyn) (j : Nat) : List Nat :=
  ((domBlks j).zipIdx.filter fun x => decide (x.1.dom ≠ j ∧ 2 ≤ domPwr d x.1.dom)).map Prod.snd

/-- The idle time before a request, in ns: GLADE_IDLE_US or CLEAR_IDLE_MS of the die; none when never requested (PWR.CTL). -/
def idleNs (g : Cfg) (j : Nat) (clear : Bool) : Option Nat :=
  let n := if clear then cg g .pwrCtlClearIdleMs (j / 23) else cg g .pwrCtlGladeIdleUs (j / 23)
  if n = 0 then none else some (if clear then n * 1000000 else n * 1000)

/-- A request may be sent: an idle domain that may go so deep, in a region that has not failed and without a voltage step, after its idle
time (R40, R402, R405, R413). -/
def mayAsk (g : Cfg) (d : Dyn) (j target : Nat) : Bool :=
  let st := rd d .pwrDomStsState j
  (decide (st ≤ 1) || (st == 2 && target == 3)) && rd d .pwrDomStsFail j == 0
    && ((domRegions j).all fun r => !regFail d r) && ((domAbove j).all fun x => decide (rd d .pwrDomStsState x ≤ 1)) && decide (target ≤ domLimit g d j) && !avIn d j
    && match idleSince d j, idleNs g j (target == 3) with
      | some t, some n => decide (t + n ≤ d.now)
      | _, _ => false

/-- POWER_REQUEST: a domain without work for its idle time is asked for GLADE, or for CLEARING; the closures of its privileged
endpoints start (R402, R405, R407). -/
def execPowerRequest (dom : Fin 92) (clear : Bool) (s : State) : Host.Outcome State Fault Refusal :=
  nextDyn s fun g d =>
    let j := dom.val
    let target := if clear then 3 else 2
    if !mayAsk g d j target then d
    else
      let x := { pwrGet d j with target := target, rounds := 0, accepts := preAccept d j, delayed := [], delay := 0, reqAt := d.now
                                 from0 := rd d .pwrDomStsState j }
      let d := emit (.pwrReq j target) (put .pwrDomStsState j 4 (pwrSet j x d))
      forAll (domPriv j) (fun e d => epClose g e d) d

/-! ## Answers (R406 to R408, R410) -/

/-- An attempt ends without entry: the blocks that accepted are released, closures reopen, the idle timer starts again (R406,
R407). -/
def pwrRefused (j : Nat) (d : Dyn) : Dyn :=
  let x := pwrGet d j
  let x := { x with accepts := [], delayed := [], workAt := d.now, refAt := some (x.refAt.getD d.now) }
  let d := put .pwrDomStsState j (if x.from0 = 2 then 2 else 0) (pwrSet j x d)
  if x.from0 = 2 then d else forAll (domPriv j) epReopen d

/-- What a die loses as its translation enters CLEARING: cache entries and hotness tables (R410). -/
def xltForget (die : Nat) (d : Dyn) : Dyn :=
  { d with xlt := { d.xlt with cache := akeep (fun k _ => k / 4096 != die) d.xlt.cache,
                               hot := akeep (fun k _ => k / 1024 != die) d.xlt.hot } }

/-- A domain and everything below it that is not as deep already take a state; a domain below keeps the state it had (R408). -/
def pwrTake (j target : Nat) (d : Dyn) : Dyn :=
  forAll (domAll j) (fun x d =>
    let st := rd d .pwrDomStsState x
    if x = j then put .pwrDomStsState x target d
    else if st < target then put .pwrDomStsState x target (pwrSet x { pwrGet d x with from0 := st } d)
    else pwrSet x { pwrGet d x with from0 := st } d) d

/-- The supply of a domain that enters GLADE or CLEARING: the retention voltage, word-line underdrive and reverse body bias in mV as PWR.RET
gives them, each within its bounds; off in CLEARING (Table 13.1). -/
def supplySay (g : Cfg) (j t : Nat) (d : Dyn) : Dyn :=
  let k := j / 23
  if t = 2 then
    emit (.supply j (clamp 450 600 (cg g .pwrRetRetMv k)) (min 100 (cg g .pwrRetWludMv k)) (50 * min 8 (cg g .pwrRetRbb k))) d
  else emit (.supply j 0 0 0) d

/-- Entry in its fixed order: clock, clamps, supply; GnokuLink endpoints in EI go to SLEEP, and CLEARING loses volatile state and the
region's PLL (R368, R400, R408, R410). Configuration and counters stay, as the shadow keeps them. -/
def pwrEnter (g : Cfg) (j : Nat) (d : Dyn) : Dyn :=
  let x := pwrGet d j
  let t := x.target
  let d := supplySay g j t d
  let d := pwrTake j t (pwrSet j { x with accepts := [], refAt := none, told := false } d)
  let d := forAll ((domBlks j).filterMap PBlk.gkl) (fun n d =>
    let d := if phySt d n = 3 then put .gklPhyStsState n 4 d else d
    if phySt d n = 4 ∧ t = 3 then gklMod n (fun x => { x with cold := true }) d else d) d
  if t ≠ 3 then d
  else
    let d := if (domAll j).contains (j / 23 * 23 + 19) then xltForget (j / 23) d else d
    if 20 ≤ j % 23 then forAll (domRegions j) (fun r d =>
      if r % 2 = 0 then put .dieRclkStsR0Lock (r / 2) 0 d else put .dieRclkStsR1Lock (r / 2) 0 d) d
    else d

/-- A block can accept: it has no work open, a privileged endpoint is closed, a GnokuLink endpoint is in EI or not in use (R405, R407,
Table 11.5). -/
def canAccept (d : Dyn) (b : PBlk) : Bool :=
  !ownBusy d b.dom && (b.priv.all fun e => epClosed d e)
    && b.gkl.all fun n => phySt d n == 3 || phySt d n == 4 || phySt d n == 0 || phySt d n == 6

/-- All blocks have answered: with every ACCEPT the domain enters, but none with a service block of local region 1 in it while a migration
slot is out of FREE; DELAY answers make the controller ask again, the fourth round of them a REFUSE (R167, R406). -/
def pwrSettle (g : Cfg) (j : Nat) (d : Dyn) : Dyn :=
  let x := pwrGet d j
  if x.accepts.length + x.delayed.length < (domBlks j).length then d
  else if x.delayed.isEmpty then
    (if anyMig d && (domAll j).contains (j / 23 * 23 + 19) then pwrRefused j d else pwrEnter g j d)
  else if 3 ≤ x.rounds then pwrRefused j d
  else pwrSet j { x with rounds := x.rounds + 1, stepAt := d.now } d

/-- POWER_ANSWER: a block answers REQUEST; a privileged endpoint answers DELAY until it is closed, then ACCEPT, and never REFUSE (R406 to
R408). -/
def execPowerAnswer (dom : Fin 92) (blk : Nat) (a : PwrAns) (s : State) : Host.Outcome State Fault Refusal :=
  nextDyn s fun g d =>
    let j := dom.val
    let x := pwrGet d j
    match (domBlks j)[blk]? with
    | none => d
    | some b =>
      if rd d .pwrDomStsState j ≠ 4 ∨ x.accepts.contains blk ∨ x.delayed.contains blk then d
      else match a with
        | .refuse => if b.priv.isSome then d else pwrRefused j d
        | .accept => if canAccept d b then pwrSettle g j (pwrSet j { x with accepts := x.accepts ++ [blk] } d) else d
        | .delay us => pwrSettle g j (pwrSet j { x with delayed := x.delayed ++ [blk], delay := max x.delay (clamp 1 255 us) } d)

/-- DELAY_RETRY: REQUEST is sent again after the largest delay (R406). -/
def execDelayRetry (dom : Fin 92) (s : State) : Host.Outcome State Fault Refusal :=
  nextDyn s fun _ d =>
    let j := dom.val
    let x := pwrGet d j
    if rd d .pwrDomStsState j ≠ 4 ∨ x.delayed.isEmpty ∨ x.accepts.length + x.delayed.length < (domBlks j).length
      ∨ d.now < x.stepAt + x.delay * 1000 then d
    else
      let x := { x with accepts := preAccept d j, delayed := [], delay := 0, reqAt := d.now }
      emit (.pwrReq j x.target) (pwrSet j x d)

/-- ANSWER_TIMEOUT: blocks that have not answered within 1 µs count as REFUSE and in NOANS (R406). -/
def execAnswerTimeout (dom : Fin 92) (s : State) : Host.Outcome State Fault Refusal :=
  nextDyn s fun _ d =>
    let j := dom.val
    let x := pwrGet d j
    let left := (domBlks j).length - (x.accepts.length + x.delayed.length)
    if rd d .pwrDomStsState j ≠ 4 ∨ left = 0 ∨ d.now < x.reqAt + 1000 then d
    else pwrRefused j (bump .pwrDomStsNoans j left d)

/-- ENTRY_REFUSED: a domain's requests have been refused for 1 s without an entry: event 0x0903, once until it enters (Table
13.8). -/
def execEntryRefused (dom : Fin 92) (s : State) : Host.Outcome State Fault Refusal :=
  nextDyn s fun _ d =>
    let j := dom.val
    let x := pwrGet d j
    match x.refAt with
    | some t => if !x.told && t + 1000000000 ≤ d.now then
        raise 0x0903 (j / 23) [j % 23] (pwrSet j { x with told := true } d) else d
    | none => d

/-! ## Wake and return (R409 to R412) -/

/-- The domain that returns first: the highest one above a sleeping domain that sleeps. -/
def wakeTop (d : Dyn) (j : Nat) : Nat :=
  match (domAbove j).reverse.find? fun x => decide (2 ≤ domPwr d x) with
  | some x => x
  | none => j

/-- A domain's return begins at the regulator step (R411). -/
def returnStart (j code : Nat) (d : Dyn) : Dyn :=
  let x := pwrGet d j
  let x := { x with step := 1, run := 1, from0 := rd d .pwrDomStsState j, stepAt := d.now, wakeAt := d.now }
  let d := put .pwrDomStsState j 5 (put .pwrDomStsLastWake j code (bump .pwrDomStsWakes j 1 (pwrSet j x d)))
  emit (.pwrStep j 1) d

/-- A wake source reaches a domain: a gated clock opens, an entry is reversed, a sleeping domain returns; an unused port unit, a domain
left off and a domain whose regions have all failed stay (R40, R43, R405, R409, R411, R412). -/
def wakeDom (g : Cfg) (j code : Nat) (d : Dyn) : Dyn :=
  let st := rd d .pwrDomStsState j
  if (domRegions j).all fun r => regFail d r then d
  else if st = 1 then
    pwrSet j { pwrGet d j with workAt := d.now } (put .pwrDomStsLastWake j code (put .pwrDomStsState j 0 (ungateDom j d)))
  else if st = 4 then
    let x := pwrGet d j
    if x.from0 = 2 then returnStart j code (put .pwrDomStsState j 2 (pwrSet j { x with accepts := [], delayed := [] } d))
    else
      let d := pwrSet j { x with accepts := [], delayed := [], workAt := d.now } d
      forAll (domPriv j) epReopen (put .pwrDomStsLastWake j code (put .pwrDomStsState j 0 d))
  else if st = 2 ∨ st = 3 then
    let t := wakeTop d j
    if rd d .pwrDomStsFail t = 1 ∨ (domPwr d t = 3 ∧ t % 23 < 12 ∧ puUnused g d (t / 23 * 12 + t % 23)) then d
    else if rd d .pwrDomStsState t = 5 then d
    else returnStart t code d
  else d

/-- WAKE_SOURCE: a wake source of Table 13.5 reaches the power controller. Link activity and slot events wake the port unit and its
cluster; a GnokuLink wake its region; no packet or CSR access wakes a service block's privileged endpoints, and codes outside the
table wake nothing (R349, R350, R409, R411). -/
def execWakeSource (dom : Fin 92) (code : Fin 16) (s : State) : Host.Outcome State Fault Refusal :=
  nextDyn s fun g d =>
    let j := dom.val
    if code.val = 0 ∨ 7 < code.val then d
    else if (code.val = 1 ∨ code.val = 4) ∧ j % 23 < 12 then
      wakeDom g j code (wakeDom g (j / 23 * 23 + 12 + j % 23 / 2) code d)
    else wakeDom g j code d

/-- A return is complete: ACTIVE, with what was put to sleep with it; its endpoints reopen, GnokuLink endpoints wake, a die's timestamp is
loaded from the master unless its copy stands ahead, PLLs of regions that have not failed are locked; the longest wake is kept (R34, R35,
R40, R351, R370, R401, R410, R411). -/
def returnDone (j : Nat) (d : Dyn) : Dyn :=
  let x := pwrGet d j
  let lat := (d.now - x.wakeAt) / 10
  let d := if rd d .pwrWakeLatLat (j / 23) < lat then put .pwrWakeLatLat (j / 23) (min lat 65535) (put .pwrWakeLatDom (j / 23) (j % 23) d) else d
  let d := forAll (domAll j) (fun k d =>
    if k = j then put .pwrDomStsState k 0 (pwrSet k { pwrGet d k with step := 0, workAt := d.now } d)
    else
      let y := pwrGet d k
      put .pwrDomStsState k (if 2 ≤ y.from0 ∧ y.from0 ≤ 3 then y.from0 else 0) (pwrSet k { y with workAt := d.now } d)) d
  let d := { d with elec := { d.elec with gated := d.elec.gated.filter fun u => !(domAll j).contains (unitDom u) } }
  let d := if 20 ≤ j % 23 then forAll ((domRegions j).filter fun r => !regFail d r) (fun r d =>
      if r % 2 = 0 then put .dieRclkStsR0Lock (r / 2) 1 d else put .dieRclkStsR1Lock (r / 2) 1 d) d else d
  let d := if x.from0 = 3 ∧ (domAll j).contains (j / 23 * 23 + 18) then
      put .dieTstampNs (j / 23) (max (dieTs d (j / 23)) d.now) d else d
  let awake := (domBlks j).filter fun b => decide (domPwr d b.dom ≤ 1)
  let d := forAll (awake.filterMap PBlk.priv) epReopen d
  arbScan (forAll (awake.filterMap PBlk.gkl) sleepWake d)

/-- A domain stays off: FAIL. Downstream ports are contained by DPC and upstream ports held down, a failed region or die is
handled as R40 gives, and a die whose management complex is off has lost it (R40, R412). -/
def domFail (g : Cfg) (j code : Nat) (d : Dyn) : Dyn :=
  let d := put .pwrDomStsState j 3 (put .pwrDomStsFail j 1 (pwrSet j { pwrGet d j with step := 0 } d))
  let d := raise code (j / 23) [j % 23] d
  if 20 ≤ j % 23 then heldRun g (fwDies (forAll (domRegions j) (fun r d => regionFailed g r d) d))
  else
    let lps := (domPus j).flatMap fun p => puPorts g p
    let d := forAll lps (fun lp d => if isDown g d lp then dpc g lp 1 false d else upLost g lp d) d
    if j % 23 = 18 then
      let die := j / 23
      heldRun g (fwDies (dieGone g die { d with hlth := { d.hlth with down := (d.hlth.down.filter fun k => k != die) ++ [die] } }))
    else heldRun g d

/-- RETURN_STEP_READY: the ready signal of the step now under way, the last of which completes CSR accesses that waited; an uncorrectable error in the shadow, at the logic step from
CLEARING, leaves the domain off with event 0x0906 (R410, R411, R412). -/
def execReturnStepReady (dom : Fin 92) (ue : Bool) (s : State) : Host.Outcome State Fault Refusal :=
  nextDyn s fun g d =>
    let j := dom.val
    let x := pwrGet d j
    if rd d .pwrDomStsState j ≠ 5 then d
    else if x.step < 4 then emit (.pwrStep j (x.step + 1)) (pwrSet j { x with step := x.step + 1, stepAt := d.now } d)
    else if ue && x.from0 == 3 then domFail g j 0x0906 d
    else heldRun g (forAll (domRegions j) (fun r d => if r % 2 = 1 then xltDrain g (r / 2) d else d) (serveGrants g (returnDone j d)))

/-- The time of a return step in ns (Table 13.6). -/
def stepNs (j from0 step : Nat) : Nat :=
  let big := decide (20 ≤ j % 23)
  match step with
  | 1 => if from0 = 3 then 10000 else if big then 1500 else 1200
  | 2 => if from0 = 3 && big then 40000 else 100
  | 3 => if from0 = 3 then 5000 else 1000
  | _ => if from0 = 3 then 4000 else 200

/-- READY_LATE: a ready signal missing for 4 times its step's time: the return runs once more with event 0x0904, and after the second
run the domain stays off with event 0x0905 (R412). -/
def execReadyLate (dom : Fin 92) (s : State) : Host.Outcome State Fault Refusal :=
  nextDyn s fun g d =>
    let j := dom.val
    let x := pwrGet d j
    if rd d .pwrDomStsState j ≠ 5 ∨ d.now < x.stepAt + 4 * stepNs j x.from0 x.step then d
    else if x.run = 1 then
      emit (.pwrStep j 1) (raise 0x0904 (j / 23) [j % 23] (pwrSet j { x with run := 2, step := 1, stepAt := d.now } d))
    else domFail g j 0x0905 d

end Machine
end Sys2Proof
end

