-- ==== Sys2Proof/Machine/Health.lean ====
section
/-! DEFINITION. Ageing, control-state errors, the maintenance arbiter's commands, lead failover and the event log (spec/16, R470 to
R493). -/

namespace Sys2Proof
namespace Machine

/-! ## Control state (R477 to R481) -/

/-- The die of a control word: a directory slice's, a cluster's, a router's, else the instance itself. -/
def hitDie (x : EccHit) : Nat :=
  match x.kind with
  | .dirEntry => x.inst / 12 % 4
  | .queueDesc => x.inst / 6 % 4
  | .routeWord => x.inst % 8 / 2
  | _ => x.inst % 4

/-- The structure a word belongs to, as the arbiter names it: 0 to 47 a directory slice, 48 + 16 × die + kind the others of a
die (Table 16.4 code 1). -/
def struktOf (x : EccHit) : Nat :=
  match x.kind with
  | .dirEntry => x.inst
  | k => 48 + 16 * hitDie x + k.ctorIdx

/-- A directory entry in error: its way holds no line and is unusable until a sweep rewrites it; viral in every member VCS of every
shared region homed here; event 0x0204 (R255). -/
def dirUe (g : Cfg) (x : EccHit) (d : Dyn) : Dyn :=
  let sl := x.inst % 48
  let set := x.index / 16 % 16384
  let way := x.index % 16
  let s := dirGet d sl
  let l := (aget [] s.sets set).filter fun w => w.way != way
  let d := dirSet sl { s with sets := aset [] s.sets set (l ++ [⟨way, 0, 0, false, [], 0, true⟩]) } d
  let d := put .dirEccStsUe sl 1 (put .dirEccStsWay sl way (put .dirEccStsSet sl set d))
  let vs := (List.range 64).flatMap fun i =>
    if srValid g d i && cg g .cohSrCfgHomePkg i == rd d .dieDieIdPkgId 0 then (srMembers g i).map Prod.fst else []
  raise 0x0204 (hitDie x) [sl, set, way] (forAll vs.dedup raiseViral d)

/-- A packet whose queue descriptor is in error is discarded and its cells are freed (R99, R479). -/
def descUe (g : Cfg) (x : EccHit) (d : Dyn) : Dyn :=
  let cl := x.inst % 24
  match (bufOf d cl).find? fun b => b.pkt.flow == x.index with
  | some b => parityDrop g b.pkt (setBuf cl (dropOne b (bufOf d cl)) d)
  | none => d

/-- Shaper state in error acts as a full bucket: index 0 to 4095 a slice, 4096 + h a host's policer (R479). -/
def qosUe (g : Cfg) (x : EccHit) (d : Dyn) : Dyn :=
  let q := qCfg g d
  if x.index < 4096 then setLevel x.index (burstBytes q x.index) d
  else
    let h := x.index % 128
    { d with qos := { d.qos with tc := aset 0 d.qos.tc h (cbsOf q h), tp := aset 0 d.qos.tp h (pbsOf q h) } }

/-- A word waits for the lead to rewrite it. -/
def fixPut (x : EccHit) (d : Dyn) : Dyn :=
  if d.hlth.fixes.contains x then d else { d with hlth := { d.hlth with fixes := d.hlth.fixes ++ [x] } }

/-- Outcome of an uncorrectable error by structure (Table 16.3, R147, R255, R333). -/
def ueOutcome (g : Cfg) (x : EccHit) (d : Dyn) : Dyn :=
  match x.kind with
  | .dirEntry => dirUe g x d
  | .xltEntry =>
    let k := x.inst % 4 * 4096 + x.index / 16 % 4096
    raise 0x030A (hitDie x) [x.index]
      { d with xlt := { d.xlt with cache := aset [] d.xlt.cache k ((aget [] d.xlt.cache k).eraseIdx (x.index % 16)) } }
  | .queueDesc => descUe g x d
  | .routeWord =>
    if d.noc.badWord.contains (x.inst, x.index) then d
    else fixPut x { d with noc := { d.noc with badWord := d.noc.badWord ++ [(x.inst, x.index)] } }
  | .gateRule => fixPut x d
  | .ringState => if (ringGet d x.index).state = 1 then ringError g x.index (ringGet d x.index).head 7 d else d
  | .cfgWord => fixPut x d
  | .migWindow =>
    let i := x.inst % 4 * 16 + x.index % 16
    if migState d i = 0 then d else migSet i { migGet d i with window := 2 ^ 512 - 1 } d
  | .hotEntry =>
    let k := x.inst % 4 * 1024 + x.index / 8 % 1024
    { d with xlt := { d.xlt with hot := aset [] d.xlt.hot k ((aget [] d.xlt.hot k).eraseIdx (x.index % 8)) } }
  | .qosState => qosUe g x d
  | .allocSram => { d with alloc := { d.alloc with rebuild := true } }

/-- A control word found in error, by a sweep or by an access: corrected and written back, or the outcome of Table 16.3 with event
0x0C07; both are counted (R478, R479). -/
def eccHit (g : Cfg) (x : EccHit) (d : Dyn) : Dyn :=
  if x.ue then ueOutcome g x (raise 0x0C07 (hitDie x) [x.kind.ctorIdx, x.inst, x.index] (bump .hlthScrubStsUe (hitDie x) 1 d))
  else
    let d := bump .hlthScrubStsCe (hitDie x) 1 d
    if x.kind == .dirEntry then
      let sl := x.inst % 48
      put .dirEccStsCe sl 1 (put .dirEccStsWay sl (x.index % 16) (put .dirEccStsSet sl (x.index / 16 % 16384) d))
    else d

/-- M2S_REQUEST: a request enters at an ingress logical port and is gate-checked, attributed and translated; `hits` are the control
words its accesses find in error (R31, R147, R256, R286, R478, R479). -/
def execM2sRequest (hits : List EccHit) (r : Req) (s : State) : Host.Outcome State Fault Refusal :=
  nextDyn s fun g d => arrive g r (forAll hits (eccHit g) d)

/-- SHARED_REQUEST: the messages present at a home slice are taken, writebacks before requests and those in the arbiter's order; `hits` are
the directory entries their lookups find in error (R236, R240, R243 to R246, R255). -/
def execSharedRequest (hits : List EccHit) (sl : DSlice) (wbs : List WbHdr) (qs : List SReq) (s : State) : Host.Outcome State Fault Refusal :=
  nextDyn s fun g d => if sliceStopped d sl then d else takeCycle g sl wbs qs (forAll hits (eccHit g) d)

/-- CONTROL_WORD_REWRITE: the lead rewrites a word; packets wait at their interface no longer, and requests that a die's gate held
are checked (R479). -/
def execControlWordRewrite (x : EccHit) (s : State) : Host.Outcome State Fault Refusal :=
  nextDyn s fun g d =>
    if !d.hlth.fixes.contains x || (leadDie d).isNone then d
    else
      let d := { d with hlth := { d.hlth with fixes := d.hlth.fixes.filter fun y => y != x },
                        noc := { d.noc with badWord := d.noc.badWord.filter fun y => !(x.kind == .routeWord && y == (x.inst, x.index)) } }
      if x.kind == .gateRule && !ruleInError d x.inst then
        let l := d.hlth.gateWait.filter fun r => lpDie r.lport == x.inst
        let d := { d with hlth := { d.hlth with gateWait := d.hlth.gateWait.filter fun r => lpDie r.lport != x.inst } }
        forAll l (requestIn g) d
      else d

/-- SCRUB_MS in ns; below 20 acts as 20 (R478). -/
def scrubNs (g : Cfg) : Nat := max 20 (cg g .hlthCtlScrubMs 0) * 1000000

/-- Ways that the sweep of a directory slice rewrites are usable again, and lines that wait for one try again (R255). -/
def waysBack (g : Cfg) (sl : Nat) (d : Dyn) : Dyn :=
  let x := dirGet d sl
  let ks := (x.sets.cells.filter fun c => c.2.any DirWay.bad).map Prod.fst
  forAll ks (fun k d =>
    let x := dirGet d sl
    seekAgain g sl (dirSet sl { x with sets := aset [] x.sets k ((aget [] x.sets k).filter fun w => !w.bad) } d)) d

/-- A set found with correctable errors on two sweeps asks for a spare; with none left event 0x0C06 (R481). -/
def spareAsk (sl set : Nat) (d : Dyn) : Dyn :=
  if (d.hlth.running ++ d.hlth.waiting).any fun a => a.q.code == 9 && a.q.strukt == sl && a.tag == set then d
  else if 16 ≤ (dirGet d sl).spared.length then raise 0x0C06 (sl / 12) [sl, set] d
  else (arbAsk { actReq 9 [] [] with strukt := sl } set d).2

/-- SCRUB_SWEEP: a granted sweep of a structure ends: corrected words are written back, uncorrectable ones have their outcome, sets
with errors on two consecutive sweeps ask for sparing, and the grant is released (R478, R479, R481). -/
def execScrubSweep (strukt : Fin 112) (hits : List EccHit) (s : State) : Host.Outcome State Fault Refusal :=
  nextDyn s fun g d =>
    match d.hlth.running.find? fun a => a.q.code == 1 && a.q.strukt == strukt.val with
    | none => d
    | some a =>
      if d.now < aget 0 d.hlth.scrubs strukt + scrubNs g then d
      else
        let d := if strukt.val < 48 then waysBack g strukt d else d
        let l := hits.filter fun x => struktOf x == strukt.val
        let d := forAll l (eccHit g) d
        let sets := ((l.filter fun x => x.kind == .dirEntry && !x.ue).map fun x => x.index / 16 % 16384).dedup
        let twice := sets.filter fun k => d.hlth.ceSeen.contains (strukt.val * 16384 + k)
        let rest := d.hlth.ceSeen.filter fun k => k / 16384 != strukt.val
        let d := { d with hlth := { d.hlth with ceSeen := rest ++ sets.map fun k => strukt.val * 16384 + k,
                                                scrubs := aset 0 d.hlth.scrubs strukt d.now } }
        arbFree a.id (forAll twice (spareAsk strukt) d)

/-- SLICE_SPARING: a granted sparing moves a set to a spare set; requests to the set wait the while, and none is refused; event
0x0C0B (R481). -/
def execSliceSparing (sl : DSlice) (set : Fin 16384) (s : State) : Host.Outcome State Fault Refusal :=
  nextDyn s fun _ d =>
    match d.hlth.running.find? fun a => a.q.code == 9 && a.q.strukt == sl.val && a.tag == set.val with
    | none => d
    | some a =>
      let x := dirGet d sl
      if 16 ≤ x.spared.length then arbFree a.id (raise 0x0C06 (sl / 12) [sl.val, set.val] d)
      else
        let d := dirSet sl { x with spared := x.spared ++ [set.val] } d
        let die := sl.val / 12
        arbFree a.id (raise 0x0C0B die [sl.val, set.val] (put .hlthScrubStsSpareUsed die (rd d .hlthScrubStsSpareUsed die + 1) d))

/-! ## The arbiter's commands (R482 to R487) -/

/-- The mark of an activity that ARBITER_REQUEST asked for and ARBITER_RELEASE ends. -/
def askTag : Nat := 2 ^ 20

/-- ARBITER_REQUEST: activities that arrive in one cycle ask the arbiter; each is granted or waits (R482 to R484). -/
def execArbiterRequest (qs : List ActReq) (s : State) : Host.Outcome State Fault Refusal :=
  nextDyn s fun g d =>
    serveGrants g (arbScan (forAll (rankSort qs) (fun q d =>
      let id := d.hlth.nextAct
      { d with hlth := { d.hlth with nextAct := id + 1, waiting := arbPut ⟨id, q, d.now, askTag⟩ d.hlth.waiting } }) d))

/-- ARBITER_RELEASE: an activity that ARBITER_REQUEST asked for ends and releases its grant, and waiting requests are granted in order;
other activities release theirs by their own commands (Table 16.4). -/
def execArbiterRelease (id : Nat) (s : State) : Host.Outcome State Fault Refusal :=
  nextDyn s fun g d =>
    if d.hlth.running.any fun a => a.id == id && a.tag == askTag then serveGrants g (arbFree id d) else d

/-- An assignment whose request is abandoned is dropped: its page is free again, a ring's MIGRATE ends ARB_TIMEOUT. -/
def assignDrop (g : Cfg) (id : Nat) (d : Dyn) : Dyn :=
  match d.hlth.assigns.find? fun a => a.act == id with
  | none => d
  | some a =>
    let d := { d with hlth := { d.hlth with assigns := dropOne a d.hlth.assigns } }
    let d := if a.rebuild then twRelease (twIdxOf d a.dstDev a.dstPage) d else d
    let d := unusePages a.dstDev a.dstPage 1 d
    match a.ring with
    | some x => entDone g x.1 x.2 0x18 0 [pageTier d a.ld a.page] d
    | none => d

/-- The outcome of an abandoned request (Table 16.4). -/
def abandon (g : Cfg) (a : Act) (d : Dyn) : Dyn :=
  match a.q.code.val with
  | 0 => assignDrop g a.id d
  | 1 => { d with hlth := { d.hlth with scrubs := aset 0 d.hlth.scrubs a.q.strukt d.now } }
  | 2 => if a.q.emerg then (arbAsk a.q a.tag d).2 else d
  | 3 => if ((gklGet d a.tag).swap.map fun w => w.act) == some a.id then swapEnd a.tag 3 d else d
  | 6 => match d.boot.fw with
    | some f => if f.act = a.id then fwRefuse f.path 3 d else d
    | none => d
  | 7 => match d.boot.amd with
    | some r => if r.phase = 1 ∧ r.act = a.id then amdNext g (d.boot.amdq.length + 1) (amdRefuse g r 0x0B d) else d
    | none => d
  | 8 => if (slotGet d a.tag).act = some a.id then cycleDrop a.tag d else d
  | _ => d

/-- ARB_ABANDON: a request not granted within 100 ms is abandoned, counted, with event 0x0C08; the reconfiguration for a lost link
never is (R485, R486). -/
def execArbAbandon (id : Nat) (s : State) : Host.Outcome State Fault Refusal :=
  nextDyn s fun g d =>
    match d.hlth.waiting.find? fun a => a.id == id with
    | none => d
    | some a =>
      if d.now < a.at0 + 100000000 ∨ a.q.lostLink then d
      else
        let d := { d with hlth := { d.hlth with waiting := dropOne a d.hlth.waiting } }
        let d := raise 0x0C08 (leadOr0 d) [a.q.code.val] (bump .hlthArbStsAbandoned 0 1 d)
        serveGrants g (arbScan (abandon g a d))

/-! ## Re-planning (R470 to R476) -/

/-- The window of a region's set point in 0.5 mV units (HLTH.VREG). -/
def vMax (g : Cfg) (r : Nat) : Nat := 2 * min 800 (cg g .hlthVregVmaxMv r)
/-- The lower bound of a region's set point in 0.5 mV units. -/
def vMin (g : Cfg) (r : Nat) : Nat := 2 * max 700 (cg g .hlthVregVminMv r)

/-- A region needs a step: asked of the arbiter, or beyond the window AT_LIMIT and event 0x0C02 (R474). The tag is 2 × region, + 1 for
a step up. -/
def avAsk (g : Cfg) (r : Nat) (up emerg : Bool) (d : Dyn) : Dyn :=
  let v := rd d .hlthVregVset r
  if (if up then decide (v + 5 ≤ vMax g r) else decide (vMin g r + 5 ≤ v)) then
    (arbAsk { actReq 2 [] [r] with emerg := emerg } (2 * r + b2n up) d).2
  else raise 0x0C02 (r / 2) [r] (put .hlthVregAtLimit r 1 d)

/-- The least reading of a region among `n` per region, in ps (Table 16.1). -/
def slackOf (m : Monitors) (r : Nat) : Option Nat := (((m.slack.drop (4 * r)).take 4).map fun x => 5 * x).min?

/-- The worst slowdown of a region against OTP. -/
def shiftOf (m : Monitors) (base : List Nat) (r : Nat) : Nat :=
  (List.range 8).foldl (fun w k => max w ((m.roShift[8 * r + k]?).getD 0 - (base[8 * r + k]?).getD 0)) 0

/-- The logical port a CXL lane (port unit × 16 + lane) belongs to (Table 2.2). -/
def laneLp (g : Cfg) (lane : Nat) : Nat :=
  let p := lane / 16
  let b := cg g .portPcfgBif p
  4 * p + (if b = 0 then 0 else if b = 1 then lane % 16 / 8 else lane % 16 / 4)

/-- CXL lanes of a port unit below a threshold, on links in L0. -/
def lowLanes (g : Cfg) (d : Dyn) (m : Monitors) (p : Nat) : List Nat :=
  (m.cxl.filter fun x => x.1 / 16 == p && (decide (x.2.1 < cg g .hlthMarginCxlTMin 0) || decide (x.2.2 < cg g .hlthMarginCxlVMin 0))
    && inL0 d (laneLp g x.1)).map Prod.fst

/-- Re-equalisation of one port of each unit with a low lane, or event 0x0C03 for each lane (Table 16.2, R476). -/
def planReeq (g : Cfg) (m : Monitors) (d : Dyn) : Dyn :=
  forAll (List.range 48) (fun p d =>
    match lowLanes g d m p with
    | [] => d
    | x :: t =>
      if cg g .hlthCtlReeqEn 0 = 1 ∧ cg g .hlthCtlReeqPause 0 = 1 then (arbAsk (actReq 4 [p] [puRegion p]) (laneLp g x) d).2
      else forAll (x :: t) (fun y d => raise 0x0C03 (p / 12) [y] d) d) d

/-- A swap of a data lane may be asked for now: none runs on the endpoint and the group's spare is free (R371). -/
def spareFree (d : Dyn) (n grp : Nat) : Bool :=
  !spareUsed d n grp && !bitAt (spareBits d n grp) 4 && !(gklGet d n).lost.contains (18 * grp + 17)

/-- Data lanes with a low eye, one per group, while the group's spare is free (Table 16.2). A reading is endpoint, group × 18 +
position, height, width. -/
def lowEyes (g : Cfg) (d : Dyn) (m : Monitors) : List (Nat × Nat × Nat) :=
  (List.range 36).flatMap fun n => (List.range (gklGroups n)).filterMap fun k =>
    if !spareFree d n k then none
    else (m.eyes.find? fun x => x.1 == n && x.2.1 / 18 == k && decide (x.2.1 % 18 < 16)
      && (decide (x.2.2.1 < cg g .hlthMarginEyeHMin 0) || decide (x.2.2.2 < cg g .hlthMarginEyeWMin 0))).map fun x => (n, k, x.2.1 % 18)

/-- Swaps of a cycle are asked for, one at a time on an endpoint, which two would exclude each other on (Table 16.6 k). -/
def planKick (d : Dyn) : Dyn :=
  forAll d.hlth.planSwaps (fun x d =>
    if (gklGet d x.1).swap.isSome then d
    else
      let d := { d with hlth := { d.hlth with planSwaps := dropOne x d.hlth.planSwaps } }
      if !spareFree d x.1 x.2.1 then d
      else
        let id := d.hlth.nextAct
        swapAsk x.1 x.2.1 x.2.2 { d with hlth := { d.hlth with planActs := d.hlth.planActs ++ [id] } }) d

/-- Lane readings kept as baselines: CXL lanes at their number, GnokuLink lanes at 1024 + 256 × endpoint + lane (R471). -/
def baseLanes (m : Monitors) (a : Arr Nat) : Arr Nat :=
  let a := m.cxl.foldl (fun a x => aset 0 a x.1 (x.2.1 * 1024 + x.2.2)) a
  m.eyes.foldl (fun a x => aset 0 a (1024 + 256 * x.1 + x.2.1) (x.2.2.1 * 1024 + x.2.2.2)) a

/-- A region's age as the monitors give it: slowdown, least slack, event 0x0C05 above TH_WARN (R470, R473). -/
def noteAge (g : Cfg) (m : Monitors) (r : Nat) (d : Dyn) : Dyn :=
  let w := shiftOf m d.boot.otp.roBase r
  let d := put .hlthAgeRoShift r (min w 65535) d
  let d := match slackOf m r with
    | some x => put .hlthAgeSlackPs r (min x 255) d
    | none => d
  if cg g .hlthAgeThWarn 0 < w then raise 0x0C05 (r / 2) [r] d else d

/-- The first voltage step of a plan for a region whose slack lies outside LO_PS to HI_PS (R475). -/
def planAv (g : Cfg) (m : Monitors) (r : Nat) (d : Dyn) : Dyn :=
  let e := { d with hlth := { d.hlth with avSteps := aset 0 d.hlth.avSteps r 1 } }
  match slackOf m r with
  | none => d
  | some x => if x < cg g .hlthSlackLoPs 0 then avAsk g r true false e
    else if cg g .hlthSlackHiPs 0 < x then avAsk g r false false e else d

/-- A cycle opens: the next is due PLAN_H hours later, the lanes whose eyes are low are to be swapped where SWAP_EN allows, and the first
cycle's lane readings are the baselines (R471, R473, Table 16.2). -/
def planBegin (g : Cfg) (m : Monitors) (d : Dyn) : Dyn :=
  { d with hlth := { d.hlth with
      planOpen := true, planAt := d.hlth.planAt + max 1 (cg g .hlthCtlPlanH 0) * 3600000000000, planActs := []
      planSwaps := if cg g .hlthCtlSwapEn 0 = 1 then lowEyes g d m else [], avSteps := arrEmpty, based := true
      laneBase := if d.hlth.based then d.hlth.laneBase else baseLanes m d.hlth.laneBase } }

/-- REPLAN: a re-planning cycle reads every monitor, reports ageing, asks for the actions of Table 16.2 and writes its plan record
(R470 to R473). -/
def execReplan (m : Monitors) (s : State) : Host.Outcome State Fault Refusal :=
  nextDyn s fun g d =>
    if rd d .secBootStsStage 0 ≠ 8 ∨ d.hlth.planOpen ∨ d.now < d.hlth.planAt then d
    else
      let d := forAll (List.range 8) (noteAge g m) d
      let from0 := d.hlth.nextAct
      let d := planKick (planReeq g m (planBegin g m d))
      let d := if cg g .hlthCtlAvEn 0 = 0 then d else forAll (List.range 8) (planAv g m) d
      let mine := (List.range (d.hlth.nextAct - from0)).map fun k => from0 + k
      let acts := ((d.hlth.running ++ d.hlth.waiting).filter fun a => mine.contains a.id).map Act.q
      let vs := (List.range 8).map fun r => rd d .hlthVregVset r
      serveGrants g (nvPut (.plan ⟨m, vs, acts⟩) { d with hlth := { d.hlth with planActs := mine } })

/-- PLAN_DONE: every request of the cycle is done or abandoned, and the cycle ends with event 0x0C01 (R473). -/
def execPlanDone (s : State) : Host.Outcome State Fault Refusal :=
  nextDyn s fun _ d =>
    let d := planKick d
    if !d.hlth.planOpen || !d.hlth.planSwaps.isEmpty || (d.hlth.planActs.any fun id => arbKnown d id) then d
    else raise 0x0C01 (leadOr0 d) [] { d with hlth := { d.hlth with planOpen := false, planActs := [] } }

/-- AV_STEP: a granted step changes its region's set point by 2.5 mV; it waits while a domain of the region sleeps (R413, R474). -/
def execAvStep (r : Region) (s : State) : Host.Outcome State Fault Refusal :=
  nextDyn s fun g d =>
    match d.hlth.running.find? fun a => a.q.code == 2 && a.tag / 2 == r.val && !(d.hlth.avRun.any fun x => x.2.2 == a.id) with
    | none => d
    | some a =>
      if regionSleeps g d r then d
      else
        let v := rd d .hlthVregVset r
        let ok := if a.tag % 2 = 1 then decide (v + 5 ≤ vMax g r) else decide (vMin g r + 5 ≤ v)
        if ok then
          put .hlthVregVset r (if a.tag % 2 = 1 then v + 5 else v - 5)
            { d with hlth := { d.hlth with avRun := d.hlth.avRun ++ [(r.val, d.now, a.id)] } }
        else arbFree a.id (raise 0x0C02 (r / 2) [r.val] (put .hlthVregAtLimit r 1 d))

/-- AV_STEP_COMPLETE: 50 µs after the set point the step is complete; a cycle whose region still needs one, as its replicas now read
(5 ps steps), asks for the next, at most four (R470, R473, R474). -/
def execAvStepComplete (r : Region) (slack : Fin 64) (s : State) : Host.Outcome State Fault Refusal :=
  nextDyn s fun g d =>
    match d.hlth.avRun.find? fun x => x.1 == r.val with
    | none => d
    | some x =>
      if d.now < x.2.1 + 50000 then d
      else
        let mine := d.hlth.planOpen && d.hlth.planActs.contains x.2.2
        let d := put .hlthAgeSlackPs r (min 255 (5 * slack)) { d with hlth := { d.hlth with avRun := dropOne x d.hlth.avRun } }
        let n := aget 0 d.hlth.avSteps r
        let up := decide (5 * slack.val < cg g .hlthSlackLoPs 0)
        let id := d.hlth.nextAct
        let d := if mine && decide (n < 4) && cg g .hlthCtlAvEn 0 == 1 && (up || decide (cg g .hlthSlackHiPs 0 < 5 * slack.val)) then
            avAsk g r up false { d with hlth := { d.hlth with avSteps := aset 0 d.hlth.avSteps r (n + 1), planActs := d.hlth.planActs ++ [id] } }
          else d
        serveGrants g (arbFree x.2.2 d)

/-- AV_EMERGENCY: between cycles, a replica slack below EMERG_PS asks at once for a step up; event 0x0C0D. A region asks again only
when its last emergency step is over (R475). -/
def execAvEmergency (r : Region) (slack : Fin 64) (s : State) : Host.Outcome State Fault Refusal :=
  nextDyn s fun g d =>
    let pend := (d.hlth.running ++ d.hlth.waiting).any fun a => a.q.emerg && a.tag / 2 == r.val
    if rd d .secBootStsStage 0 ≠ 8 ∨ d.hlth.planOpen ∨ cg g .hlthCtlAvEn 0 = 0 ∨ cg g .hlthSlackEmergPs 0 ≤ 5 * slack.val ∨ pend then d
    else
      let d := put .hlthAgeSlackPs r (min 255 (5 * slack)) d
      avAsk g r true true (if rd d .hlthVregVset r + 5 ≤ vMax g r then raise 0x0C0D (r / 2) [r.val] d else d)

/-- REEQUALISATION: a granted re-equalisation takes the port's link out of L0 through recovery; traffic toward it waits (R476). -/
def execReequalisation (lp : Lport) (s : State) : Host.Outcome State Fault Refusal :=
  nextDyn s fun g d =>
    match runningOf d 4 lp with
    | none => d
    | some a =>
      if d.hlth.reeq.any fun x => x.1 == lp.val then d
      else if !inL0 d lp then serveGrants g (arbFree a.id d)
      else { d with hlth := { d.hlth with reeq := d.hlth.reeq ++ [(lp.val, d.now, a.id)] } }

/-- REEQ_DONE: the link is back in L0 within 2 ms; event 0x0C04 (R476). -/
def execReeqDone (lp : Lport) (s : State) : Host.Outcome State Fault Refusal :=
  nextDyn s fun g d =>
    match d.hlth.reeq.find? fun x => x.1 == lp.val with
    | none => d
    | some x =>
      if x.2.1 + 2000000 ≤ d.now ∨ !lpLinkUp d lp then d
      else serveGrants g (arbFree x.2.2 (raise 0x0C04 (lpDie lp) [lp.val] { d with hlth := { d.hlth with reeq := dropOne x d.hlth.reeq } }))

/-- REEQ_TIMEOUT: the link is not back at 2 ms, which is link loss: DPC reason 1 downstream, R89 upstream (R476). -/
def execReeqTimeout (lp : Lport) (s : State) : Host.Outcome State Fault Refusal :=
  nextDyn s fun g d =>
    match d.hlth.reeq.find? fun x => x.1 == lp.val with
    | none => d
    | some x =>
      if d.now < x.2.1 + 2000000 then d
      else
        let d := arbFree x.2.2 { d with hlth := { d.hlth with reeq := dropOne x d.hlth.reeq } }
        serveGrants g (if !lpLinkUp d lp then d else if isUp g d lp then upLost g lp d else dpc g lp 1 false d)

/-! ## Lead failover (R488 to R491) -/

/-- HEARTBEAT: the lead sends its word, `fresh` when its firmware has refreshed it, and the followers in `ans` answer that they
received it (R488). -/
def execHeartbeat (fresh : Bool) (ans : List Die) (s : State) : Host.Outcome State Fault Refusal :=
  nextDyn s fun _ d =>
    match leadDie d with
    | none => d
    | some k =>
      if d.hlth.withdrawn.contains k || d.hlth.down.contains k then d
      else
        let d := emit (.heartbeat k true) { d with hlth := { d.hlth with hbWord := d.now } }
        let d := if fresh then { d with hlth := { d.hlth with hbLead := d.now } } else d
        if ans.any fun j => j.val != k && !d.hlth.down.contains j.val then { d with hlth := { d.hlth with hbAns := d.now } } else d

/-- A die no longer acts as lead, and its management complex is in reset (R488). -/
def withdraw (k : Nat) (d : Dyn) : Dyn :=
  { d with hlth := { d.hlth with withdrawn := (d.hlth.withdrawn.filter fun j => j != k) ++ [k],
                                 down := (d.hlth.down.filter fun j => j != k) ++ [k] },
           mgmt := { d.mgmt with moving := true } }

/-- LEAD_WITHDRAW: without a firmware refresh or an answer for 0.5 ms the always-on block withdraws the lead's functions; accesses
through the global alias are held (R10, R488). -/
def execLeadWithdraw (s : State) : Host.Outcome State Fault Refusal :=
  nextDyn s fun _ d =>
    match leadDie d with
    | none => d
    | some k =>
      if d.hlth.withdrawn.contains k || rd d .secBootStsStage 0 != 8 then d
      else if d.hlth.hbLead + 500000 ≤ d.now ∨ d.hlth.hbAns + 500000 ≤ d.now then withdraw k d else d

/-- LEAD_FAILOVER: the lead has sent no word for 1 ms and another surviving die's words agree: the standby takes over, or with it
failed too the next healthy die, which rebuilds; accesses held complete (R10, R27, R489, R490). -/
def execLeadFailover (agree : Die) (s : State) : Host.Outcome State Fault Refusal :=
  nextDyn s fun g d =>
    match leadDie d with
    | none => d
    | some k =>
      if rd d .secBootStsStage 0 ≠ 8 ∨ d.now < d.hlth.hbWord + 1000000 then d
      else
        let d' := withdraw k d
        let sb := (standbyDie d').filter fun j => dieHealthy d' j
        match (if sb.isSome then sb else nextHealthy d' k) with
        | none => d
        | some n =>
          if agree.val = k ∨ agree.val = n ∨ !dieHealthy d' agree then d
          else heldRun g (fwDies (takeOver g k n sb.isNone d'))

/-- A die's management complex works again: no longer down or withdrawn, its Ranger locked (R491, R524). -/
def mgmtBack (k : Nat) (d : Dyn) : Dyn :=
  monLock k { d with hlth := { d.hlth with down := d.hlth.down.filter fun j => j != k
                                           withdrawn := d.hlth.withdrawn.filter fun j => j != k } }

/-- MGMT_RELOAD: a failed management complex has reloaded firmware from the flash source and its die rejoins as a follower, unless
its region has failed; its Ranger is locked. A package without a standby has one again (R14, R27, R448, R491, R524). -/
def execMgmtReload (k : Die) (s : State) : Host.Outcome State Fault Refusal :=
  nextDyn s fun g d =>
    if !(d.hlth.down.contains k.val || d.hlth.withdrawn.contains k.val) || regFail d (2 * k) || (flashSource d).isNone
      || leadDie d == some k.val then d
    else
      let d := mgmtBack k d
      match leadDie d, standbyDie d with
      | some l, none => setStandby g l d
      | _, _ => d

/-! ## The event log (R492, R493) -/

/-- The tokens of the event log: one more a second, at most 256 (R492). -/
def elogFill (d : Dyn) : Dyn :=
  let n := (d.now - d.hlth.elogAt) / 1000000000
  { d with hlth := { d.hlth with elogTok := min 256 (d.hlth.elogTok + n), elogAt := d.hlth.elogAt + n * 1000000000 } }

/-- EVENT_LOG_WRITE: the oldest queued record goes to flash, at most 256 in a burst and 1 per second on average (R492). -/
def execEventLogWrite (s : State) : Host.Outcome State Fault Refusal :=
  nextDyn s fun _ d =>
    let d := elogFill d
    match d.ev with
    | [] => d
    | e :: t =>
      if d.hlth.elogTok = 0 ∨ (leadDie d).isNone then d
      else nvPut (.ev e) { d with ev := t, hlth := { d.hlth with elogTok := d.hlth.elogTok - 1 } }

end Machine
end Sys2Proof
end

