-- ==== Sys2Proof/Machine/Ranger.lean ====
section
/-! DEFINITION. The Ranger monitor of each die and its debug unlock (spec/18, R519 to R525). What a command prints is a name and the
words of Table 18.5; the text around them is not in the spec (assumption 77). -/

namespace Sys2Proof
namespace Machine

/-- A die's Ranger runs a command: its management complex works, and in RECOVERY only id and log are served (R520). -/
def rangerUp (d : Dyn) (die : Nat) (inRec : Bool) : Bool := mgmtAnswers d die && (inRec || !inRecovery d)

/-- Print a result. -/
def say (die : Nat) (text : String) (ws : List Nat) (d : Dyn) : Dyn := emit (.ranger die text ws) d

/-- A locked command prints "locked", runs nothing and is counted (R521). -/
def sayLocked (die : Nat) (d : Dyn) : Dyn := say die "locked" [] (bump .mgmtCmdCntRefused die 1 d)

/-- Words at offsets of a die's window, RC fields left as they are. -/
def peeks (g : Cfg) (die : Nat) (offs : List Nat) (d : Dyn) : List Nat :=
  offs.map fun o => (csrRead g (.perf 0) true (die * 2 ^ 28 + o) 4 d).1

/-- HELP: lists the commands and their syntax, or one command's (Table 18.5). -/
def execHelp (die : Die) (topic : Option (Fin 10)) (s : State) : Host.Outcome State Fault Refusal :=
  nextDyn s fun _ d =>
    if !rangerUp d die false then d
    else say die "help id ports slot counters log margin rd wr trace" (topic.toList.map fun t => t.val) d

/-- The words of an id line (Table 18.5). -/
def idWordsOf (g : Cfg) (d : Dyn) (die : Nat) : List Nat :=
  let chal := (List.range 8).map fun w => rd d .monChalChal (die * 8 + w)
  let lock := (regAt 0x2400004).map fun a => regVal g d a.row.flds (regIdx a die)
  let img := match d.boot.image with
    | some m => words64 m.seq ++ [m.svn]
    | none => words64 (rd d .secImgSeqSeq 0) ++ [0]
  [rd d .dieDieIdStep die, ownPkg d, die, leadOr0 d] ++ img ++ [rd d .secAmdStsLastSeq 0] ++ chal ++ [lock.getD 0]

/-- ID: stepping, package ID, die, lead, running image SEQ and SVN, LAST_SEQ, the challenge and the lock state (Table 18.5). -/
def execId (die : Die) (s : State) : Host.Outcome State Fault Refusal :=
  nextDyn s fun g d =>
    if !rangerUp d die true then d
    else say die "id" (idWordsOf g d die) d

/-- PORTS: number, role, binding, LSTS and CONT of each logical port of the die, or of one (Table 18.5). -/
def execPorts (die : Die) (lp : Option Lport) (s : State) : Host.Outcome State Fault Refusal :=
  nextDyn s fun g d =>
    if !rangerUp d die false then d
    else
      let l := (List.range 192).filter fun k => k / 48 == die.val && lpExists g k && (lp.map fun x => x.val == k).getD true
      say die "ports" (l.flatMap fun k =>
        let o := 0x800000 + 0x10000 * (k / 4 % 12) + 16 * (k % 4)
        [k, lpRole g d k, lpBind g k] ++ peeks g die [o + 0x100, o + 0x104] d) d

/-- SLOT: channel, STS, MEAS and IMEAS of each channel of the die, or of one (Table 18.5). -/
def execSlot (die : Die) (ch : Option (Fin 12)) (s : State) : Host.Outcome State Fault Refusal :=
  nextDyn s fun g d =>
    if !rangerUp d die false then d
    else
      let l := (List.range 12).filter fun k => (ch.map fun x => x.val == k).getD true
      say die "slot" (l.flatMap fun k =>
        let o := 0x2000000 + 0x10000 * k
        k :: peeks g die [o + 0x10, o + 0x14, o + 0x18] d) d

/-- Values and selections of counters of a die, read as any path reads them (R501, R509). -/
def ctrDump (g : Cfg) (die : Nat) : Nat → Nat → Dyn → List Nat × Dyn
  | _, 0, d => ([], d)
  | i, n + 1, d =>
    if 1024 ≤ i then ([], d)
    else
      let r := csrReads g (.ranger (Fin.ofNat 4 die)) false (die * 2 ^ 28 + 0x2104000 + 8 * i) 2 d
      let t := ctrDump g die (i + 1) n r.2
      (r.1 ++ peeks g die [0x2101000 + 4 * i] d ++ t.1, t.2)

/-- COUNTERS: VAL_i and SEL_i of up to 64 counters from an index; one without a count (Table 18.5). -/
def execCounters (die : Die) (i : Fin 1024) (n : Option (Fin 65)) (s : State) : Host.Outcome State Fault Refusal :=
  nextDyn s fun g d =>
    if !rangerUp d die false then d
    else
      let r := ctrDump g die i (match n with
        | some k => k.val
        | none => 1) d
      say die "counters" r.1 r.2

/-- LOG: the newest event records, 16 without a number (Table 18.5). -/
def execLog (die : Die) (n : Option Nat) (s : State) : Host.Outcome State Fault Refusal :=
  nextDyn s fun _ d =>
    if !rangerUp d die true then d
    else
      let k := n.getD 16
      let l := d.hlth.elog ++ d.ev
      say die "log" ((l.drop (l.length - k)).flatMap evWords) d

/-- The readings of a plan record for a logical port's lanes or for an endpoint: lane and two readings each. -/
def marginWords (g : Cfg) (p : PlanRec) (lp : Option Nat) (ep : Option Nat) : List Nat :=
  (p.mon.cxl.filter fun x => (lp.map fun k => laneLp g x.1 == k).getD ep.isNone).flatMap (fun x => [x.1, x.2.1, x.2.2])
    ++ (p.mon.eyes.filter fun x => (ep.map fun k => x.1 == k).getD lp.isNone).flatMap fun x => [x.1, x.2.1, x.2.2.1, x.2.2.2]

/-- The live eyes of a die's endpoints, or of one of them, each a register read. -/
def eyeWords (g : Cfg) (die : Nat) (path : Path) (every : Bool) (ep : Option Nat) (d : Dyn) : List Nat × Dyn :=
  ((List.range 9).filter fun k => (ep.map fun x => x == die * 9 + k).getD every).foldl (fun (r : List Nat × Dyn) k =>
    let x := csrRead g path true (die * 2 ^ 28 + 0x500020 + 0x1000 * k) 4 r.2
    (r.1 ++ [k, x.1], x.2)) ([], d)

/-- The readings of the last plan record for a port or an endpoint. -/
def lastMargin (g : Cfg) (d : Dyn) (lp ep : Option Nat) : List Nat :=
  match d.hlth.plans.getLast? with
  | some p => marginWords g p lp ep
  | none => []

/-- MARGIN: the latest receiver margins, the live eye of an endpoint, and the values of the last plan record, of all links or of a
port or an endpoint (Table 18.5). -/
def execMargin (die : Die) (lp : Option Lport) (ep : Option Ep) (s : State) : Host.Outcome State Fault Refusal :=
  nextDyn s fun g d =>
    if !rangerUp d die false then d
    else
      let r := eyeWords g die (.ranger die) lp.isNone (ep.map Fin.val) d
      say die "margin" (r.1 ++ lastMargin g d (lp.map Fin.val) (ep.map Fin.val)) r.2

/-- RD: up to 64 words from an address, RC fields read without clearing; held like any access while its die cannot answer (R10,
R521, Table 18.5). -/
def execRd (die : Die) (addr : Nat) (n : Fin 65) (s : State) : Host.Outcome State Fault Refusal :=
  nextDyn s fun g d =>
    if !rangerUp d die false then d
    else if accessWaits g d addr && decide (addr ≤ 0x4FFFFFFF) then holdCmd g (.ranger die) (.csrRead addr n true) d
    else
      let r := csrReads g (.ranger die) true addr n d
      say die "rd" r.1 r.2

/-- WR: up to 64 words to consecutive offsets; while locked only to the unlock registers; event 0x0E05 with the address and the first
word when an unlocked Ranger writes elsewhere (R519, R524, R525). -/
def execWr (die : Die) (addr : Nat) (vals : List Word) (s : State) : Host.Outcome State Fault Refusal :=
  nextDyn s fun g d =>
    if !rangerUp d die false then d
    else
      let ws := (vals.take 64).map fun w => w.toNat
      let at1 := (List.range ws.length).map fun k => addr + 4 * k
      if !(at1.all fun a => mayWrite g d (.ranger die) a) then sayLocked die d
      else
        let d := if at1.all unlockReg then d else raise 0x0E05 die [die.val, addr, ws.headD 0] d
        if accessWaits g d addr && decide (addr ≤ 0x4FFFFFFF) then holdCmd g (.ranger die) (.csrWrite addr ws) d
        else say die "wr" [] (csrWrites g (.ranger die) addr ws d)

/-- What trace does (Table 18.5). -/
def traceDo (die : Die) (op : TraceOp) (d : Dyn) : Dyn :=
  match op with
  | .arm lp => if lpDie lp = die.val then say die "trace" [] (traceWrite die true lp d) else say die "trace" [] d
  | .off => say die "trace" [] (traceWrite die false (rd d .monTraceCtlLport die) d)
  | .dump => say die "trace" ((aget mon0 d.mon die).trace.flatMap fun x => x) d

/-- TRACE: arms the header trace for a logical port of the die, stops it or prints it, by a Ranger unlocked with SCOPE TRACE (R519,
R522). -/
def execTrace (die : Die) (op : TraceOp) (s : State) : Host.Outcome State Fault Refusal :=
  nextDyn s fun _ d =>
    if !rangerUp d die false then d
    else if mayTrace d (.ranger die) die then traceDo die op d
    else sayLocked die d

/-- GO: a write of 1 to DBG_CMD.GO checks the token in the window, `sigs` being the verdict on its two signatures, and draws a new
challenge (R523, R524). -/
def execGo (die : Die) (sigs : Bool) (s : State) : Host.Outcome State Fault Refusal :=
  nextDyn s fun _ d => if rangerUp d die false then monGo die sigs d else d

/-- LOCK: a write of 1 to DBG_CMD.LOCK locks the die's Ranger at once (R524). -/
def execLock (die : Die) (s : State) : Host.Outcome State Fault Refusal :=
  nextDyn s fun _ d => if rangerUp d die false then monLock die d else d

/-- UNLOCK_EXPIRY: TTL_S seconds after its unlock the die locks again (R524). -/
def execUnlockExpiry (die : Die) (s : State) : Host.Outcome State Fault Refusal :=
  nextDyn s fun _ d => if (aget mon0 d.mon die).until0 ≤ d.now then monLock die d else d

/-- LOCKOUT_EXPIRY: 10 minutes after its third failed check LOCKOUT ends (R524). -/
def execLockoutExpiry (die : Die) (s : State) : Host.Outcome State Fault Refusal :=
  nextDyn s fun _ d =>
    if rd d .monDbgStsLockout die = 1 ∧ (aget mon0 d.mon die).outEnd ≤ d.now then put .monDbgStsLockout die 0 d else d

end Machine
end Sys2Proof
end

