-- ==== Sys2Proof/Machine/Elec.lean ====
section
/-! DEFINITION. Clocks, cold reset, supply and temperature (spec/01, R34 to R41; spec/19, R527 to R542). -/

namespace Sys2Proof
namespace Machine

/-! ## Region PLLs (R38 to R40) -/

/-- LOCK of a region (DIE.RCLK_STS). -/
def rgnLock (d : Dyn) (r : Nat) : Nat := if r % 2 = 0 then rd d .dieRclkStsR0Lock (r / 2) else rd d .dieRclkStsR1Lock (r / 2)
/-- Write LOCK of a region. -/
def setRgnLock (r v : Nat) (d : Dyn) : Dyn :=
  if r % 2 = 0 then put .dieRclkStsR0Lock (r / 2) v d else put .dieRclkStsR1Lock (r / 2) v d
/-- Set UNLOCK of a region. -/
def setRgnUnlock (r : Nat) (d : Dyn) : Dyn :=
  if r % 2 = 0 then put .dieRclkStsR0Unlock (r / 2) 1 d else put .dieRclkStsR1Unlock (r / 2) 1 d

/-- Failed re-lock attempts of a region since it lost lock, plus one; 0 while no re-lock runs. -/
def relockOf (d : Dyn) (r : Nat) : Nat := aget 0 d.elec.relock r
/-- Write a region's re-lock state. -/
def setRelock (r n : Nat) (d : Dyn) : Dyn := { d with elec := { d.elec with relock := aset 0 d.elec.relock r n } }

/-- PLL_UNLOCK: a region's clock stops with its state kept: LOCK 0, UNLOCK 1, event 0x0901, and the first re-lock attempt starts. A
region whose PLL is off has no lock to lose (R38, R39). -/
def execPllUnlock (r : Region) (s : State) : Host.Outcome State Fault Refusal :=
  nextDyn s fun _ d =>
    if rgnLock d r = 0 ∨ regFail d r then d
    else setRelock r 1 (raise 0x0901 (r / 2) [r.val] (setRgnUnlock r (setRgnLock r 0 d)))

/-- RELOCK_ATTEMPT_END: the region resumes, or another attempt starts; after the third failure event 0x0902 and the region has failed
(R39, R40). -/
def execRelockAttemptEnd (r : Region) (ok : Bool) (s : State) : Host.Outcome State Fault Refusal :=
  nextDyn s fun g d =>
    let n := relockOf d r
    if n = 0 then d
    else if ok then
      let d := setRgnLock r 1 (setRelock r 0 d)
      if r.val % 2 = 1 then xltDrain g (r / 2) d else d
    else if n < 3 then setRelock r (n + 1) d
    else heldRun g (fwDies (regionFailed g r (raise 0x0902 (r / 2) [r.val] (setRelock r 0 d))))

/-! ## The package timestamp (R34, R35) -/

/-- A die's copy at a tick: `c` the copy, `m` the master now, `n` MGMT cycles since the last tick. The copy has advanced by 2 a cycle, a
copy that stood ahead of the master at that tick having held until the master caught up; it is corrected to between the master and 8 ns
past it, and never moves backward (R34). -/
def copyAt (c m n : Nat) : Nat := max c (max m (min (m - 40 + 2 * n) (m + 8)))

/-- Cycles of a core clock between two ticks of 40 ns at 1.5 GHz (Table 1.6). -/
def tickCycles : Nat := 60

/-- A queue of a logical port whose head waits for its slice's shaper, with the slice (R294). -/
def shapedHead (g : Cfg) (d : Dyn) (l : List Staged) : Option Nat :=
  match l with
  | [] => none
  | x :: _ => if x.deny.isNone && !passes (qCfg g d) d x.pkt.slice x.pkt.charge then x.pkt.slice else none

/-- Staged bytes of a port unit in 256 B units, of one logical port or of all (event 0x14). -/
def stagUnits (d : Dyn) (p qual : Nat) : Nat :=
  ((d.fwd.stag.cells.filter fun c => c.1 / 32 == p && (qual == 15 || c.1 / 8 % 4 == qual)).foldl
    (fun n c => c.2.foldl (fun n x => n + x.pkt.bytes) n) 0 + 255) / 256

/-- Shared cells of a cluster in use (event 0x21). -/
def shrInUse (g : Cfg) (d : Dyn) (cl : Nat) : Nat := (List.range 8).foldl (fun n q => n + classShared g cl (bufOf d cl) q) 0

/-- Logical ports in L0 or L0p whose clock runs offer slots (R502, R550). -/
def tickSlots (d : Dyn) : Dyn :=
  forAll (stsListed d .portLstsLinkUp) (fun lp d =>
    if inL0 d lp && !rtrStopped d (cluRouter (lpClu lp)) then slotMod lp (fun a => a + slotRate d lp) d else d) d

/-- What counts with time: SHAPED_NS, SHAPER_HELD and the occupancies, in units whose clock runs, the global
counters in local region 1 (R38, R495, R496, R505). -/
def tickCounts (g : Cfg) (d : Dyn) : Dyn :=
  let held := d.fwd.stag.cells.filterMap fun c => (shapedHead g d c.2).map fun s => (c.1 / 8, s)
  let d := forAll (held.map Prod.snd).dedup (fun s d => slcAdd (some s) 3 40 d) d
  let d := forAll (stsListed d .pmcSelEn) (fun j d =>
    let k := j / 1024
    let i := j % 1024
    let one (lo n ev : Nat) (occ : Nat → Nat) (d : Dyn) : Dyn :=
      if rd d .pmcSelEvent j = ev ∧ lo ≤ i ∧ i < lo + n ∧ rd d .pmcSelEn j = 1 ∧ rd d .pmcSelThr j < occ (rd d .pmcSelQual j)
      then ctrAdd j tickCycles d else d
    if i < 192 then
      let p := 12 * k + i / 16
      let waits (q : Nat) : Bool := held.any fun x => x.1 / 4 == p && (q == 15 || x.1 % 4 == q)
      if rtrStopped d (cluRouter (p / 2)) then d
      else if rd d .pmcSelEvent j = 0x15 then
        (if 5 ≤ i % 16 ∧ rd d .pmcSelEn j = 1 ∧ waits (rd d .pmcSelQual j) then ctrAdd j tickCycles d else d)
      else one (16 * (i / 16) + 5) 11 0x14 (stagUnits d p) d
    else if i < 240 then
      let cl := 6 * k + (i - 192) / 8
      if rtrStopped d (cluRouter cl) then d
      else one 192 48 0x20 (fun q => if q < 8 then classCells (bufOf d cl) q else 0) (one 192 48 0x21 (fun _ => shrInUse g d cl) d)
    else if i < 336 then
      let sl := 12 * k + (i - 240) / 8
      if rtrStopped d (cluRouter (sl / 2)) then d
      else one 240 96 0x34 (fun _ => shrUsed (dirGet d sl) + (rsvUsed (dirGet d sl)).length) d
    else if rgnLock d (2 * k + 1) = 0 then d
    else
      one 336 688 0x42 (fun _ => (missActive d k).length) (one 336 688 0x44 (fun _ => heldCount d k) d)) d
  d

/-- TIMESTAMP_TICK: an AON edge: the master advances by 40, every die's copy is corrected toward it, what counts with time counts,
and granted activities that begin with their grant begin; `cyc` gives each die's MGMT cycles since the last tick (R34, R484, R496). -/
def execTimestampTick (cyc : List (Fin 64)) (s : State) : Host.Outcome State Fault Refusal :=
  nextDyn s fun g d =>
    if !d.elec.vin then d
    else
      let d := { d with now := d.now + 40 }
      if d.elec.reset || d.elec.trip then d
      else
        let d := forAll (List.range 4) (fun k d =>
          put .dieTstampNs k (copyAt (dieTs d k) d.now (((cyc[k]?).map fun x => x.val).getD 20)) d) d
        let d := forAll (stsListed d .gklLpbkCtlMode) (fun n d => lpbkCount n d) d
        serveGrants g (planKick (tickCounts g (tickSlots (l0pLate d))))

/-! ## Cold reset and supply (R528, R533, R534) -/

/-- Every lane goes idle, every slot gate off and every driven PERST# asserted (R533, R542). -/
def pinsDown (g : Cfg) (d : Dyn) : Dyn :=
  let d := forAll ((List.range 192).filter fun lp => lpExists g lp) (fun lp d => emit (.pin (.lanes lp false)) d) d
  let d := forAll ((List.range 36).filter gklIsP) (fun n d => emit (.gklPhy n 0 0 0) d) d
  forAll (List.range 48) (fun n d =>
    let d := emit (.pin (.gate n false false)) d
    if perstDriven g d n then emit (.pin (.perst n true)) d else d) d

/-- COLD_RST: COLD_RST# has been low for `low` ns: below 100 µs ignored, up to 1 ms not defined, then the switch stops: lanes idle,
gates off, PERST# asserted, held records and every volatile state gone, the timestamp master running on. A thermal trip is cleared by
it only once every always-on sensor reads below 95 °C; until then it is ignored (R533, R534, R542). -/
def execColdRst (low : Nat) (s : State) : Host.Outcome State Fault Refusal :=
  if low < 100000 then nextDyn s fun _ d => d
  else if low < 1000000 then .fault .coldRstUndefined
  else nextCfg s fun g d =>
    if d.elec.reset || (d.elec.trip && !d.elec.aonOk) then (g, d)
    else if !d.elec.vin then (g, { d with elec := { d.elec with reset := true } })
    else
      let d := if d.elec.trip then emit (.pin (.thermtrip false)) d else pinsDown g d
      let d := carry d
      (arrEmpty, { d with elec := { d.elec with reset := true } })

/-- COLD_RST_RELEASE: the straps are sampled and the switch starts again from step 2 of Table 15.1 (R533, R534, R535). -/
def execColdRstRelease (pkg : Fin 8) (s : State) : Host.Outcome State Fault Refusal :=
  nextCfg s fun g d =>
    if !d.elec.reset then (g, d)
    else if !d.elec.vin then (g, { d with elec := { d.elec with reset := false } })
    else
      let d := carry d
      (arrEmpty, romStart pkg { d with elec := { d.elec with reset := false } })

/-- POWER_LOSS: VIN falls below the falling UVLO: everything volatile is gone until VIN rises; a thermal trip is cleared by it only
once every always-on sensor reads below 95 °C, and until then it is ignored (R528, R534, R542). -/
def execPowerLoss (s : State) : Host.Outcome State Fault Refusal :=
  nextCfg s fun g d =>
    if !d.elec.vin || (d.elec.trip && !d.elec.aonOk) then (g, d)
    else
      let d := carry (if d.elec.trip then emit (.pin (.thermtrip false)) d else d)
      (arrEmpty, { d with elec := { d.elec with vin := false, trip := false, warn := [] } })

/-! ## Temperature (R541, R542) -/

/-- WARN_C of a die; below 80 acts as 80, above 110 as 110. -/
def warnC (g : Cfg) (k : Nat) : Nat := clamp 80 110 (cg g .dieThermCtlWarnC k)

/-- The readings of a die's eight sensors. -/
def dieTemps (t : List (Fin 256)) (k : Nat) : List Nat := ((t.drop (8 * k)).take 8).map fun x => x.val

/-- THERM_STS of a die after a reading, and whether THERM# has a cause on it, which ends 3 °C below the threshold (R541). -/
def dieTherm (g : Cfg) (t : List (Fin 256)) (k : Nat) (d : Dyn) : Dyn :=
  let l := dieTemps t k
  let m := l.foldl max 0
  let d := peak .dieThermStsPeak k m (put .dieThermStsHot k (l.findIdx fun x => x == m) (put .dieThermStsTemp k m d))
  let w := warnC g k
  let d := if w ≤ m then put .dieThermStsWarn k 1 d else d
  let on := decide (w ≤ m) || (d.elec.warn.contains k && decide (w < m + 3))
  let rest := d.elec.warn.filter fun j => j != k
  { d with elec := { d.elec with warn := if on then rest ++ [k] else rest } }

/-- What a reading leaves: the supply and the dies' temperatures, and THERM# where its first cause comes or its last one goes (R541). -/
def sensorsIn (g : Cfg) (t : List (Fin 256)) (vin iin : Nat) (d : Dyn) : Dyn :=
  let was := d.elec.warn
  let d := forAll (List.range 4) (dieTherm g t) (put .dieSupplyStsVin 0 vin (put .dieSupplyStsIin 0 iin d))
  if was.isEmpty && !d.elec.warn.isEmpty then emit (.pin (.therm true)) d
  else if !was.isEmpty && d.elec.warn.isEmpty then emit (.pin (.therm false)) d else d

/-- The always-on sensors of the dies read: whether every one is below 95 °C (R542). -/
def aonNote (aon : List (Fin 256)) (d : Dyn) : Dyn :=
  { d with elec := { d.elec with aonOk := aon.all fun x => decide (x.val < 95) } }

/-- The sensors that read 120 °C or more (R542). -/
def hotSensors (t : List (Fin 256)) : List Nat :=
  (List.range 32).filter fun i => decide (120 ≤ ((t[i]?).map fun x => x.val).getD 0)

/-- SENSOR_READ: the 32 junction sensors (die × 8 + sensor), the always-on sensor of each die, and the supply are read: the status
registers, THERM#, and a thermal trip when a sensor reads 120 °C or more twice running. After a trip only the always-on sensors are
read (R541, R542). -/
def execSensorRead (t : List (Fin 256)) (aon : List (Fin 256)) (vin iin : Fin 65536) (s : State) :
    Host.Outcome State Fault Refusal :=
  nextCfg s fun g d =>
    if !d.elec.vin then (g, d)
    else
      if d.elec.trip then (g, aonNote aon d)
      else
        let d := sensorsIn g t vin iin (aonNote aon d)
        let hot := hotSensors t
        if hot.any fun i => d.elec.hot.contains i then
          let d := carry (emit (.pin (.thermtrip true)) (pinsDown g d))
          (arrEmpty, { d with elec := { d.elec with trip := true } })
        else (g, { d with elec := { d.elec with hot := hot } })

end Machine
end Sys2Proof
end

