-- ==== Sys2Proof/Machine/Dispatch.lean ====
section
/-! DEFINITION. Which meaning each command has: one arm for each constructor, in the order of spec/opcode_table.json. -/

namespace Sys2Proof
namespace Machine

/-- A command's effect on everything but the queue. -/
def exec (i : Instr) (s : State) : Host.Outcome State Fault Refusal :=
  match i with
  | .registerWrite p addr size v => Sys2Proof.Machine.execRegisterWrite p addr size v s
  | .highWordLatchRead p addr size => Sys2Proof.Machine.execHighWordLatchRead p addr size s
  | .readClear p addr size => Sys2Proof.Machine.execReadClear p addr size s
  | .aliasAccess p off size v => Sys2Proof.Machine.execAliasAccess p off size v s
  | .powerOn env => Sys2Proof.Machine.execPowerOn env s
  | .leadElection => Sys2Proof.Machine.execLeadElection s
  | .imageLoad => Sys2Proof.Machine.execImageLoad s
  | .imageVerify => Sys2Proof.Machine.execImageVerify s
  | .recoveryImageTransfer m => Sys2Proof.Machine.execRecoveryImageTransfer m s
  | .registerRecords => Sys2Proof.Machine.execRegisterRecords s
  | .amendmentReplay => Sys2Proof.Machine.execAmendmentReplay s
  | .firmwareStart => Sys2Proof.Machine.execFirmwareStart s
  | .linkEnable => Sys2Proof.Machine.execLinkEnable s
  | .deviceReady devs => Sys2Proof.Machine.execDeviceReady devs s
  | .pllUnlock r => Sys2Proof.Machine.execPllUnlock r s
  | .relockAttemptEnd r ok => Sys2Proof.Machine.execRelockAttemptEnd r ok s
  | .presenceDetect lp prsnt rx => Sys2Proof.Machine.execPresenceDetect lp prsnt rx s
  | .linkUp lp p => Sys2Proof.Machine.execLinkUp lp p s
  | .l0pWidthChange lp lanes => Sys2Proof.Machine.execL0pWidthChange lp lanes s
  | .fcfBarAccess h bar off v sel => Sys2Proof.Machine.execFcfBarAccess h bar off v sel s
  | .bar2Read h off => Sys2Proof.Machine.execBar2Read h off s
  | .ideFail lp => Sys2Proof.Machine.execIdeFail lp s
  | .vcsReset v => Sys2Proof.Machine.execVcsReset v s
  | .linkLoss lp gone => Sys2Proof.Machine.execLinkLoss lp gone s
  | .swTrig lp => Sys2Proof.Machine.execSwTrig lp s
  | .dpcTrigRelease lp => Sys2Proof.Machine.execDpcTrigRelease lp s
  | .vppbDpcRelease v k => Sys2Proof.Machine.execVppbDpcRelease v k s
  | .linkDown lp => Sys2Proof.Machine.execLinkDown lp s
  | .secondCopyBuild => Sys2Proof.Machine.execSecondCopyBuild s
  | .m2sRequest hits r => Sys2Proof.Machine.execM2sRequest hits r s
  | .placementReadDone die ld page poison rewriteOk => Sys2Proof.Machine.execPlacementReadDone die ld page poison rewriteOk s
  | .ptRewriteRetry ld page ok => Sys2Proof.Machine.execPtRewriteRetry ld page ok s
  | .admitPacket ws => Sys2Proof.Machine.execAdmit ws s
  | .egressTransmit cl egr cr replay parityOk => Sys2Proof.Machine.execEgressTransmit cl egr cr replay parityOk s
  | .writeCountUpdate ix => Sys2Proof.Machine.execWriteCountUpdate ix s
  | .mirrorEnable ix en => Sys2Proof.Machine.execMirrorEnable ix en s
  | .s2mResponse id who k poison dl => Sys2Proof.Machine.execS2mResponse id who k poison dl s
  | .fellingNotice die tag => Sys2Proof.Machine.execFellingNotice die tag s
  | .shootdown die rid => Sys2Proof.Machine.execShootdown die rid s
  | .shootdownAnswer rid who => Sys2Proof.Machine.execShootdownAnswer rid who s
  | .twinRebuildStart ld page => Sys2Proof.Machine.execTwinRebuildStart ld page s
  | .epochEnd => Sys2Proof.Machine.execEpochEnd s
  | .migrationAssign die slot => Sys2Proof.Machine.execMigrationAssign die slot s
  | .watchSet die slot who => Sys2Proof.Machine.execWatchSet die slot who s
  | .chunkDone w poison err => Sys2Proof.Machine.execChunkDone w poison err s
  | .holdAnswer mdie slot who => Sys2Proof.Machine.execHoldAnswer mdie slot who s
  | .holdTimeout die slot => Sys2Proof.Machine.execHoldTimeout die slot s
  | .alloc n idx => Sys2Proof.Machine.execAlloc n idx s
  | .allocAccept => Sys2Proof.Machine.execAllocAccept s
  | .grantPiece k => Sys2Proof.Machine.execGrantPiece k s
  | .addDcResponse h tag accept => Sys2Proof.Machine.execAddDcResponse h tag accept s
  | .ackTimeout h tag => Sys2Proof.Machine.execAckTimeout h tag s
  | .release n idx => Sys2Proof.Machine.execRelease n idx s
  | .releaseDynamicCapacity h ev base pages => Sys2Proof.Machine.execReleaseDynamicCapacity h ev base pages s
  | .zeroingDone dev page n => Sys2Proof.Machine.execZeroingDone dev page n s
  | .poolReady => Sys2Proof.Machine.execPoolReady s
  | .initialGrant ld region => Sys2Proof.Machine.execInitialGrant ld region s
  | .graceExpiry h => Sys2Proof.Machine.execGraceExpiry h s
  | .reclaimExpiry h => Sys2Proof.Machine.execReclaimExpiry h s
  | .quarRestore p h => Sys2Proof.Machine.execQuarRestore p h s
  | .quarReclaim p h => Sys2Proof.Machine.execQuarReclaim p h s
  | .drainComplete dev => Sys2Proof.Machine.execDrainComplete dev s
  | .journalRecord jid at0 => Sys2Proof.Machine.execJournalRecord jid at0 s
  | .journalAck jid src => Sys2Proof.Machine.execJournalAck jid src s
  | .standbyResync => Sys2Proof.Machine.execStandbyResync s
  | .sharedRequest hits sl wbs qs => Sys2Proof.Machine.execSharedRequest hits sl wbs qs s
  | .birsp h key a blk far => Sys2Proof.Machine.execBirsp h key a blk far s
  | .grant sl key far => Sys2Proof.Machine.execGrant sl key far s
  | .done sl key h => Sys2Proof.Machine.execDone sl key h s
  | .snoopWriteback id => Sys2Proof.Machine.execSnoopWriteback id s
  | .ordinaryWriteback w => Sys2Proof.Machine.execOrdinaryWriteback w s
  | .wbGo id far => Sys2Proof.Machine.execWbGo id far s
  | .wbDone sl key h => Sys2Proof.Machine.execWbDone sl key h s
  | .retry sl q => Sys2Proof.Machine.execRetry sl q s
  | .wake sl pkg src => Sys2Proof.Machine.execWake sl pkg src s
  | .biconflict h key => Sys2Proof.Machine.execBiconflict h key s
  | .bisnpTimeout h key => Sys2Proof.Machine.execBisnpTimeout h key s
  | .walkDone => Sys2Proof.Machine.execWalkDone s
  | .genInstalled die => Sys2Proof.Machine.execGenInstalled die s
  | .syncReq => Sys2Proof.Machine.execSyncReq s
  | .syncDone id => Sys2Proof.Machine.execSyncDone id s
  | .syncSlow => Sys2Proof.Machine.execSyncSlow s
  | .vlogAdvance die n => Sys2Proof.Machine.execVlogAdvance die n s
  | .refill => Sys2Proof.Machine.execRefill s
  | .rdb h sl k => Sys2Proof.Machine.execRdb h sl k s
  | .resdb h sl => Sys2Proof.Machine.execResdb h sl s
  | .controlBlockRead sl which x => Sys2Proof.Machine.execControlBlockRead sl which x s
  | .poll n => Sys2Proof.Machine.execPoll n s
  | .entryFetch n idx x => Sys2Proof.Machine.execEntryFetch n idx x s
  | .staleReread n idx x => Sys2Proof.Machine.execStaleReread n idx x s
  | .dispatch die => Sys2Proof.Machine.execDispatch die s
  | .nop n idx => Sys2Proof.Machine.execNop n idx s
  | .copy n idx => Sys2Proof.Machine.execCopy n idx s
  | .fill n idx => Sys2Proof.Machine.execFill n idx s
  | .hint n idx => Sys2Proof.Machine.execHint n idx s
  | .migrate n idx => Sys2Proof.Machine.execMigrate n idx s
  | .fence n idx => Sys2Proof.Machine.execFence n idx s
  | .query n idx => Sys2Proof.Machine.execQuery n idx s
  | .perfRead n idx => Sys2Proof.Machine.execPerfRead n idx s
  | .amend n idx a => Sys2Proof.Machine.execAmend n idx a s
  | .resultRetry sl => Sys2Proof.Machine.execResultRetry sl s
  | .resultHeld n => Sys2Proof.Machine.execResultHeld n s
  | .cbWrite sl which => Sys2Proof.Machine.execCbWrite sl which s
  | .enable h sl which => Sys2Proof.Machine.execEnable h sl which s
  | .disable h sl which => Sys2Proof.Machine.execDisable h sl which s
  | .resumeSkip h sl k => Sys2Proof.Machine.execResumeSkip h sl k s
  | .resumeRetry h sl k => Sys2Proof.Machine.execResumeRetry h sl k s
  | .packetForward nid credit parityOk => Sys2Proof.Machine.execPacketForward nid credit parityOk s
  | .spanCloseRequest e => Sys2Proof.Machine.execSpanCloseRequest e s
  | .fenceMsg ni e => Sys2Proof.Machine.execFenceMsg ni e s
  | .fenceMark ni => Sys2Proof.Machine.execFenceMark ni s
  | .spanClosed => Sys2Proof.Machine.execSpanClosed s
  | .unfence e => Sys2Proof.Machine.execUnfence e s
  | .reconfigGrant => Sys2Proof.Machine.execReconfigGrant s
  | .bankLoadDone order words => Sys2Proof.Machine.execBankLoadDone order words s
  | .switchTime => Sys2Proof.Machine.execSwitchTime s
  | .drained plane => Sys2Proof.Machine.execDrained plane s
  | .linkLost r dir => Sys2Proof.Machine.execLinkLost r dir s
  | .resendTimeout xid => Sys2Proof.Machine.execResendTimeout xid s
  | .phyEnable n => Sys2Proof.Machine.execPhyEnable n s
  | .phyDisable n => Sys2Proof.Machine.execPhyDisable n s
  | .endBlock n => Sys2Proof.Machine.execEndBlock n s
  | .trainTimeout n => Sys2Proof.Machine.execTrainTimeout n s
  | .trainBackoff n => Sys2Proof.Machine.execTrainBackoff n s
  | .lpbkCtlWrite n mode => Sys2Proof.Machine.execLpbkCtlWrite n mode s
  | .lpbkExit n => Sys2Proof.Machine.execLpbkExit n s
  | .exitBurst n => Sys2Proof.Machine.execExitBurst n s
  | .wakePattern n => Sys2Proof.Machine.execWakePattern n s
  | .wakeUnanswered n => Sys2Proof.Machine.execWakeUnanswered n s
  | .swapGo n grp pos => Sys2Proof.Machine.execSwapGo n grp pos s
  | .swapReady n grp pos => Sys2Proof.Machine.execSwapReady n grp pos s
  | .swapCompareDone n same => Sys2Proof.Machine.execSwapCompareDone n same s
  | .swapDone n grp pos => Sys2Proof.Machine.execSwapDone n grp pos s
  | .swapFail n grp pos => Sys2Proof.Machine.execSwapFail n grp pos s
  | .laneFailed n lane => Sys2Proof.Machine.execLaneFailed n lane s
  | .dataFlit n f => Sys2Proof.Machine.execDataFlit n f s
  | .shortFlit n ack words crcOk => Sys2Proof.Machine.execShortFlit n ack words crcOk s
  | .replayTimeout n => Sys2Proof.Machine.execReplayTimeout n s
  | .nak n first count => Sys2Proof.Machine.execNak n first count s
  | .nakRepeat n => Sys2Proof.Machine.execNakRepeat n s
  | .reqSel n => Sys2Proof.Machine.execReqSel n s
  | .ackSel n => Sys2Proof.Machine.execAckSel n s
  | .reqGbn n => Sys2Proof.Machine.execReqGbn n s
  | .ackGbn n => Sys2Proof.Machine.execAckGbn n s
  | .selectiveQuiet n => Sys2Proof.Machine.execSelectiveQuiet n s
  | .modeRepeat n => Sys2Proof.Machine.execModeRepeat n s
  | .credit n tc h dc => Sys2Proof.Machine.execCredit n tc h dc s
  | .creditRefresh n => Sys2Proof.Machine.execCreditRefresh n s
  | .cap n major minor kind pkg => Sys2Proof.Machine.execCap n major minor kind pkg s
  | .initTimeout n => Sys2Proof.Machine.execInitTimeout n s
  | .down n why => Sys2Proof.Machine.execDown n why s
  | .idleTimer n => Sys2Proof.Machine.execIdleTimer n s
  | .idleReq n => Sys2Proof.Machine.execIdleReq n s
  | .idleAck n => Sys2Proof.Machine.execIdleAck n s
  | .idleNak n => Sys2Proof.Machine.execIdleNak n s
  | .hello die pkg sysid digestOk fresh vcs => Sys2Proof.Machine.execHello die pkg sysid digestOk fresh vcs s
  | .beat src => Sys2Proof.Machine.execBeat src s
  | .pkgLost pkg hosts => Sys2Proof.Machine.execPkgLost pkg hosts s
  | .clockGate dom => Sys2Proof.Machine.execClockGate dom s
  | .powerRequest dom clear => Sys2Proof.Machine.execPowerRequest dom clear s
  | .powerAnswer dom blk a => Sys2Proof.Machine.execPowerAnswer dom blk a s
  | .delayRetry dom => Sys2Proof.Machine.execDelayRetry dom s
  | .answerTimeout dom => Sys2Proof.Machine.execAnswerTimeout dom s
  | .entryRefused dom => Sys2Proof.Machine.execEntryRefused dom s
  | .wakeSource dom code => Sys2Proof.Machine.execWakeSource dom code s
  | .returnStepReady dom ue => Sys2Proof.Machine.execReturnStepReady dom ue s
  | .readyLate dom => Sys2Proof.Machine.execReadyLate dom s
  | .present n => Sys2Proof.Machine.execPresent n s
  | .removed n => Sys2Proof.Machine.execRemoved n s
  | .inputWindow n m => Sys2Proof.Machine.execInputWindow n m s
  | .insertionDelay n m => Sys2Proof.Machine.execInsertionDelay n m s
  | .limitEngage n m => Sys2Proof.Machine.execLimitEngage n m s
  | .limitRelease n m => Sys2Proof.Machine.execLimitRelease n m s
  | .fastTrip n m => Sys2Proof.Machine.execFastTrip n m s
  | .faultTimer n m => Sys2Proof.Machine.execFaultTimer n m s
  | .offTime n m => Sys2Proof.Machine.execOffTime n m s
  | .powerGood n m => Sys2Proof.Machine.execPowerGood n m s
  | .pgDrop n m => Sys2Proof.Machine.execPgDrop n m s
  | .sequenceEnd n => Sys2Proof.Machine.execSequenceEnd n s
  | .dischargeArm n => Sys2Proof.Machine.execDischargeArm n s
  | .fetShort n m => Sys2Proof.Machine.execFetShort n m s
  | .cycle n => Sys2Proof.Machine.execCycle n s
  | .clear n m => Sys2Proof.Machine.execClear n m s
  | .perstRelease n => Sys2Proof.Machine.execPerstRelease n s
  | .nvmRecordWrite => Sys2Proof.Machine.execNvmRecordWrite s
  | .amendSubmit p a => Sys2Proof.Machine.execAmendSubmit p a s
  | .amendmentApply => Sys2Proof.Machine.execAmendmentApply s
  | .imgXferStart p => Sys2Proof.Machine.execImgXferStart p s
  | .imgXferData p off len => Sys2Proof.Machine.execImgXferData p off len s
  | .imgXferEnd p m => Sys2Proof.Machine.execImgXferEnd p m s
  | .activate p => Sys2Proof.Machine.execActivate p s
  | .standbyFwStart => Sys2Proof.Machine.execStandbyFwStart s
  | .leadHandover => Sys2Proof.Machine.execLeadHandover s
  | .dieFwReload k => Sys2Proof.Machine.execDieFwReload k s
  | .sagEnter vin railLow => Sys2Proof.Machine.execSagEnter vin railLow s
  | .sagExit vin => Sys2Proof.Machine.execSagExit vin s
  | .spdmRequest h q param sign => Sys2Proof.Machine.execSpdmRequest h q param sign s
  | .getHybridSig h => Sys2Proof.Machine.execGetHybridSig h s
  | .getHybridCert h => Sys2Proof.Machine.execGetHybridCert h s
  | .replan m => Sys2Proof.Machine.execReplan m s
  | .planDone => Sys2Proof.Machine.execPlanDone s
  | .avStep r => Sys2Proof.Machine.execAvStep r s
  | .avStepComplete r slack => Sys2Proof.Machine.execAvStepComplete r slack s
  | .avEmergency r slack => Sys2Proof.Machine.execAvEmergency r slack s
  | .reequalisation lp => Sys2Proof.Machine.execReequalisation lp s
  | .reeqDone lp => Sys2Proof.Machine.execReeqDone lp s
  | .reeqTimeout lp => Sys2Proof.Machine.execReeqTimeout lp s
  | .scrubSweep strukt hits => Sys2Proof.Machine.execScrubSweep strukt hits s
  | .sliceSparing sl set => Sys2Proof.Machine.execSliceSparing sl set s
  | .arbiterRequest qs => Sys2Proof.Machine.execArbiterRequest qs s
  | .arbiterRelease id => Sys2Proof.Machine.execArbiterRelease id s
  | .arbAbandon id => Sys2Proof.Machine.execArbAbandon id s
  | .heartbeat fresh ans => Sys2Proof.Machine.execHeartbeat fresh ans s
  | .leadWithdraw => Sys2Proof.Machine.execLeadWithdraw s
  | .leadFailover agree => Sys2Proof.Machine.execLeadFailover agree s
  | .mgmtReload k => Sys2Proof.Machine.execMgmtReload k s
  | .eventLogWrite => Sys2Proof.Machine.execEventLogWrite s
  | .selWrite die ix w => Sys2Proof.Machine.execSelWrite die ix w s
  | .clr die all ix => Sys2Proof.Machine.execClr die all ix s
  | .slcClr sl => Sys2Proof.Machine.execSlcClr sl s
  | .freeze on => Sys2Proof.Machine.execFreeze on s
  | .counterSample p die ix => Sys2Proof.Machine.execCounterSample p die ix s
  | .tdRead p die u => Sys2Proof.Machine.execTdRead p die u s
  | .getVersion p cmax => Sys2Proof.Machine.execGetVersion p cmax s
  | .identify p => Sys2Proof.Machine.execIdentify p s
  | .csrRead p addr n peek => Sys2Proof.Machine.execCsrRead p addr n peek s
  | .csrWrite p addr vals => Sys2Proof.Machine.execCsrWrite p addr vals s
  | .eventRead p t flash => Sys2Proof.Machine.execEventRead p t flash s
  | .identifySwitchDevice p => Sys2Proof.Machine.execIdentifySwitchDevice p s
  | .getPhysicalPortState p lp => Sys2Proof.Machine.execGetPhysicalPortState p lp s
  | .getVirtualCxlSwitchInfo p v => Sys2Proof.Machine.execGetVirtualCxlSwitchInfo p v s
  | .fmUnsupported p op => Sys2Proof.Machine.execFmUnsupported p op s
  | .help die topic => Sys2Proof.Machine.execHelp die topic s
  | .id die => Sys2Proof.Machine.execId die s
  | .ports die lp => Sys2Proof.Machine.execPorts die lp s
  | .slot die ch => Sys2Proof.Machine.execSlot die ch s
  | .counters die ix n => Sys2Proof.Machine.execCounters die ix n s
  | .log die n => Sys2Proof.Machine.execLog die n s
  | .margin die lp ep => Sys2Proof.Machine.execMargin die lp ep s
  | .rd die addr n => Sys2Proof.Machine.execRd die addr n s
  | .wr die addr vals => Sys2Proof.Machine.execWr die addr vals s
  | .trace die op => Sys2Proof.Machine.execTrace die op s
  | .go die sigs => Sys2Proof.Machine.execGo die sigs s
  | .lock die => Sys2Proof.Machine.execLock die s
  | .unlockExpiry die => Sys2Proof.Machine.execUnlockExpiry die s
  | .lockoutExpiry die => Sys2Proof.Machine.execLockoutExpiry die s
  | .coldRst low => Sys2Proof.Machine.execColdRst low s
  | .coldRstRelease pkg => Sys2Proof.Machine.execColdRstRelease pkg s
  | .powerLoss => Sys2Proof.Machine.execPowerLoss s
  | .sensorRead t aon vin iin => Sys2Proof.Machine.execSensorRead t aon vin iin s
  | .timestampTick cyc => Sys2Proof.Machine.execTimestampTick cyc s
  | .l1Entry lp => Sys2Proof.Machine.execL1Entry lp s
  | .l1Exit lp => Sys2Proof.Machine.execL1Exit lp s
  | .uncorrectableError lp fatal => Sys2Proof.Machine.execUncorrectableError lp fatal s
  | .snoopRecord h key far => Sys2Proof.Machine.execSnoopRecord h key far s
  | .trainingBlock n lane var locked lpbk id chk inv => Sys2Proof.Machine.execTrainingBlock n lane var locked lpbk id chk inv s
  | .receiverLocked n => Sys2Proof.Machine.execReceiverLocked n s
  | .earlyWarning n m => Sys2Proof.Machine.execEarlyWarning n m s
  | .placementWriteDone wid => Sys2Proof.Machine.execPlacementWriteDone wid s
  | .holdRequest die mdie slot => Sys2Proof.Machine.execHoldRequest die mdie slot s
  | .holdRelease die ld page => Sys2Proof.Machine.execHoldRelease die ld page s
  | .controlWordRewrite x => Sys2Proof.Machine.execControlWordRewrite x s
  | .allocatorRebuilt => Sys2Proof.Machine.execAllocatorRebuilt s
  | .clearEventRecords ld n => Sys2Proof.Machine.execClearEventRecords ld n s
  | .i3cDynamicAddress die a => Sys2Proof.Machine.execI3cDynamicAddress die a s

end Machine
end Sys2Proof
end

