-- ==== Sys2Proof/WellFormed.lean ====
section
/-! DEFINITION. Which commands are well formed: operands that the spec gives a range which their type does not already hold. -/

namespace Sys2Proof

/-- A CSR access: an address of 32 bits, of 1, 2, 4 or 8 bytes (R6, R11). -/
def accessWf (addr size : Nat) : Bool := decide (addr < 2 ^ 32) && (size == 1 || size == 2 || size == 4 || size == 8)

/-- A request: a number that no internal write uses, 1 byte to 4 KiB, an address of 64 bits, accesses to the switch's own functions in
configuration requests only (R94, Tables 7.1 and 8.2). -/
def reqWf (r : Req) : Bool :=
  decide (r.id < 2 ^ 79) && decide (1 ≤ r.len) && decide (r.len ≤ 4096) && decide (r.addr < 2 ^ 64) && (r.acc.isNone || r.kind == .ioCfg)

/-- A shared key: 64 regions of 2^34 lines (R229). -/
def keyWf (key : Nat) : Bool := decide (key < 2 ^ 40)

/-- A MemWr header that comes from another package names a line (R240). -/
def wbWf (w : WbHdr) : Bool := w.far.all fun f => keyWf f.key

/-- The scope of a request to the arbiter names units that exist (Table 16.4). -/
def actWf (q : ActReq) : Bool :=
  (q.pus.all fun p => decide (p < 48)) && (q.regions.all fun r => decide (r < 8)) && decide (q.ep < 36)

/-- The readings of a re-planning cycle: 8 oscillator pairs and 4 replicas for each region, lanes that exist (Table 16.1). -/
def monWf (m : Monitors) : Bool :=
  m.roShift.length == 64 && m.slack.length == 32 && (m.cxl.all fun x => decide (x.1 < 768))
    && m.eyes.all fun x => decide (x.1 < 36) && decide (x.2.1 < 180)

/-- What power-on finds: a flash answer for each die, a set point for each region, a baseline for each oscillator pair. -/
def envWf (e : PowerEnv) : Bool := e.flash.length == 4 && e.otp.vset.length == 8 && e.otp.roBase.length == 64

/-- A list without repeats. -/
def distinct (l : List Nat) : Bool := l.dedup.length == l.length

/-- A command is well formed. -/
def Instr.wf : Instr → Bool
  | .registerWrite _ addr size _ => accessWf addr size
  | .highWordLatchRead _ addr size | .readClear _ addr size => accessWf addr size
  | .aliasAccess _ off size _ => decide (off < 2 ^ 28) && accessWf off size
  | .powerOn env => envWf env
  | .deviceReady devs => distinct (devs.map fun x => x.1.val)
  | .m2sRequest _ r => reqWf r
  | .sharedRequest _ _ wbs qs => (wbs.all wbWf) && qs.all fun q => keyWf q.key
  | .ordinaryWriteback w => wbWf w
  | .birsp _ key _ _ _ | .grant _ key _ | .done _ key _ | .wbDone _ key _ | .biconflict _ key | .bisnpTimeout _ key
  | .snoopRecord _ key _ => keyWf key
  | .retry _ q => keyWf q.key
  | .placementReadDone _ _ page _ _ | .ptRewriteRetry _ page _ | .twinRebuildStart _ page | .holdRelease _ _ page =>
    decide (page < 2 ^ 27)
  | .zeroingDone _ _ n => decide (1 ≤ n)
  | .csrRead _ addr n _ => accessWf addr 4 && decide (1 ≤ n) && decide (n ≤ 256)
  | .csrWrite _ addr vals => accessWf addr 4 && decide (1 ≤ vals.length) && decide (vals.length ≤ 256)
  | .imgXferData _ _ len => decide (len ≤ 4064)
  | .rd _ addr _ => accessWf addr 4
  | .wr _ addr vals => accessWf addr 4 && decide (1 ≤ vals.length) && decide (vals.length ≤ 64)
  | .replan m => monWf m
  | .arbiterRequest qs => qs.all actWf
  | .heartbeat _ ans => distinct (ans.map fun k => k.val)
  | .sensorRead t aon _ _ => t.length == 32 && aon.length == 4
  | .timestampTick cyc => cyc.length == 4
  | _ => true

end Sys2Proof
end

