-- ==== Sys2Proof/Safety.lean ====
section
/-! DEFINITION. What counts as a safe state and a safe step, in the terms that the statements use. -/

namespace Sys2Proof
namespace Machine

/-- The start sequence has ended with device ready: RWL fields are locked (R4, R441). -/
def ready (s : State) : Bool := rd s.dyn .secBootStsStage 0 == 8

/-- The state with another changing part: configuration registers and the queue as before. -/
def State.setDyn (s : State) (d : Dyn) : State := { s with dyn := d }

/-- A path may send a command, and the command need not wait: the path is open and carries it, and the session's version has it (R510 to
R517). -/
def served (s : State) (p : Path) (c : MCmd) : Bool :=
  !mctpStray s.cfg p && pathOpen s.cfg s.dyn p && !cmdWaits s.cfg (mgmtOn s.dyn) c && decide (since c ≤ sessOf s.dyn p) && !(isFcf p && notOnFcf c)

/-- The configuration registers in their one form: keys strictly rising, and every listed value within its field's width and not the
field's reset value, which is what an unlisted field reads as (R3, R5). -/
def cfgForm (g : Cfg) : Prop :=
  cellsSorted 0 g.cells = true ∧
    ∀ f i v, cellsFind (cKey f i) g.cells = some v → v ≠ cfgReset f i ∧ v < 2 ^ cfgWidth f

/-- Commands that may change configuration registers: the start and restart of the package, and the two ends of a verified
change (R4, R457, R463, R533, R542). -/
def writesCfg : Instr → Bool
  | .powerOn _ | .recoveryImageTransfer _ | .registerRecords | .amendmentReplay | .amendmentApply | .dieFwReload _ | .coldRst _
  | .coldRstRelease _ | .powerLoss | .sensorRead _ _ _ _ => true
  | _ => false

/-- A pulse on COLD_RST# whose outcome the spec does not define (R533). -/
def pulseUndefined : Instr → Bool
  | .coldRst low => decide (100000 ≤ low) && decide (low < 1000000)
  | _ => false

/-- Activities that the arbiter lets run together: none excludes another, but for a lost link's reconfiguration, for which a running
firmware handover pauses (R483, R486). -/
def actsOk (l : List Act) : Prop :=
  l.Pairwise fun a b => (!excl a.q b.q || (b.q.lostLink && a.q.code == 6) || (a.q.lostLink && b.q.code == 6)) = true

end Machine
end Sys2Proof
end

