-- ==== Sys2Proof/Certificates/Slice0/Obligations.lean ====
section
/-! DEFINITION. The statements for the provers. Each one names the rules of the spec that it states; every command completes in
one of them, and the equations give the whole next state: what is not written there is as before. -/

open Sys2Proof Sys2Proof.Machine Host

/-- GEN_INSTALLED, SYNC_REQ, SYNC_DONE, SYNC_SLOW and VLOG_ADVANCE complete and change what they say (R273, R274, R275, R276, R278, R281). -/
def Obligations.GateCommandsComplete : Prop :=
  (∀ (s : State) (die : Die), s.dyn.gate.inForce.length = 4 → genOf s.dyn die + 1 ≤ s.dyn.gate.newest →
    ∃ d, exec (.genInstalled die) s = .next (s.setDyn d) ∧ genOf d die = genOf s.dyn die + 1 ∧
      (∀ k, k ≠ die.val → genOf d k = genOf s.dyn k) ∧ d.flights = s.dyn.flights ∧ d.gate.newest = s.dyn.gate.newest) ∧
  (∀ s : State, ∃ d, exec .syncReq s = .next (s.setDyn d) ∧ d.gate.target = s.dyn.gate.newest ∧
      rd d .gateSyncTargetGen 0 = s.dyn.gate.newest % 65536 ∧
      rd d .gateSyncDoneDone 0 = b2n (s.dyn.gate.inForce.all (fun x => decide (s.dyn.gate.newest ≤ x)) &&
        s.dyn.flights.all (fun f => decide (s.dyn.gate.newest ≤ f.gen))) ∧
      d.flights = s.dyn.flights ∧ d.ev = s.dyn.ev ∧ d.out = s.dyn.out) ∧
  (∀ (s : State) (id : Nat), inSwitch s.dyn id = false → rd s.dyn .gateSyncDoneDone 0 = 0 →
    ∃ d, exec (.syncDone id) s = .next (s.setDyn d) ∧ d.flights = s.dyn.flights.filter (fun f => f.req.id != id) ∧
      rd d .gateSyncDoneDone 0 = b2n (s.dyn.gate.inForce.all (fun x => decide (s.dyn.gate.target ≤ x)) &&
        d.flights.all (fun f => decide (s.dyn.gate.target ≤ f.gen))) ∧
      d.gate = s.dyn.gate ∧ d.ev = s.dyn.ev ∧ d.out = s.dyn.out) ∧
  (∀ s : State, rd s.dyn .gateSyncDoneDone 0 = 0 → s.dyn.gate.warned = false →
    s.dyn.gate.syncAt + max 1 (cg s.cfg .gateCtlSyncWarnMs 0) * 1000000 ≤ s.dyn.now →
    exec .syncSlow s = .next (s.setDyn (raise 0x0504 (leadOr0 s.dyn) [s.dyn.gate.target]
      { s.dyn with gate := { s.dyn.gate with warned := true } }))) ∧
  (∀ (s : State) (die : Die) (n : Nat), exec (.vlogAdvance die n) s = .next (s.setDyn
    (put .gateVlogStsRd die ((rd s.dyn .gateVlogStsRd die + min n (rd s.dyn .gateVlogStsCountAdv die)) % 64)
      (put .gateVlogStsCountAdv die (rd s.dyn .gateVlogStsCountAdv die - min n (rd s.dyn .gateVlogStsCountAdv die)) s.dyn))))

/-- Refill, counter selection, clearing and freezing complete with the effects of R307, R496, R497, R499, R500 and R505 (R307, R308, R496, R497, R499, R500, R505). -/
def Obligations.CounterCommandsComplete : Prop :=
  (∀ s : State, refillDue s.dyn = true →
    exec .refill s = .next (s.setDyn (forAll (goneSlices (qCfg s.cfg s.dyn) s.cfg) (ringsSlice s.cfg)
      (forAll (newSlices (qCfg s.cfg s.dyn) s.cfg ++ movedSlices (qCfg s.cfg s.dyn) s.cfg) slcClear
        (refillAll s.cfg s.dyn))))) ∧
  (∀ (s : State) (die : Die) (i : Fin 1024) (w : Word), ctrFixed i = true →
    exec (.selWrite die i w) s = .next (s.setDyn (put .pmcSelEn (die * 1024 + i) (bits w.toNat 31 1)
      (put .pmcSelQual (die * 1024 + i) (bits w.toNat 27 4) s.dyn)))) ∧
  (∀ (s : State) (die : Die) (i : Fin 1024) (w : Word), ctrFixed i = false → evListed i (bits w.toNat 16 8) = true →
    exec (.selWrite die i w) s = .next (s.setDyn (put .pmcSelBad (die * 1024 + i) 0
      (put .pmcSelEvent (die * 1024 + i) (bits w.toNat 16 8) (put .pmcSelThr (die * 1024 + i) (bits w.toNat 0 16)
        (put .pmcSelEn (die * 1024 + i) (bits w.toNat 31 1) (put .pmcSelQual (die * 1024 + i) (bits w.toNat 27 4) s.dyn))))))) ∧
  (∀ (s : State) (die : Die) (i : Fin 1024) (w : Word), ctrFixed i = false → evListed i (bits w.toNat 16 8) = false →
    exec (.selWrite die i w) s = .next (s.setDyn (raise 0x0D03 die [i.val] (put .pmcSelBad (die * 1024 + i) 1
      (put .pmcSelEvent (die * 1024 + i) (bits w.toNat 16 8) (put .pmcSelThr (die * 1024 + i) (bits w.toNat 0 16)
        (put .pmcSelEn (die * 1024 + i) (bits w.toNat 31 1)
          (put .pmcSelQual (die * 1024 + i) (bits w.toNat 27 4) s.dyn)))))))) ∧
  (∀ (s : State) (die : Die) (i : Fin 1024), exec (.clr die false i) s = .next (s.setDyn
    (put .pmcValCount (die * 1024 + i) 0 (put .pmcValOvf (die * 1024 + i) 0 s.dyn)))) ∧
  (∀ (s : State) (sl : Slc), ∃ d, exec (.slcClr sl) s = .next (s.setDyn d) ∧
    (∀ k : Fin 8, aget 0 d.cnt.slc (sl.val * 8 + k) = 0 ∧ aget 0 d.cnt.slcO (sl.val * 8 + k) = 0) ∧
    (∀ j, j / 8 ≠ sl.val → aget 0 d.cnt.slc j = aget 0 s.dyn.cnt.slc j ∧ aget 0 d.cnt.slcO j = aget 0 s.dyn.cnt.slcO j) ∧
    d = { s.dyn with cnt := d.cnt }) ∧
  (∀ (s : State) (on : Bool), exec (.freeze on) s = .next (s.setDyn (put .pmcCtlFreeze 0 (b2n on) s.dyn)))

/-- CLR with ALL zeroes every counter of the die with its OVF and leaves every other die's counters (R499). -/
def Obligations.ClearAllZeroesEveryCounter : Prop :=
  (∀ (s : State) (die : Die) (i : Fin 1024), ∃ d, exec (.clr die true i) s = .next (s.setDyn d) ∧
    (∀ j, j / 1024 = die.val → rd d .pmcValCount j = 0 ∧ rd d .pmcValOvf j = 0) ∧
    (∀ j, j / 1024 ≠ die.val → rd d .pmcValCount j = rd s.dyn .pmcValCount j ∧ rd d .pmcValOvf j = rd s.dyn .pmcValOvf j) ∧
    (∀ f j, f ≠ .pmcValCount → f ≠ .pmcValOvf → rd d f j = rd s.dyn f j) ∧ d = { s.dyn with sts := d.sts }) ∧
  (∀ (s : State) (die : Die) (i : Fin 1024), ∃ d, exec (.clr die false i) s = .next (s.setDyn d) ∧
    rd d .pmcValCount (die * 1024 + i) = 0 ∧ rd d .pmcValOvf (die * 1024 + i) = 0 ∧
    (∀ j, j ≠ die.val * 1024 + i.val → rd d .pmcValCount j = rd s.dyn .pmcValCount j ∧ rd d .pmcValOvf j = rd s.dyn .pmcValOvf j) ∧
    (∀ f j, f ≠ .pmcValCount → f ≠ .pmcValOvf → rd d f j = rd s.dyn f j) ∧ d = { s.dyn with sts := d.sts })

/-- Single CSR accesses complete: reads send the word read, writes apply it, and held accesses wait (R3, R6, R7, R8, R10, R11, R501, R504, R545). -/
def Obligations.CsrAccessCommandsComplete : Prop :=
  (∀ (s : State) (p : Sys2Proof.Path) (a n : Nat) (v : Word), accessWaits s.cfg s.dyn a = false → mayWrite s.cfg s.dyn p a = true →
    exec (.registerWrite p a n v) s = .next (s.setDyn (csrWrite s.cfg p a n v.toNat s.dyn))) ∧
  (∀ (s : State) (p : Sys2Proof.Path) (a n : Nat) (v : Word), accessWaits s.cfg s.dyn a = true → a ≤ 0x4FFFFFFF →
    exec (.registerWrite p a n v) s = .next (s.setDyn
      (holdCmd s.cfg p (.word a n (some v.toNat)) s.dyn))) ∧
  (∀ (s : State) (p : Sys2Proof.Path) (a n : Nat), accessWaits s.cfg s.dyn a = false → mayRead s.cfg s.dyn p = true →
    exec (.highWordLatchRead p a n) s = .next (s.setDyn
      (emit (.csrData p [(csrRead s.cfg p false a n s.dyn).1]) (csrRead s.cfg p false a n s.dyn).2)) ∧
    exec (.readClear p a n) s = .next (s.setDyn
      (emit (.csrData p [(csrRead s.cfg p false a n s.dyn).1]) (csrRead s.cfg p false a n s.dyn).2))) ∧
  (∀ (s : State) (p : Sys2Proof.Path) (off n : Nat), s.dyn.mgmt.moving = false → mayRead s.cfg s.dyn p = true →
    exec (.aliasAccess p off n none) s = .next (s.setDyn
      (emit (.csrData p [(csrRead s.cfg p false (0x40000000 + off % 2 ^ 28) n s.dyn).1])
        (csrRead s.cfg p false (0x40000000 + off % 2 ^ 28) n s.dyn).2))) ∧
  (∀ (s : State) (p : Sys2Proof.Path) (off n : Nat) (v : Word), s.dyn.mgmt.moving = false →
    mayWrite s.cfg s.dyn p (0x40000000 + off % 2 ^ 28) = true →
    exec (.aliasAccess p off n (some v)) s = .next (s.setDyn
      (csrWrite s.cfg p (0x40000000 + off % 2 ^ 28) n v.toNat s.dyn))) ∧
  (∀ (s : State) (p : Sys2Proof.Path) (die : Die) (i : Fin 1024), accessWaits s.cfg s.dyn (die * 2 ^ 28 + 0x2104000 + 8 * i) = false → mayRead s.cfg s.dyn p = true →
    exec (.counterSample p die i) s = .next (s.setDyn
      (emit (.csrData p [(csrRead s.cfg p false (die * 2 ^ 28 + 0x2104000 + 8 * i) 4 s.dyn).1])
        (csrRead s.cfg p false (die * 2 ^ 28 + 0x2104000 + 8 * i) 4 s.dyn).2))) ∧
  (∀ (s : State) (p : Sys2Proof.Path) (die : Die) (u : Fin 12), accessWaits s.cfg s.dyn (die * 2 ^ 28 + 0x2100100 + 4 * u) = false → mayRead s.cfg s.dyn p = true →
    exec (.tdRead p die u) s = .next (s.setDyn
      (emit (.csrData p [(csrRead s.cfg p false (die * 2 ^ 28 + 0x2100100 + 4 * u) 4 s.dyn).1])
        (csrRead s.cfg p false (die * 2 ^ 28 + 0x2100100 + 4 * u) 4 s.dyn).2)))

/-- POWER_ON, IMAGE_LOAD, IMAGE_VERIFY and RECOVERY_IMAGE_TRANSFER complete in the order of Table 15.1 (R441, R443, R444, R445, R446, R449, R451, R534). -/
def Obligations.BootCommandsComplete : Prop :=
  (∀ (s : State) (env : PowerEnv), s.dyn.elec.vin = false → exec (.powerOn env) s = .next ⟨arrEmpty, romStart env.pkgId
    { carry s.dyn with now := 0, slot := arrEmpty, boot := { (carry s.dyn).boot with otp := env.otp, flash := env.flash },
                       elec := { (carry s.dyn).elec with vin := true, trip := false } }, s.pending⟩) ∧
  (∀ (s : State) (k : Nat) (f : FlashIn) (b : Bool), rd s.dyn .secBootStsStage 0 = 2 → flashSource s.dyn = some k →
    s.dyn.boot.flash[k]? = some f → s.dyn.boot.tried = false → firstSlot s.dyn f = some b →
    ∃ d, d = forAll (List.range (f.log.filter fun r => r.torn).length) (fun _ d => raise 0x0B0D k [k] d)
          (bump .nvmFlashStsTorn k (f.log.filter fun r => r.torn).length s.dyn) ∧
      exec .imageLoad s = .next (s.setDyn (put .secBootStsStage 0 3
        { d with boot := { d.boot with tryB := b, cand := some (slotImage f b) } }))) ∧
  (∀ (s : State) (k : Nat) (f : FlashIn), rd s.dyn .secBootStsStage 0 = 2 → flashSource s.dyn = some k →
    s.dyn.boot.flash[k]? = some f → s.dyn.boot.tried = true → exec .imageLoad s = .next (s.setDyn
      (put .secBootStsStage 0 3 { s.dyn with boot := { s.dyn.boot with cand := some (slotImage f s.dyn.boot.tryB) } }))) ∧
  (∀ (s : State) (m : Image), rd s.dyn .secBootStsStage 0 = 3 → s.dyn.boot.cand = some m → imgGood s.dyn m = true →
    ∃ d, d = put .secImgVerSvn 0 m.svn (put .secBootStsSlot 0 (b2n s.dyn.boot.tryB) (put .secBootStsStage 0 4
          (put .secImgSeqSeq 0 m.seq (put .secImgVerMajor 0 m.verMajor (put .secImgVerMinor 0 m.verMinor
            { s.dyn with boot := { s.dyn.boot with image := some m, cand := none, chain := [] } }))))) ∧
      exec .imageVerify s = .next (s.setDyn
        (if s.dyn.boot.tried then logAppend (.base s.dyn.boot.tryB m.digest) d else d))) ∧
  (∀ (s : State) (m : Image), rd s.dyn .secBootStsStage 0 = 3 → s.dyn.boot.cand = some m → imgGood s.dyn m = false →
    s.dyn.boot.tried = false → ∃ d, d = (if imgLayout m then sigTell m.sig m.seq s.dyn else s.dyn) ∧
      exec .imageVerify s = .next (s.setDyn (raise 0x0B03 (leadOr0 d) [m.seq] (put .secBootStsFallback 0 1 (put .secBootStsStage 0 2
        { d with boot := { d.boot with tried := true, tryB := !d.boot.tryB, cand := none } }))))) ∧
  (∀ (s : State) (m : Image), rd s.dyn .secBootStsStage 0 = 3 → s.dyn.boot.cand = some m → imgGood s.dyn m = false →
    s.dyn.boot.tried = true → ∃ d, d = (if imgLayout m then sigTell m.sig m.seq s.dyn else s.dyn) ∧
      exec .imageVerify s = .next (s.setDyn (recovery { d with boot := { d.boot with cand := none } }))) ∧
  (∀ (s : State) (m : Image) (k : Nat) (f : FlashIn), rd s.dyn .secBootStsStage 0 = 15 → flashSource s.dyn = some k →
    s.dyn.boot.flash[k]? = some f → ∃ d, d = slotWrite (!(logBase f.log).getD true) m s.dyn ∧
      (imgGood d m = true → exec (.recoveryImageTransfer m) s = .next ⟨arrEmpty, romStart (ownPkg s.dyn) (carry d), s.pending⟩) ∧
      (imgGood d m = false → exec (.recoveryImageTransfer m) s = .next
        (s.setDyn (if imgLayout m then sigTell m.sig m.seq d else d))))

/-- REGISTER_RECORDS, AMENDMENT_REPLAY, FIRMWARE_START, LINK_ENABLE and DEVICE_READY complete in the order of Table 15.1 (R221, R345, R441, R453, R461). -/
def Obligations.LateStartCommandsComplete : Prop :=
  (∀ (s : State) (m : Image), rd s.dyn .secBootStsStage 0 = 4 → s.dyn.boot.image = some m →
    ∃ r, r = recsStart m.regs (s.cfg, put .secBootStsStage 0 5 { s.dyn with
        boot := { s.dyn.boot with pol := if hasSect m.sects 2 then m.policy else ⟨[], []⟩ } }) ∧
      exec .registerRecords s = .next ⟨r.1, r.2, s.pending⟩) ∧
  (∀ s : State, rd s.dyn .secBootStsStage 0 = 5 → ∃ r, r = replayLog (logTail (logOf s.dyn)) (s.cfg, s.dyn) ∧
    exec .amendmentReplay s = .next ⟨r.1, put .secAmdStsLogUse 0 (min 100 (logUsed r.2 * 100 / 8388608))
      (put .secBootStsStage 0 6 r.2), s.pending⟩) ∧
  (∀ s : State, rd s.dyn .secBootStsStage 0 = 6 → exec .firmwareStart s = .next (s.setDyn
    (if rd s.dyn .allocMirStsSyncing 0 = 1 then
      put .allocMirStsSyncing 0 0 (put .allocMirStsMirrored 0 1 (put .secBootStsStage 0 7 s.dyn))
     else put .secBootStsStage 0 7 s.dyn))) ∧
  (∀ s : State, rd s.dyn .secBootStsStage 0 = 7 → s.dyn.noc.bank0.used = false →
    exec .linkEnable s = .next (s.setDyn (forAll (List.range 36) (fun n d =>
      if !gklIsP n || rd d .gklPhyCtlEn n == 1 || cg s.cfg .gklSysLinkV (n / 9) == 1 then phyEnable n (put .gklPhyCtlEn n 0 d) else d)
      { s.dyn with noc := { s.dyn.noc with bank0 := ⟨true, cg s.cfg .nocCtlOrder 0, arrEmpty⟩ } }))) ∧
  (∀ (s : State) (devs : List (Lport × Partner)), rd s.dyn .secBootStsStage 0 = 7 → s.dyn.noc.bank0.used = true →
    ∃ d e, d = slotsStart s.cfg (put .secBootStsStage 0 8 s.dyn) ∧ e = put .secReadyNsNs 0 (dieTs d (leadOr0 d)) d ∧
      exec (.deviceReady devs) s = .next (s.setDyn (choosePt s.cfg
        (devicesStart s.cfg devs (raise 0x0B01 (leadOr0 e) [rd e .secReadyNsNs 0] e)))))

/-- PRESENCE_DETECT, LINK_UP, L0P_WIDTH_CHANGE, L1_ENTRY, L1_EXIT, LINK_LOSS and LINK_DOWN complete (R52, R68, R71, R81, R82, R89, R114). -/
def Obligations.PortLinkCommandsComplete : Prop :=
  (∀ (s : State) (lp : Lport) (prsnt rx : Bool), lpExists s.cfg lp = true →
    (if cg s.cfg .portPcfgBif (lpPu lp) = 0 then prsnt || rx else rx) = true →
    exec (.presenceDetect lp prsnt rx) s = .next (s.setDyn (put .portLstsPrsnt lp 1 s.dyn))) ∧
  (∀ (s : State) (lp : Lport) (prsnt rx : Bool), lpExists s.cfg lp = true →
    (if cg s.cfg .portPcfgBif (lpPu lp) = 0 then prsnt || rx else rx) = false → rd s.dyn .portLstsPrsnt lp = 1 →
    lpLinkUp s.dyn lp = false → exec (.presenceDetect lp prsnt rx) s = .next (s.setDyn (presenceLost s.cfg lp s.dyn))) ∧
  (∀ (s : State) (lp : Lport) (p : Partner), rd s.dyn .secBootStsStage 0 = 8 →
    exec (.linkUp lp p) s = .next (s.setDyn (linkUpAt s.cfg lp p false s.dyn))) ∧
  (∀ (s : State) (lp : Lport) (n : Fin 17), cg s.cfg .portLpmCtlL0pEn 0 = 1 → portOpen s.cfg s.dyn lp = true →
    n = 1 ∨ n = 2 ∨ n = 4 ∨ n = 8 ∨ n = 16 → n.val ≤ widthLanes (rd s.dyn .portLstsWidth lp) →
    exec (.l0pWidthChange lp n) s = .next (s.setDyn (if cutNow s.dyn lp ∧ n.val < lpLanes s.dyn lp then
      { s.dyn with port := { s.dyn.port with l0pWish := aset 0 s.dyn.port.l0pWish lp n.val } } else l0pSet lp n s.dyn))) ∧
  (∀ (s : State) (lp : Lport), isDown s.cfg s.dyn lp = true → portOpen s.cfg s.dyn lp = true → cg s.cfg .portLpmCtlL1En 0 = 1 →
    exec (.l1Entry lp) s = .next (s.setDyn { s.dyn with port := { s.dyn.port with
      l1 := s.dyn.port.l1 ++ [lp.val], l0p := aset 0 s.dyn.port.l0p lp 0 } })) ∧
  (∀ (s : State) (lp : Lport), domPwr s.dyn (domPu (lpPu lp)) < 2 →
    exec (.l1Exit lp) s = .next (s.setDyn { s.dyn with port := { s.dyn.port with
      l1 := s.dyn.port.l1.filter fun x => x != lp.val } })) ∧
  (∀ (s : State) (lp : Lport), 2 ≤ domPwr s.dyn (domPu (lpPu lp)) →
    exec (.l1Exit lp) s = .next (s.setDyn (emit (.wake (3000 + lpPu lp)) s.dyn))) ∧
  (∀ (s : State) (lp : Lport) (gone : Bool), lpLinkUp s.dyn lp = true → isUp s.cfg s.dyn lp = false →
    exec (.linkLoss lp gone) s = .next (s.setDyn (dpc s.cfg lp 1 gone s.dyn))) ∧
  (∀ (s : State) (lp : Lport) (gone : Bool), lpLinkUp s.dyn lp = true → isUp s.cfg s.dyn lp = true →
    exec (.linkLoss lp gone) s = exec (.linkDown lp) s) ∧
  (∀ (s : State) (lp : Lport) (h : Nat) (d : Dyn), lpLinkUp s.dyn lp = true → isUp s.cfg s.dyn lp = true →
    h = cg s.cfg .portLpcfgVcs lp → d = upDown s.cfg lp h s.dyn →
    exec (.linkDown lp) s = .next (s.setDyn (if isMember s.cfg d h then hostFail s.cfg h d else enterGrace s.cfg h d)))

/-- SW_TRIG, DPC_TRIG_RELEASE, VPPB_DPC_RELEASE, IDE_FAIL, UNCORRECTABLE_ERROR and VCS_RESET complete (R80, R84, R87, R92, R93, R516). -/
def Obligations.PortContainmentCommandsComplete : Prop :=
  (∀ (s : State) (lp : Lport), exec (.swTrig lp) s = .next (s.setDyn (dpc s.cfg lp 6 false s.dyn))) ∧
  (∀ (s : State) (lp : Lport), lpContained s.dyn lp = true → hostHolds s.dyn lp = false →
    ∃ d, exec (.dpcTrigRelease lp) s = .next (s.setDyn d) ∧ rd d .portLstsContained lp = 0 ∧ rd d .portContDpcTrig lp = 0 ∧
      rd d .portContReason lp = 0 ∧ d.ev = s.dyn.ev ∧ d.out = s.dyn.out ∧ d.alloc = s.dyn.alloc) ∧
  (∀ (s : State) (lp : Lport), hostHolds s.dyn lp = true → exec (.dpcTrigRelease lp) s = .next s) ∧
  (∀ (s : State) (v : Host) (k : Fin 32) (b : Bnd), s.dyn.alloc.bnds.find? (fun b => b.vcs == v.val && b.vppb == k.val) = some b →
    lpContained s.dyn b.lport = true →
    ∃ d, exec (.vppbDpcRelease v k) s = .next (s.setDyn d) ∧ rd d .portLstsContained b.lport = 0 ∧ rd d .portContDpcTrig b.lport = 0 ∧
      rd d .portContReason b.lport = 0 ∧ d.ev = s.dyn.ev ∧ d.out = s.dyn.out ∧ d.alloc = s.dyn.alloc) ∧
  (∀ (s : State) (lp : Lport) (d : Dyn), lpLinkUp s.dyn lp = true → rd s.dyn .portLstsIdeOn lp = 1 → isUp s.cfg s.dyn lp = false →
    d = raise 0x0108 (lpDie lp) [lp.val] (put .portLstsIdeOn lp 0 s.dyn) →
    exec (.ideFail lp) s = .next (s.setDyn (dpc s.cfg lp 5 false { d with port := { d.port with
      insecure := d.port.insecure.filter (fun x => x != lp.val) ++ [lp.val], ide := adel d.port.ide lp } }))) ∧
  (∀ (s : State) (lp : Lport), lpRole s.cfg s.dyn lp = 2 → rd s.dyn .portContNfTrig lp = 0 → aerFns s.cfg s.dyn lp ≠ [] →
    exec (.uncorrectableError lp false) s = .next (s.setDyn
      (forAll (aerFns s.cfg s.dyn lp) (fun x => aerTell x.1 x.2 0) s.dyn))) ∧
  (∀ (s : State) (lp : Lport), lpRole s.cfg s.dyn lp = 2 → rd s.dyn .portContNfTrig lp = 0 → aerFns s.cfg s.dyn lp = [] →
    exec (.uncorrectableError lp false) s = .next (s.setDyn (errAlone (lpDie lp) [lp.val, 0] s.dyn))) ∧
  (∀ (s : State) (lp : Lport) (d : Dyn), lpRole s.cfg s.dyn lp = 2 →
    d = forAll (aerFns s.cfg s.dyn lp) (fun x d => raiseViral x.1 (aerTell x.1 x.2 1 d)) s.dyn →
    exec (.uncorrectableError lp true) s = .next (s.setDyn (dpc s.cfg lp 4 false
      (if (aerFns s.cfg s.dyn lp).isEmpty && lpContained d lp then errAlone (lpDie lp) [lp.val, 1] d else d)))) ∧
  (∀ (s : State) (v : Host), exec (.vcsReset v) s = .next (s.setDyn { s.dyn with
    port := { s.dyn.port with viral := s.dyn.port.viral.filter fun x => x != v.val },
    mgmt := { s.dyn.mgmt with sess := s.dyn.mgmt.sess.filter fun x => x.1 != .fcf v } }))

/-- ALLOC, ALLOC_ACCEPT, GRANT_PIECE, responses, releases and ZEROING_DONE complete (R199, R202, R203, R205, R320). -/
def Obligations.GrantCommandsComplete : Prop :=
  (∀ (s : State) (n : RingId) (idx : Nat) (e : RingEnt) (d : Dyn), entReady s.dyn n idx 1 = some e →
    (s.dyn.alloc.queue.any fun q => q.slice == n.val / 4) = false → ((allCtxs s.dyn).any fun c => c.slice == n.val / 4) = false →
    d = setEnt n idx (fun e => { e with started := true }) s.dyn →
    exec (.alloc n idx) s = .next (s.setDyn { d with alloc := { d.alloc with
      queue := d.alloc.queue ++ [⟨n / 4, n, idx, bits (argAt e.w 0) 0 3, argAt e.w 1⟩] } })) ∧
  (∀ (s : State) (sl k : Nat) (c : Ctx) (d : Dyn), rd s.dyn .xltPtLocReady 0 = 1 → s.dyn.alloc.rebuild = false → quorumLost s.dyn = false → leadsSystem s.dyn = true →
    nextSlice s.dyn = some sl → freeCtx s.dyn = some k → s.dyn.alloc.paused.find? (fun c => c.slice == sl) = some c →
    d = ungate (176 + leadOr0 s.dyn) s.dyn → exec .allocAccept s = .next (s.setDyn (ctxWrite k (ctxSet k c { d with
      alloc := { d.alloc with lastSlc := sl, paused := dropOne c d.alloc.paused } })))) ∧
  (∀ (s : State) (sl k : Nat) (q : AllocReq) (d : Dyn), rd s.dyn .xltPtLocReady 0 = 1 → s.dyn.alloc.rebuild = false → quorumLost s.dyn = false → leadsSystem s.dyn = true →
    nextSlice s.dyn = some sl → freeCtx s.dyn = some k → s.dyn.alloc.paused.find? (fun c => c.slice == sl) = none →
    s.dyn.alloc.queue.find? (fun q => q.slice == sl) = some q →
    d = ungate (176 + leadOr0 s.dyn) s.dyn → exec .allocAccept s = .next (s.setDyn (ctxStart s.cfg k q { d with
      alloc := { d.alloc with lastSlc := sl, queue := dropOne q d.alloc.queue } }))) ∧
  (∀ (s : State) (k : Fin 9) (c : Ctx) (d e : Dyn), c = ctxGet s.dyn k → c.busy = true → c.step = 7 →
    d = forAll (newExts s.dyn c) (fun x d => offerExt s.cfg x.eid d) s.dyn →
    e = (if k.val < 8 then peak .allocGntStsPeakUs 0 ((d.now - c.at0) / 8000) d else d) →
    (c.done < c.pages → exec (.grantPiece k) s = .next (s.setDyn { ctxEnd k e with
      alloc := { (ctxEnd k e).alloc with paused := e.alloc.paused ++ [c] } })) ∧
    (c.pages ≤ c.done → k.val = 8 → exec (.grantPiece k) s = .next (s.setDyn (ctxEnd k e))) ∧
    (c.pages ≤ c.done → k.val < 8 → exec (.grantPiece k) s = .next (s.setDyn (entDone s.cfg c.ring c.idx 0 0
      [c.base * 2097152, c.pages * 2097152, c.tag] (ctxEnd k e))))) ∧
  (∀ (s : State) (h : Host) (tag : Nat) (e : Ext),
    s.dyn.alloc.exts.find? (fun e => e.ld == h.val && e.tag == tag && !e.took && e.byAt != 0 && !e.going && !e.quar) = some e →
    exec (.addDcResponse h tag true) s = .next (s.setDyn { s.dyn with alloc := { s.dyn.alloc with
      exts := mapIf (fun x => x.eid == e.eid) (fun x => { x with took := true }) s.dyn.alloc.exts } }) ∧
    exec (.addDcResponse h tag false) s = .next (s.setDyn
      (releaseExt s.cfg e e.base e.pages (raise 0x0403 (leadOr0 s.dyn) [h, tag, 1] s.dyn))) ∧
    (e.byAt ≤ s.dyn.now → exec (.ackTimeout h tag) s = .next (s.setDyn
      (releaseExt s.cfg e e.base e.pages (raise 0x0403 (leadOr0 s.dyn) [h, tag, 2] s.dyn))))) ∧
  (∀ (s : State) (n : RingId) (idx : Nat) (e : RingEnt), entReady s.dyn n idx 2 = some e →
    argAt e.w 0 % 268435456 = 0 → argAt e.w 1 % 268435456 = 0 →
    rangeIn s.dyn (sliceHost s.cfg s.dyn (n / 4)) (argAt e.w 0 / 2097152) (argAt e.w 1 / 2097152)
      (fun x => x.slice == some (n.val / 4) && !x.going && !x.quar) = true →
    exec (.release n idx) s = .next (s.setDyn (entDone s.cfg n idx 0 0 [argAt e.w 0, argAt e.w 1]
      (emit (.dcEvent (sliceHost s.cfg s.dyn (n / 4)) 1 (argAt e.w 0 / 2097152) (argAt e.w 1 / 2097152) 0)
        { s.dyn with alloc := { s.dyn.alloc with relEvs := s.dyn.alloc.relEvs ++
          [⟨sliceHost s.cfg s.dyn (n / 4), (argAt e.w 0 / 2097152, argAt e.w 1 / 2097152), argAt e.w 0 / 2097152, argAt e.w 1 / 2097152,
            n / 4⟩] } })))) ∧
  (∀ (s : State) (n : RingId) (idx : Nat) (e : RingEnt), entReady s.dyn n idx 2 = some e →
    (argAt e.w 0 % 268435456 == 0 && argAt e.w 1 % 268435456 == 0 &&
      rangeIn s.dyn (sliceHost s.cfg s.dyn (n / 4)) (argAt e.w 0 / 2097152) (argAt e.w 1 / 2097152)
        (fun x => x.slice == some (n.val / 4) && !x.going && !x.quar)) = false →
    exec (.release n idx) s = .next (s.setDyn (entDone s.cfg n idx 8 0 [] s.dyn))) ∧
  (∀ (s : State) (h : Host) (base pages : Nat), base % 128 = 0 → pages % 128 = 0 → 0 < pages →
    rangeIn s.dyn h base pages (fun e => !e.going && !e.quar) = true →
    exec (.releaseDynamicCapacity h none base pages) s = .next (s.setDyn
      (settleRel h base pages (releaseRange s.cfg h base pages (fun e => !e.going && !e.quar) s.dyn)))) ∧
  (∀ (s : State) (h : Host) (ev : Nat × Nat) (base pages : Nat), base % 128 = 0 → pages % 128 = 0 →
    exec (.releaseDynamicCapacity h (some ev) base pages) s = .next (s.setDyn (answerRel s.cfg h ev base pages s.dyn))) ∧
  (∀ (s : State) (dev : Dev) (page n : Nat), rd s.dyn .xltPtLocReady 0 = 1 → zeroInside s.dyn dev page n = false → page % 128 + n ≤ 128 → 0 < n → page / 128 < nblk s.dyn dev →
    (blkGet s.dyn dev (page / 128)).resv = false → ((blkGet s.dyn dev (page / 128)).dirty &&& pgMask page n) = pgMask page n →
    page / 128 ≤ aget 0 s.dyn.alloc.front dev → devOk s.dyn dev = true →
    exec (.zeroingDone dev page n) s = .next (s.setDyn (journalPut (.freePage dev page n) (pagesFree s.cfg dev page n) s.dyn)))

/-- POOL_READY, INITIAL_GRANT, expiries, journal, resync and rebuild complete (R207, R208, R210, R212, R218, R220, R548). -/
def Obligations.PoolAndHostStateCommandsComplete : Prop :=
  (∀ (s : State) (p c : Nat) (d e : Dyn), p = rd s.dyn .xltPtLocPrimDev 0 → c = rd s.dyn .xltPtLocCopyDev 0 →
    rd s.dyn .xltPtLocReady 0 = 0 → devUp s.dyn p = true → (rd s.dyn .xltPtLocCopyV 0 = 0 ∨ devUp s.dyn c = true) →
    0 < rd s.dyn .xltPtLocBlocks 0 →
    d = (if rd (reservePt s.cfg p s.dyn) .xltPtLocCopyV 0 = 1 then reservePt s.cfg c (reservePt s.cfg p s.dyn) else reservePt s.cfg p s.dyn) →
    e = put .xltPtLocReady 0 1 { d with xlt := { d.xlt with startAt := d.now } } →
    exec .poolReady s = .next (s.setDyn (forAll e.alloc.joined zeroFront e))) ∧
  (∀ (s : State) (ld : Host) (r : Fin 8) (pol want : Nat) (runs : List Place) (e d : Dyn), pol = ld.val * 8 + r.val →
    rd s.dyn .xltPtLocReady 0 = 1 → (ctxGet s.dyn 8).busy = false → (initList s.cfg).contains (ld.val, r.val) = true →
    s.dyn.alloc.inited.contains (ld.val, r.val) = false →
    (((initList s.cfg).takeWhile fun x => x != (ld.val, r.val)).all fun x => s.dyn.alloc.inited.contains x) = true →
    cg s.cfg .allocRpolShared pol = 0 → want = cg s.cfg .allocRpolInitBlocks pol → 0 < want →
    want ≤ tierFree s.dyn (cg s.cfg .allocRpolTierPref pol) →
    e = { s.dyn with alloc := { s.dyn.alloc with inited := s.dyn.alloc.inited ++ [(ld.val, r.val)] } } → srDead s.cfg e ld r = false →
    planGrant s.cfg ld pol (want * 128) (cg s.cfg .allocRgnBase pol) e = some (runs, d) →
    exec (.initialGrant ld r) s = .next (s.setDyn (poolLow s.cfg (journalPut (.grantReserved 8) (ctxWrite 8)
      (ctxSet 8 ⟨true, 0, 0, 4096, ld, r, cg s.cfg .allocRgnBase pol, want * 128, 0, runs, 3, d.alloc.nextTag, d.now, polNow s.cfg pol,
        targetsOf s.cfg ld r (cg s.cfg .allocRgnBase pol)⟩ { d with alloc := { d.alloc with nextTag := d.alloc.nextTag + 1 } }))))) ∧
  (∀ (s : State) (ld : Host) (r : Fin 8) (pol want : Nat) (e : Dyn), pol = ld.val * 8 + r.val →
    rd s.dyn .xltPtLocReady 0 = 1 → (ctxGet s.dyn 8).busy = false → (initList s.cfg).contains (ld.val, r.val) = true →
    s.dyn.alloc.inited.contains (ld.val, r.val) = false →
    (((initList s.cfg).takeWhile fun x => x != (ld.val, r.val)).all fun x => s.dyn.alloc.inited.contains x) = true →
    want = cg s.cfg .allocRpolInitBlocks pol → tierFree s.dyn (cg s.cfg .allocRpolTierPref pol) < want →
    tierZeroing s.dyn (cg s.cfg .allocRpolTierPref pol) = false → tierZeroing s.dyn (1 - cg s.cfg .allocRpolTierPref pol) = false →
    min want (polRoom s.cfg s.dyn pol / 128) = 0 →
    e = { s.dyn with alloc := { s.dyn.alloc with inited := s.dyn.alloc.inited ++ [(ld.val, r.val)] } } →
    exec (.initialGrant ld r) s = .next (s.setDyn (raise 0x040E (leadOr0 e) [ld.val, r.val, 0] e))) ∧
  (∀ (s : State) (h : Host), hostState s.dyn h = 1 → aget 0 s.dyn.alloc.hostAt h + cg s.cfg .allocCtlGraceS 0 * 1000000000 ≤ s.dyn.now →
    exec (.graceExpiry h) s = .next (s.setDyn (enterQuarantine s.cfg h s.dyn))) ∧
  (∀ (s : State) (h : Host), hostState s.dyn h = 2 → cg s.cfg .allocCtl2ReclaimS 0 ≠ 0 →
    aget 0 s.dyn.alloc.hostAt h + cg s.cfg .allocCtl2ReclaimS 0 * 1000000000 ≤ s.dyn.now →
    exec (.reclaimExpiry h) s = .next (s.setDyn (reclaimHost s.cfg h s.dyn))) ∧
  (∀ (s : State) (jid : Nat) (w : Fin 12), (s.dyn.alloc.journal.any fun x => x.1 == jid && x.2.1.contains w.val) = true →
    exec (.journalRecord jid w) s = .next (s.setDyn (emit (.journalAck jid w) s.dyn))) ∧
  (∀ (s : State) (jid : Nat) (w : Fin 12) (x : Nat × List Nat × Cont),
    s.dyn.alloc.journal.find? (fun x => x.1 == jid && x.2.1.contains w.val) = some x →
    (x.2.1.all (fun v => v == w.val) = true → exec (.journalAck jid w) s = .next (s.setDyn (contRun s.cfg x.2.2 (xchClose x.1
      { s.dyn with alloc := { s.dyn.alloc with journal := dropOne x s.dyn.alloc.journal } })))) ∧
    (x.2.1.all (fun v => v == w.val) = false → exec (.journalAck jid w) s = .next (s.setDyn { s.dyn with alloc := { s.dyn.alloc with
      journal := mapIf (fun y => y == x) (fun y => (y.1, x.2.1.filter fun v => !(v == w.val), y.2.2)) s.dyn.alloc.journal } }))) ∧
  (∀ s : State, rd s.dyn .allocMirStsSyncing 0 = 1 → exec .standbyResync s = .next (s.setDyn
    (put .allocMirStsSyncing 0 0 (put .allocMirStsMirrored 0 1 s.dyn)))) ∧
  (∀ s : State, exec .allocatorRebuilt s = .next (s.setDyn { s.dyn with alloc := { s.dyn.alloc with rebuild := false } }))

/-- PACKET_FORWARD, LINK_LOST and RESEND_TIMEOUT complete (R343, R346, R347, R349, R357, R358). -/
def Obligations.NetworkPacketCommandsComplete : Prop :=
  (∀ (s : State) (nid dir : Nat) (f : NetPkt), s.dyn.noc.net.find? (fun f => f.nid == nid) = some f →
    rtrStopped s.dyn f.rtr = false → behind s.dyn f = false → nextDir f = some dir → linkLost s.dyn f.rtr dir = false →
    rtrStopped s.dyn (linkTo f.rtr dir) = false → domPwr s.dyn (domRtr (linkTo f.rtr dir)) < 2 → gklOfLink f.rtr dir = none →
    inputRoom s.dyn f dir = true →
    exec (.packetForward nid true true) s = .next (s.setDyn (ungate (120 + linkTo f.rtr dir) { s.dyn with
      noc := { s.dyn.noc with net := mapIf (fun y => y == f) (fun f => hopOn f dir) s.dyn.noc.net } }))) ∧
  (∀ (s : State) (nid dir n : Nat) (f : NetPkt) (d : Dyn), s.dyn.noc.net.find? (fun f => f.nid == nid) = some f →
    rtrStopped s.dyn f.rtr = false → behind s.dyn f = false → nextDir f = some dir → linkLost s.dyn f.rtr dir = false →
    rtrStopped s.dyn (linkTo f.rtr dir) = false → domPwr s.dyn (domRtr (linkTo f.rtr dir)) < 2 → gklOfLink f.rtr dir = some n →
    gklCross n (flitsOf f.plane f.pkt) (boundTx f dir (if dateline f.rtr dir then 1 else f.vcC) s.dyn) s.dyn = (true, d) →
    exec (.packetForward nid true true) s = .next (s.setDyn (ungate (120 + linkTo f.rtr dir) { d with
      noc := { d.noc with net := mapIf (fun y => y == f) (fun f => hopOn f dir) d.noc.net } }))) ∧
  (∀ (s : State) (nid : Nat) (credit : Bool) (f : NetPkt), s.dyn.noc.net.find? (fun f => f.nid == nid) = some f →
    rtrStopped s.dyn f.rtr = false → behind s.dyn f = false → nextDir f = none → domPwr s.dyn (domRtr f.rtr) ≤ 1 →
    (f.pkt.dst < 192 → domPwr s.dyn (domPu (lpPu f.pkt.dst)) ≤ 1) → ejectRoom s.dyn f = true →
    exec (.packetForward nid credit true) s = .next (s.setDyn (ungate (120 + f.rtr) (eject f { s.dyn with
      noc := { s.dyn.noc with net := dropOne f s.dyn.noc.net } })))) ∧
  (∀ (s : State) (nid dir : Nat) (credit : Bool) (f : NetPkt), s.dyn.noc.net.find? (fun f => f.nid == nid) = some f →
    rtrStopped s.dyn f.rtr = false → behind s.dyn f = false → nextDir f = some dir → linkLost s.dyn f.rtr dir = true →
    exec (.packetForward nid credit true) s = .next (s.setDyn (bump .nocRtrErrDisc (rtrIdx f.rtr) 1 (emit (.netDrop f.nid)
      { s.dyn with noc := { s.dyn.noc with net := dropOne f s.dyn.noc.net } })))) ∧
  (∀ (s : State) (nid : Nat) (credit : Bool) (f : NetPkt) (d : Dyn), s.dyn.noc.net.find? (fun f => f.nid == nid) = some f →
    d = raise 0x0707 (rCol f.rtr / 2) [f.rtr] (bump .nocRtrErrPar (rtrIdx f.rtr) 1 (emit (.netDrop f.nid)
      { s.dyn with noc := { s.dyn.noc with net := dropOne f s.dyn.noc.net } })) →
    exec (.packetForward nid credit false) s = .next (s.setDyn
      (forAll (aerFns s.cfg d f.pkt.src) (fun x => aerTell x.1 x.2 2) d))) ∧
  (∀ (s : State) (r : Router) (dir : Fin 4) (d : Dyn), linkLost s.dyn r dir = false →
    d = raise 0x0706 (rCol r / 2) [r.val, dir.val] (loseDir (linkTo r dir) (if dir.val % 2 = 0 then dir.val + 1 else dir.val - 1)
      (loseDir r dir s.dyn)) →
    exec (.linkLost r dir) s = .next (s.setDyn (arbAsk { actReq 5 [] [] with lostLink := true } 0
      { d with noc := { d.noc with pend := d.noc.pend ++ [(r.val, dir.val)] } }).2)) ∧
  (∀ (s : State) (xid : Nat) (x y : Xch) (d : Dyn), s.dyn.noc.xchs.find? (fun x => x.xid == xid) = some x →
    x.at0 + max 1 (cg s.cfg .nocCtlResendUs 0) * 1000 ≤ s.dyn.now →
    y = { x with at0 := s.dyn.now, sent := x.sent + 1, told := x.told || decide (8 ≤ x.sent + 1) } →
    d = emit (.resend xid) { s.dyn with noc := { s.dyn.noc with xchs := mapIf (fun z => z.xid == xid) (fun _ => y) s.dyn.noc.xchs } } →
    exec (.resendTimeout xid) s = .next (s.setDyn (doIf (decide (8 ≤ x.sent + 1) && !x.told)
      (raise 0x0708 (leadOr0 d) [xid]) d)))

/-- SPAN_CLOSE_REQUEST, FENCE_MSG, FENCE_MARK, SPAN_CLOSED and UNFENCE complete (R350, R351). -/
def Obligations.SpanClosureCommandsComplete : Prop :=
  (∀ (s : State) (e : Fin 60), neverClosed s.cfg s.dyn e = false → fenced s.dyn e = false → s.dyn.noc.spanQ.contains e.val = false →
    rd s.dyn .nocSpanStsBusy 0 = 0 → s.dyn.noc.spanQ = [] →
    ∃ d, exec (.spanCloseRequest e) s = .next (s.setDyn d) ∧ rd d .nocSpanStsBusy 0 = 1 ∧ rd d .nocSpanStsStep 0 = 3 ∧
      rd d .nocSpanStsEp 0 = e ∧ rd d .nocSpanStsMarks 0 = 0 ∧ d.noc.spanQ = [] ∧ d.out = s.dyn.out ++ [.fence e]) ∧
  (∀ (s : State) (e : Fin 60), neverClosed s.cfg s.dyn e = false → fenced s.dyn e = false → s.dyn.noc.spanQ.contains e.val = false →
    rd s.dyn .nocSpanStsBusy 0 = 1 → exec (.spanCloseRequest e) s = .next (s.setDyn { s.dyn with
      noc := { s.dyn.noc with spanQ := s.dyn.noc.spanQ ++ [e.val] } })) ∧
  (∀ (s : State) (ni : Router) (e : Fin 60), rd s.dyn .nocSpanStsBusy 0 = 1 → rd s.dyn .nocSpanStsEp 0 = e →
    ∃ d, exec (.fenceMsg ni e) s = .next (s.setDyn d) ∧ rd d .nocSpanStsStep 0 = 4 ∧
      aget 0 d.noc.niFence (e * 32 + ni) = 1 ∧ d.out = s.dyn.out ++ [.fenceMark e ni, .fenceMark e ni] ∧ d.ev = s.dyn.ev) ∧
  (∀ (s : State) (ni : Router), rd s.dyn .nocSpanStsBusy 0 = 1 →
    aget 0 s.dyn.noc.niFence (rd s.dyn .nocSpanStsEp 0 * 32 + ni) = 1 → aget 0 s.dyn.noc.niSent ni < 2 →
    rd s.dyn .nocSpanStsMarks 0 < 64 → ∃ d, exec (.fenceMark ni) s = .next (s.setDyn d) ∧
      rd d .nocSpanStsMarks 0 = rd s.dyn .nocSpanStsMarks 0 + 1 ∧ aget 0 d.noc.niSent ni = aget 0 s.dyn.noc.niSent ni + 1 ∧
      rd d .nocSpanStsStep 0 = (if rd s.dyn .nocSpanStsMarks 0 = 63 then 5 else rd s.dyn .nocSpanStsStep 0) ∧ d.ev = s.dyn.ev) ∧
  (∀ (s : State) (d : Dyn), rd s.dyn .nocSpanStsBusy 0 = 1 → rd s.dyn .nocSpanStsMarks 0 = 64 → s.dyn.noc.spanQ = [] →
    s.dyn.noc.reopen.contains (rd s.dyn .nocSpanStsEp 0) = false →
    d = xchClose spanXid (put .nocSpanStsStep 0 6 (put .nocSpanStsBusy 0 0 s.dyn)) →
    exec .spanClosed s = .next (s.setDyn (raise 0x0703 (leadOr0 d) [rd s.dyn .nocSpanStsEp 0]
      (emit (.closed (rd s.dyn .nocSpanStsEp 0)) d)))) ∧
  (∀ (s : State) (e : Fin 60), rd s.dyn .nocSpanStsBusy 0 = 1 → rd s.dyn .nocSpanStsEp 0 = e →
    exec (.unfence e) s = .next (s.setDyn { s.dyn with noc := { s.dyn.noc with reopen := s.dyn.noc.reopen ++ [e.val] } })) ∧
  (∀ (s : State) (e : Fin 60), ¬ (rd s.dyn .nocSpanStsBusy 0 = 1 ∧ rd s.dyn .nocSpanStsEp 0 = e) → fenced s.dyn e = true →
    regFail s.dyn (epRegion e) = false → domPwr s.dyn (epDom e) ≤ 1 →
    exec (.unfence e) s = .next (s.setDyn (spanOpen e s.dyn)))

/-- RECONFIG_GRANT, BANK_LOAD_DONE, SWITCH_TIME and DRAINED complete (R353, R354). -/
def Obligations.RouteBankCommandsComplete : Prop :=
  (∀ (s : State) (a : Act), rd s.dyn .nocEpochBusy 0 = 0 → s.dyn.hlth.running.find? (fun a => a.q.code == 5) = some a →
    exec .reconfigGrant s = .next (s.setDyn (put .nocEpochBusy 0 1 (put .nocEpochSwitched 0 0 (put .nocEpochDrained 0 0
      { s.dyn with noc := { s.dyn.noc with act := some a.id, loadAt := s.dyn.now, swAt := none } }))))) ∧
  (∀ (s : State) (order : Fin 16) (words : List (Nat × Nat)) (k : Bank) (d : Dyn), rd s.dyn .nocEpochBusy 0 = 1 → s.dyn.noc.swAt = none →
    k = ⟨true, order, forAll words (fun x (a : Arr Nat) => aset 0 a x.1 x.2) arrEmpty⟩ →
    d = (if rd s.dyn .nocEpochCur 0 = 0 then { s.dyn with noc := { s.dyn.noc with bank1 := k } }
      else { s.dyn with noc := { s.dyn.noc with bank0 := k } }) → bankValid d k = true →
    exec (.bankLoadDone order words) s = .next (s.setDyn { d with noc := { d.noc with swAt := some (s.dyn.now + 2000) } })) ∧
  (∀ (s : State) (order : Fin 16) (words : List (Nat × Nat)) (k : Bank) (d : Dyn), rd s.dyn .nocEpochBusy 0 = 1 → s.dyn.noc.swAt = none →
    k = ⟨true, order, forAll words (fun x (a : Arr Nat) => aset 0 a x.1 x.2) arrEmpty⟩ →
    d = (if rd s.dyn .nocEpochCur 0 = 0 then { s.dyn with noc := { s.dyn.noc with bank1 := k } }
      else { s.dyn with noc := { s.dyn.noc with bank0 := k } }) → bankValid d k = false →
    exec (.bankLoadDone order words) s = .next (s.setDyn (reconfEnd (raise 0x0702 (leadOr0 d) [] d)))) ∧
  (∀ (s : State) (t : Nat), s.dyn.noc.swAt = some t → t ≤ s.dyn.now → rd s.dyn .nocEpochSwitched 0 = 0 →
    exec .switchTime s = .next (s.setDyn (injectWaiting (linksBack (put .nocEpochSwitched 0 1 s.dyn))))) ∧
  (∀ (s : State) (p : Fin 4), rd s.dyn .nocEpochSwitched 0 = 1 → oldCount s.dyn p = 0 →
    bitAt (rd s.dyn .nocEpochDrained 0) p = false → bitSet (rd s.dyn .nocEpochDrained 0) p ≠ 15 →
    exec (.drained p) s = .next (s.setDyn (injectWaiting (put .nocEpochDrained 0 (bitSet (rd s.dyn .nocEpochDrained 0) p) s.dyn)))) ∧
  (∀ (s : State) (p : Fin 4) (d e : Dyn), rd s.dyn .nocEpochSwitched 0 = 1 → oldCount s.dyn p = 0 →
    bitAt (rd s.dyn .nocEpochDrained 0) p = false → bitSet (rd s.dyn .nocEpochDrained 0) p = 15 →
    d = put .nocEpochCount 0 (rd s.dyn .nocEpochCount 0 + 1) (put .nocEpochCur 0 (1 - rd s.dyn .nocEpochCur 0)
      (put .nocEpochDrained 0 15 s.dyn)) →
    e = { d with noc := { d.noc with pend := d.noc.pend.filter fun x => decide (4 ≤ x.2) } } →
    exec (.drained p) s = .next (s.setDyn (raise 0x0701 (leadOr0 e) [] (injectWaiting (reconfEnd e)))))

/-- SHARED_REQUEST, SNOOP_RECORD, BIRSP, GRANT, DONE, BICONFLICT, BISNP_TIMEOUT and WALK_DONE complete (R234, R236, R238, R239, R250, R251). -/
def Obligations.SharedLineCommandsComplete : Prop :=
  (∀ (s : State) (hits : List EccHit) (sl : DSlice) (wbs : List WbHdr) (qs : List SReq), sliceStopped s.dyn sl = false →
    exec (.sharedRequest hits sl wbs qs) s = .next (s.setDyn (takeCycle s.cfg sl wbs qs (forAll hits (eccHit s.cfg) s.dyn)))) ∧
  (∀ (s : State) (h : Host) (key lp : Nat) (o : OpenLine) (k : BiSnp) (far : Option FarSnoop), hostPort s.cfg s.dyn h = some lp →
    earlier s.cfg s.dyn h key = false → (s.dyn.coh.recs.any fun r => r.host == h.val && r.key == key) = false →
    homeNo s.cfg s.dyn key < 48 → openOf (dirGet s.dyn (homeSlice key)) key = some o → (o.snoops.any fun x => x.1 == h.val) = true →
    k = (if o.evict then .inv else match o.q.map SReq.op with
      | some .rdS => .data
      | some .rdI => .cur
      | _ => .inv) →
    exec (.snoopRecord h key far) s = .next (s.setDyn (openRec s.cfg h lp key k (o.q.map fun q => (q.host.val, q.id)) s.dyn))) ∧
  (∀ (s : State) (h : Host) (key lp : Nat) (b : FarSnoop), hostPort s.cfg s.dyn h = some lp → earlier s.cfg s.dyn h key = false →
    (s.dyn.coh.recs.any fun r => r.host == h.val && r.key == key) = false → 48 ≤ homeNo s.cfg s.dyn key →
    exec (.snoopRecord h key (some b)) s = .next (s.setDyn
      (openRec s.cfg h lp key b.kind (b.req.map fun q => (q.1.val, q.2)) s.dyn))) ∧
  (∀ (s : State) (h : Host) (key lp : Nat) (a : BiRsp) (blk : Bool) (r : SnoopRec) (d e : Dyn), homeNo s.cfg s.dyn key < 48 →
    sliceStopped s.dyn (homeSlice key) = false → s.dyn.coh.recs.find? (fun r => r.host == h.val && r.key == key) = some r →
    pendingWb s.dyn h key = none → hostPort s.cfg s.dyn h = some lp →
    d = doIf blk (raise 0x0206 (leadOr0 (tallyPort lp 0x10 1 s.dyn)) [homeSlice key, h, key]) (tallyPort lp 0x10 1 s.dyn) →
    e = { d with coh := { d.coh with recs := d.coh.recs.filter fun r => !(r.host == h.val && r.key == key) } } →
    exec (.birsp h key a blk none) s = .next (s.setDyn (snoopDone s.cfg (homeSlice key) key h (birspNo a) (dirSet (homeSlice key)
      (match r.wrote with
        | some id => noteWrote key h id (dirGet e (homeSlice key))
        | none => dirGet e (homeSlice key)) e)))) ∧
  (∀ (s : State) (sl : DSlice) (key : Nat) (o : OpenLine) (q : SReq) (f : Flight) (d : Dyn),
    openOf (dirGet s.dyn sl) key = some o → o.q = some q → o.phase = 2 → flightOf s.dyn q.id = some f → f.grant = 0 →
    f.home = some (sl.val, key) → d = setFlight f.req.id (fun f => { f with grant := grantState q + 1 }) s.dyn →
    exec (.grant sl key none) s = .next (s.setDyn (
      if o.poison && f.req.kind == .memRd then
        answer f.req (some (if grantState q = 2 then .memDataPoisonE else if grantState q = 1 then .memDataPoisonS else .memDataPoison)) d
      else if o.fwd && f.req.kind == .memRd then
        answer f.req (some (if grantState q = 2 then .memDataE else if grantState q = 1 then .memDataS else .memData)) d
      else if f.req.kind == .memRd || f.req.kind == .memWr then xlate s.cfg f.req.id d
      else answer f.req (some (if grantState q = 2 then .cmpE else if grantState q = 1 then .cmpS else .cmp)) d))) ∧
  (∀ (s : State) (sl : DSlice) (key : Nat) (x : FarGrant) (f : Flight), flightOf s.dyn x.id = some f → f.grant = 0 → homeSlice key = sl →
    48 ≤ homeNo s.cfg s.dyn key → f.home = some (homeNo s.cfg s.dyn key, key) →
    exec (.grant sl key (some x)) s = .next (s.setDyn (grantTo s.cfg f x.st x.fwd x.poison s.dyn))) ∧
  (∀ (s : State) (sl : DSlice) (key : Nat) (h : Host) (o : OpenLine), openOf (dirGet s.dyn sl) key = some o → o.phase = 2 →
    (o.q.map fun q => q.host) = some h → sliceStopped s.dyn sl = false →
    (s.dyn.flights.any fun f => some f.req.id == o.q.map fun q => q.id) = false →
    exec (.done sl key h) s = .next (s.setDyn (closeLine s.cfg sl key s.dyn))) ∧
  (∀ (s : State) (h : Host) (key lp : Nat), hostPort s.cfg s.dyn h = some lp → earlier s.cfg s.dyn h key = false →
    exec (.biconflict h key) s = .next (s.setDyn (emit (.biConflictAck lp key) s.dyn))) ∧
  (∀ (s : State) (h : Host) (key : Nat), ((openOf (dirGet s.dyn (homeSlice key)) key).any fun o => o.snoops.any fun t =>
      t.1 == h.val && decide (t.2 + bisnpTmo s.cfg ≤ s.dyn.now)) = true →
    exec (.bisnpTimeout h key) s = .next (s.setDyn (failHost s.cfg h (raise 0x0201 (leadOr0 s.dyn) [homeSlice key, h, key] s.dyn)))) ∧
  (∀ (s : State) (h : Nat) (t : List Nat) (d : Dyn), s.dyn.coh.walks = h :: t →
    d = forAll (s.dyn.coh.dirs.cells.map Prod.fst) (fun sl d => walkSlice s.cfg h sl d) s.dyn →
    exec .walkDone s = .next (s.setDyn (match t with
      | [] => put .cohWalkStsBusy 0 0 (raise 0x0207 (leadOr0 d) [h] { d with coh := { d.coh with walks := t } })
      | n :: _ => put .cohWalkStsHost 0 n (raise 0x0207 (leadOr0 d) [h] { d with coh := { d.coh with walks := t } }))))

/-- SNOOP_WRITEBACK, ORDINARY_WRITEBACK, WB_GO, WB_DONE, RETRY and WAKE complete (R239, R240, R241, R244, R246). -/
def Obligations.WritebackAndRetryCommandsComplete : Prop :=
  (∀ (s : State) (id h sl key : Nat) (f : Flight) (r : SnoopRec) (d : Dyn), flightOf s.dyn id = some f → f.home = some (sl, key) →
    reqHost s.cfg s.dyn f.req = some h → recOf s.dyn h key = some r → f.req.kind = .memWr → f.grant = 0 →
    d = { s.dyn with coh := { s.dyn.coh with recs := mapIf (fun y => y == r) (fun y => { y with wrote := some id }) s.dyn.coh.recs } } →
    exec (.snoopWriteback id) s = .next (s.setDyn (xlate s.cfg id (setFlight id (fun f => { f with grant := 9 }) (match r.req with
      | some q => emit (.toPu q.1 5 r.key [q.2]) d
      | none => d))))) ∧
  (∀ (s : State) (id sl : Nat) (key : Nat) (f : Flight) (w : FarWb) (u d : Dyn), flightOf s.dyn id = some f → f.home = some (sl, key) →
    sl < 48 → sliceStopped s.dyn sl = false → u = ungate (48 + sl) s.dyn → wbSays s.cfg u sl ⟨id, none⟩ = some w →
    wbKnown (dirGet u sl) id w.key = false → hostFailed u w.host = false → isOwnerWb (dirGet u sl) w.key w.host = true →
    d = takeWb sl id w u →
    exec (.ordinaryWriteback ⟨id, none⟩) s = .next (s.setDyn (forAll ((dirGet d sl).wbs.filter fun w => w.hdr && !w.gone &&
      !((dirGet u sl).wbs.any fun y => y.id == w.id && y.key == w.key)) (fun w d => sendGo sl w d) d))) ∧
  (∀ (s : State) (id : Nat) (x : FarWb), exec (.ordinaryWriteback ⟨id, some x⟩) s = .next (s.setDyn
    (takeCycle s.cfg (homeSlice x.key) [⟨id, some x⟩] [] s.dyn))) ∧
  (∀ (s : State) (id sl key : Nat) (f : Flight) (w : WbRec) (far : Option FarGo) (d : Dyn), flightOf s.dyn id = some f →
    f.home = some (sl, key) → sl < 48 → (dirGet s.dyn sl).wbs.find? (fun w => w.id == id && w.key == key && !w.gone) = some w →
    d = dirSet sl { dirGet s.dyn sl with wbs := mapIf (fun y => y == w) (fun y => { y with gone := true }) (dirGet s.dyn sl).wbs } s.dyn →
    exec (.wbGo id far) s = .next (s.setDyn (xlate s.cfg id (setFlight id (fun f => { f with grant := 9 + w.st }) (match w.named with
      | some q => emit (.toPu q.1 5 key [q.2]) d
      | none => d))))) ∧
  (∀ (s : State) (id sl key : Nat) (f : Flight) (x : FarGo), flightOf s.dyn id = some f → f.home = some (sl, key) → 48 ≤ sl →
    f.req.kind = .memWr → f.grant = 0 → exec (.wbGo id (some x)) s = .next (s.setDyn
      (xlate s.cfg id (setFlight id (fun f => { f with grant := 9 + x.st.val }) (match x.named with
        | some q => emit (.toPu q.1 5 key [q.2]) s.dyn
        | none => s.dyn))))) ∧
  (∀ (s : State) (sl : DSlice) (key : Nat) (h : Host) (w : WbRec) (x : DirSt),
    (dirGet s.dyn sl).wbs.find? (fun w => w.key == key && w.host == h.val && w.gone &&
      !(s.dyn.flights.any fun f => f.home == some (sl.val, key) && isWb f && f.req.id == w.id)) = some w →
    sliceStopped s.dyn sl = false → x = { dirGet s.dyn sl with wbs := dropOne w (dirGet s.dyn sl).wbs } →
    exec (.wbDone sl key h) s = .next (s.setDyn (seekAgain s.cfg sl (tryGrant sl key (dirSet sl
      { x with evTab := if wbOpen x key then x.evTab else x.evTab.filter fun y => y != key } s.dyn))))) ∧
  (∀ (s : State) (sl : DSlice) (q : SReq) (n : Nat), n = (if homeSlice q.key = sl then homeNo s.cfg s.dyn q.key else sl.val) →
    (s.dyn.coh.retried.any fun y => y.1 == n && y.2.id == q.id) = false →
    exec (.retry sl q) s = .next (s.setDyn { s.dyn with coh := { s.dyn.coh with
      retried := s.dyn.coh.retried ++ [(n, { q with oldest := false })] } })) ∧
  (∀ (s : State) (sl : DSlice) (src : Fin 52) (q : SReq), (rsvUsed (dirGet s.dyn sl)).contains src.val = false →
    oldestRetried s.dyn.coh.retried sl src = some q →
    exec (.wake sl none src) s = .next (s.setDyn (emit (.toHome sl { q with oldest := true }) { s.dyn with coh := { s.dyn.coh with
      retried := s.dyn.coh.retried.filter fun y => !(y.1 == sl.val && y.2.id == q.id) } }))) ∧
  (∀ (s : State) (sl : DSlice) (src : Fin 52) (q : SReq), (rsvUsed (dirGet s.dyn sl)).contains src.val = true →
    oldestRetried s.dyn.coh.retried sl src = some q →
    exec (.wake sl none src) s = .next (s.setDyn (dirSet sl
      { dirGet s.dyn sl with owed := (dirGet s.dyn sl).owed ++ [src.val] } s.dyn))) ∧
  (∀ (s : State) (sl : DSlice) (pkg : Fin 8) (src : Fin 52) (q : SReq) (n : Nat),
    n = 48 * (1 + pkg.val + 8 * cg s.cfg .gklSysRouteExitDie pkg) + sl.val → oldestRetried s.dyn.coh.retried n src = some q →
    exec (.wake sl (some pkg) src) s = .next (s.setDyn (farMsg n src 0 (emit (.toHome n { q with oldest := true })
      { s.dyn with coh := { s.dyn.coh with retried := s.dyn.coh.retried.filter fun y => !(y.1 == n && y.2.id == q.id) } }))))

/-- Placement reads, rewrites and writes, shootdowns, the second copy and event records complete (R139, R140, R147, R150, R151, R160, R199). -/
def Obligations.TranslationCommandsComplete : Prop :=
  (∀ (s : State) (die : Die) (ld : Host) (page : Nat) (ok : Bool) (m : Miss),
    (missActive s.dyn die).find? (fun m => m.ld == ld.val && m.page == page) = some m → m.stale = 0 →
    exec (.placementReadDone die ld page false ok) s = .next (s.setDyn (xltDrain s.cfg die (missDrop m (xltFill s.cfg die ld page s.dyn))))) ∧
  (∀ (s : State) (die : Die) (ld : Host) (page : Nat) (p ok : Bool) (m : Miss),
    (missActive s.dyn die).find? (fun m => m.ld == ld.val && m.page == page) = some m → m.stale ≠ 0 →
    exec (.placementReadDone die ld page p ok) s = .next (s.setDyn { s.dyn with xlt := { s.dyn.xlt with
      miss := mapIf (fun x => x == m) (fun x => { x with stale := x.stale - 1 }) s.dyn.xlt.miss } })) ∧
  (∀ (s : State) (die : Die) (ld : Host) (page : Nat) (ok : Bool) (m : Miss),
    (missActive s.dyn die).find? (fun m => m.ld == ld.val && m.page == page) = some m → m.stale = 0 → m.second = false →
    (m.dev ≠ ptReadDev s.dyn false → exec (.placementReadDone die ld page true ok) s = .next (s.setDyn (missRead m false s.dyn))) ∧
    (m.dev = ptReadDev s.dyn false → rd s.dyn .xltPtLocCopyV 0 = 1 →
      exec (.placementReadDone die ld page true ok) s = .next (s.setDyn (missRead m true s.dyn)))) ∧
  (∀ (s : State) (die : Die) (ld : Host) (page : Nat) (ok : Bool) (m : Miss) (d : Dyn),
    (missActive s.dyn die).find? (fun m => m.ld == ld.val && m.page == page) = some m → m.stale = 0 → m.second = true →
    d = forAll (waitersOf s.dyn die ld page) (fun f d => answer f.req (memAnswer f.req.kind)
      (bump .xltUnmapCntCount die 1 (raise 0x0308 die [ld, page] (xltLeave f.req.id d)))) (missDrop m s.dyn) →
    aget 0 d.xlt.rewrite (pgKey ld page) ≤ d.now →
    exec (.placementReadDone die ld page true ok) s = .next (s.setDyn (xltDrain s.cfg die (if ok then poisonEntry s.cfg ld page d else
      { d with xlt := { d.xlt with rewrite := aset 0 d.xlt.rewrite (pgKey ld page) (d.now + 1000000000) } })))) ∧
  (∀ (s : State) (ld : Host) (page : Nat), aget 0 s.dyn.xlt.rewrite (pgKey ld page) ≠ 0 →
    aget 0 s.dyn.xlt.rewrite (pgKey ld page) ≤ s.dyn.now →
    exec (.ptRewriteRetry ld page true) s = .next (s.setDyn (poisonEntry s.cfg ld page s.dyn)) ∧
    exec (.ptRewriteRetry ld page false) s = .next (s.setDyn { s.dyn with xlt := { s.dyn.xlt with
      rewrite := aset 0 s.dyn.xlt.rewrite (pgKey ld page) (s.dyn.now + 1000000000) } })) ∧
  (∀ (s : State) (wid : Nat) (w : PWrite) (d : Dyn), s.dyn.xlt.pws.find? (fun w => w.wid == wid) = some w →
    d = { s.dyn with xlt := { s.dyn.xlt with pws := dropOne w s.dyn.xlt.pws } } →
    exec (.placementWriteDone wid) s = .next (s.setDyn (if w.remap then shootsFor w d else contRun s.cfg w.cont d))) ∧
  (∀ (s : State) (die : Die) (rid : Nat) (x : Shoot) (d : Dyn), s.dyn.xlt.shoots.find? (fun x => x.rid == rid) = some x →
    xltHalted s.dyn die = false → d = tallyDie die 0x49 none 1 (shootAt die x s.dyn) →
    exec (.shootdown die rid) s = .next (s.setDyn (match x.cont with
      | .migFlip _ _ | .twinSet _ _ => releaseHeld s.cfg die x.ld x.lo d
      | _ => d))) ∧
  (∀ (s : State) (rid : Nat) (who : Fin 12) (x : Shoot) (d : Dyn), s.dyn.xlt.shoots.find? (fun x => x.rid == rid) = some x →
    (who.val < 4 → bitAt x.ran who = true) →
    d = xchClose x.rid { s.dyn with xlt := { s.dyn.xlt with shoots := s.dyn.xlt.shoots.filter fun y => y.rid != x.rid } } →
    exec (.shootdownAnswer rid who) s = .next (s.setDyn (if (bitSet x.got who &&& x.need) = x.need then
      (if d.xlt.shoots.any fun y => y.grp == x.grp then d else contRun s.cfg x.cont d)
    else { s.dyn with xlt := { s.dyn.xlt with
      shoots := mapIf (fun y => y.rid == x.rid) (fun y => { y with got := bitSet x.got who }) s.dyn.xlt.shoots } }))) ∧
  (∀ (s : State) (c : Nat), s.dyn.alloc.moveCopy = some c → devOk s.dyn c = true →
    ((List.range (ptBlocks s.cfg)).all fun k => (blkGet s.dyn c k).resv) = true →
    exec .secondCopyBuild s = .next (s.setDyn (put .xltPtLocCopyV 0 1
      (reservePt s.cfg c { s.dyn with alloc := { s.dyn.alloc with moveCopy := none } })))) ∧
  (∀ (s : State) (ld : Host) (n : Nat), ∃ d, exec (.clearEventRecords ld n) s = .next (s.setDyn d) ∧
    aget [] d.xlt.ldLog ld = (aget [] s.dyn.xlt.ldLog ld).drop n ∧
    (∀ k, k ≠ ld.val → aget [] d.xlt.ldLog k = aget [] s.dyn.xlt.ldLog k) ∧ d.sts = s.dyn.sts ∧ d.ev = s.dyn.ev ∧ d.out = s.dyn.out)

/-- The commands of migrations, data mover chunks, twin rebuilds and epochs complete (R108, R157, R162, R166, R167, R168, R171, R173, R187). -/
def Obligations.MigrationCommandsComplete : Prop :=
  (∀ (s : State) (die : Die) (slot : MigSlot) (i : Nat) (a : Assign) (d e : Dyn), i = die.val * 16 + slot.val →
    s.dyn.hlth.assigns.find? (fun a => a.die == die.val && granted s.dyn a.act) = some a → migState s.dyn i = 0 →
    d = { s.dyn with hlth := { s.dyn.hlth with assigns := dropOne a s.dyn.hlth.assigns } } → (ptGet d a.ld a.page).state = 1 →
    (ptGet d a.ld a.page).poison = false → devDie d (ptGet d a.ld a.page).dev = die → devOk d a.dstDev = true → (ptGet d a.ld a.page).run = 0 →
    e = ptWriteRange a.ld a.page 1 (fun _ e => { e with state := 2 }) false .nothing d →
    exec (.migrationAssign die slot) s = .next (s.setDyn (xchOpen (watchXid die slot) (emit (.watchReq die slot a.ld a.page)
      (forAll (List.range 4) (fun k d => emit (.wake (2000 + 2 * k + 1)) d) (ungate (172 + die.val) (migSet i
        { mig0 with act := a.act, srcDev := (ptGet d a.ld a.page).dev, srcPage := (ptGet d a.ld a.page).bpage, dstDev := a.dstDev, dstPage := a.dstPage, drain := a.drain, ring := a.ring } (put .xltMigStsRebuild i (b2n a.rebuild) (put .xltMigStsLd i a.ld (put .xltMigPagePage i a.page
        (put .xltMigStsState i 1 (put .xltMigStsPass i 0 (put .xltMigStsDirty i 0 (put .xltMigStsReason i 0 e)))))))))))))) ∧
  (∀ (s : State) (die : Die) (slot : MigSlot) (who : Fin 12), migState s.dyn (die * 16 + slot) = 1 →
    (4 ≤ who.val ∨ domPwr s.dyn (domSvc (2 * who + 1)) ≤ 1) →
    exec (.watchSet die slot who) s = .next (s.setDyn (armedCheck s.cfg (die * 16 + slot) (migSet (die * 16 + slot)
      { migGet s.dyn (die * 16 + slot) with ack := bitSet (migGet s.dyn (die * 16 + slot)).ack who } s.dyn)))) ∧
  (∀ (s : State) (die : Die) (slot : MigSlot) (blk : Fin 512) (poison err : Bool),
    exec (.chunkDone (.mig die slot blk) poison err) s = .next (s.setDyn (migChunkDone s.cfg (die * 16 + slot) blk s.dyn))) ∧
  (∀ (s : State) (n : RingId) (idx : Nat) (poison err : Bool),
    exec (.chunkDone (.ring n idx) poison err) s = .next (s.setDyn (chunkDone s.cfg n idx poison err s.dyn))) ∧
  (∀ (s : State) (die : Die) (slot : MigSlot) (blk : Fin 512), migState s.dyn (die * 16 + slot) = 2 →
    bitAt (migGet s.dyn (die * 16 + slot)).todo blk = false →
    exec (.fellingNotice die (slot * 2 ^ 64 + blk)) s = .next (s.setDyn (migSet (die * 16 + slot)
      { migGet s.dyn (die * 16 + slot) with again := bitSet (migGet s.dyn (die * 16 + slot)).again blk } s.dyn))) ∧
  (∀ (s : State) (die : Die) (dev : Dev) (page : Fin 16777216), bitAt (blkGet s.dyn dev (page / 128)).dirty (page % 128) = true →
    devOk s.dyn dev = true →
    exec (.fellingNotice die ((2 ^ 20 + dev) * 2 ^ 64 + page)) s = .next (s.setDyn (zeroSend dev page 1 s.dyn))) ∧
  (∀ (s : State) (die mdie : Die) (slot : MigSlot) (ld page : Nat) (d : Dyn), migState s.dyn (mdie * 16 + slot) = 4 → xltHalted s.dyn die = false →
    ld = migLd s.dyn (mdie * 16 + slot) → page = migPage s.dyn (mdie * 16 + slot) →
    d = (if s.dyn.xlt.heldPg.contains (die.val, ld, page) then s.dyn else
      { s.dyn with xlt := { s.dyn.xlt with heldPg := s.dyn.xlt.heldPg ++ [(die.val, ld, page)] } }) →
    exec (.holdRequest die mdie slot) s = .next (s.setDyn (holdTell die (some (migLd d (mdie * 16 + slot), migPage d (mdie * 16 + slot))) d))) ∧
  (∀ (s : State) (mdie : Die) (slot : MigSlot) (who : Fin 12), migState s.dyn (mdie * 16 + slot) = 4 →
    (4 ≤ who.val ∨ (s.dyn.xlt.heldPg.contains (who.val, migLd s.dyn (mdie * 16 + slot), migPage s.dyn (mdie * 16 + slot)) = true ∧
      (s.dyn.flights.any fun f => f.die == who.val &&
        f.page == some (migLd s.dyn (mdie * 16 + slot), migPage s.dyn (mdie * 16 + slot))) = false)) →
    exec (.holdAnswer mdie slot who) s = .next (s.setDyn (holdSweep s.cfg (mdie * 16 + slot) (migSet (mdie * 16 + slot)
      { migGet s.dyn (mdie * 16 + slot) with ack := bitSet (migGet s.dyn (mdie * 16 + slot)).ack who } s.dyn)))) ∧
  (∀ (s : State) (die : Die) (slot : MigSlot), migState s.dyn (die * 16 + slot) = 4 →
    (migGet s.dyn (die * 16 + slot)).holdAt + 1400 < s.dyn.now →
    exec (.holdTimeout die slot) s = .next (s.setDyn (holdAbandon s.cfg (die * 16 + slot) s.dyn))) ∧
  (∀ (s : State) (die : Die) (ld : Host) (page : Nat), s.dyn.xlt.heldPg.contains (die.val, ld.val, page) = true →
    slotOf s.dyn ld page = none → exec (.holdRelease die ld page) s = .next (s.setDyn (releaseHeld s.cfg die ld page s.dyn))) ∧
  (∀ (s : State) (ld : Host) (page k dev dp : Nat) (e : PtEnt), e = ptGet s.dyn ld page → e.state = 1 → e.poison = false →
    (twGet s.dyn e.twin).v = false → cg s.cfg .allocRpolTwin (pagePol s.cfg ld page) = 1 →
    s.dyn.xlt.degraded.contains (ld.val, pageRegion s.cfg ld page) = true → migBusy s.dyn ld page = false →
    twFree s.dyn = some k →
    singlePg s.dyn ((tierDevs s.dyn e.tier).filter fun b => fgOf s.dyn b != fgOf s.dyn e.dev) = some (dev, dp) →
    exec (.twinRebuildStart ld page) s = .next (s.setDyn
      (migAsk s.cfg ld page dev dp true false none (twPut k ⟨true, dev, dp⟩ s.dyn)))) ∧
  (∀ s : State, s.dyn.xlt.epochAt < s.dyn.now / epochNs s.cfg → autoOn s.cfg (hotHalve { s.dyn with xlt := { s.dyn.xlt with
      epochAt := s.dyn.now / epochNs s.cfg, epoch := s.dyn.xlt.epoch + rd s.dyn .xltPtLocReady 0 } }) = false →
    exec .epochEnd s = .next (s.setDyn (hotHalve { s.dyn with xlt := { s.dyn.xlt with
      epochAt := s.dyn.now / epochNs s.cfg, epoch := s.dyn.xlt.epoch + rd s.dyn .xltPtLocReady 0 } })))

/-- ADMIT, EGRESS_TRANSMIT, S2M_RESPONSE, WRITE_COUNT_UPDATE and MIRROR_ENABLE complete (R96, R98, R99, R110, R116, R117, R121, R122, R129, R131). -/
def Obligations.PacketPathCommandsComplete : Prop :=
  (∀ (s : State) (ws : List (AdmitFrom × Bool)) (ok : List ((AdmitFrom × Bool) × Bool)),
    ok = ws.map (fun x => (x, cutFirst s.cfg s.dyn ((ws.filter fun x => x.2).map Prod.fst) x.1)) →
    exec (.admitPacket ws) s = .next (s.setDyn (forAll ((ok.filter fun x => fromPort x.1.1) ++ ok.filter fun x => !fromPort x.1.1)
      (fun x d => admitOne s.cfg x.1.1 x.1.2 x.2 d) s.dyn))) ∧
  (∀ (s : State) (cl : Clu) (egr : Fin 40) (cr : Fin 256) (replay : Fin 3) (ok : Bool), cluStopped s.dyn cl = false → egr.val < 8 →
    portOpen s.cfg s.dyn (cl * 8 + egr) = true → slotsDue s.dyn (cl * 8 + egr) ≠ 0 → replay.val ≠ 0 →
    exec (.egressTransmit cl egr cr replay ok) s = .next (s.setDyn (slotCount (cl * 8 + egr) 1 1
      (if replay.val = 1 then tallyPort (cl * 8 + egr) 0x19 1 s.dyn else s.dyn)))) ∧
  (∀ (s : State) (cl : Clu) (egr : Fin 40) (cr : Fin 256) (d : Dyn), cluStopped s.dyn cl = false → egr.val < 8 →
    portOpen s.cfg s.dyn (cl * 8 + egr) = true → slotsDue s.dyn (cl * 8 + egr) ≠ 0 →
    d = slotCount (cl * 8 + egr) (slotClass s.dyn cl egr cr) 1 s.dyn →
    exec (.egressTransmit cl egr cr 0 true) s = .next (s.setDyn (match (egrSlot cl egr cr d).1 with
      | none => (egrSlot cl egr cr d).2
      | some b => depart s.cfg (cl * 8 + egr) b.pkt (tallyPort (cl * 8 + egr) 0x11 1
          (slotCount (cl * 8 + egr) 1 (padSlots s.cfg d b.pkt) (egrSlot cl egr cr d).2))))) ∧
  (∀ (s : State) (cl : Clu) (egr : Fin 40) (cr : Fin 256) (replay : Fin 3), cluStopped s.dyn cl = false → 8 ≤ egr.val →
    exec (.egressTransmit cl egr cr replay true) s = .next (s.setDyn (match (egrSlot cl egr cr s.dyn).1 with
      | none => (egrSlot cl egr cr s.dyn).2
      | some b => inject (cluRouter cl) (planeOf b.pkt) (egr - 8) b.pkt (egrSlot cl egr cr s.dyn).2))) ∧
  (∀ (s : State) (id lp : Nat) (who : Fin 2192) (k : RespKind) (poison : Bool) (dl mark : DevLoad) (f f2 : Flight) (d e : Dyn),
    flightOf s.dyn id = some f → f.devs = [who.val] → lp = whoPort s.dyn who → portOpen s.cfg s.dyn lp = true →
    stagRoom s.dyn lp (rspCls f.req.kind) (rspBytes f.req k) = true →
    (f.req.kind ≠ .memWr ∨ f.page = none) → isPoisonWrite id = false → f.via = none →
    mark = (if rspCls f.req.kind = 1 then markOf s.cfg (lpClu lp) (egrDepth s.dyn lp) else .light) →
    d = ungate (lpPu lp) (ungate (96 + lpClu lp) (tallyPort lp 0x10 1 s.dyn)) →
    f2 = { f with devs := [], poison := f.poison || poison, devLoad := dlMax f.devLoad (dlMax dl mark) } →
    e = setFlight id (fun _ => f2) (if mark = .moderate then tallyClu (lpClu lp) 0x24 1 d
      else if mark = .severe then tallyClu (lpClu lp) 0x25 1 d else d) → lpContained e f.req.lport = false →
    exec (.s2mResponse id who k poison dl) s = .next (s.setDyn
      (stage lp ⟨rspPkt s.cfg e f2 lp (finalResp f2 k) f2.devLoad, none, true⟩ e))) ∧
  (∀ (s : State) (i : Sess) (m : MirSess), m = aget mir0 s.dyn.mir i → m.told < m.written →
    (m.told = 0 ∨ m.lastAt + 1000 ≤ s.dyn.now) →
    exec (.writeCountUpdate i) s = .next (s.setDyn (emit (.mirrorCount i (cg s.cfg .mirWpaAddr i * 8) m.written)
      { s.dyn with mir := aset mir0 s.dyn.mir i { m with told := m.written, lastAt := s.dyn.now } }))) ∧
  (∀ (s : State) (i : Sess) (en : Bool), exec (.mirrorEnable i en) s = .next (s.setDyn (put .mirCtlEn i (b2n en)
    (if en && rd s.dyn .mirCtlEn i == 0 then { s.dyn with mir := aset mir0 s.dyn.mir i mir0 } else s.dyn))))

/-- HELLO, BEAT and PKG_LOST complete (R30, R395, R397, R398, R399). -/
def Obligations.FederationCommandsComplete : Prop :=
  (∀ (s : State) (die : Die) (pkg : Fin 8) (sysid : Word) (fresh : Bool) (vcs : List Host) (d : Dyn), lnkSt s.dyn (9 * die + 8) = 3 →
    sysid.toNat = cg s.cfg .gklSysIdSystemId 0 → s.dyn.sys.joined.contains pkg.val = true →
    d = put .gklSysStsFresh 0 0 (putBit .gklSysStsLost 0 pkg false s.dyn) →
    exec (.hello die pkg sysid true fresh vcs) s =
      .next (s.setDyn (gklPump (9 * die + 8) (helloSet die 1
        (sysSettle s.cfg (if bitAt (members s.cfg) pkg then pkgReach pkg d else d)))))) ∧
  (∀ (s : State) (die : Die) (pkg : Fin 8) (sysid : Word) (vcs : List Host) (d v : Dyn), lnkSt s.dyn (9 * die + 8) = 3 →
    sysid.toNat = cg s.cfg .gklSysIdSystemId 0 → s.dyn.sys.joined.contains pkg.val = false →
    v = vcsTaken s.cfg pkg vcs s.dyn →
    d = put .gklSysStsFresh 0 0 (putBit .gklSysStsLost 0 pkg false { v with sys := { v.sys with joined := v.sys.joined ++ [pkg.val] } }) →
    exec (.hello die pkg sysid true true vcs) s = .next (s.setDyn (gklPump (9 * die + 8) (helloSet die 1 (sysSettle s.cfg
      (if bitAt (members s.cfg) pkg then pkgReach pkg (raise 0x0816 (leadOr0 d) [pkg] d) else raise 0x0816 (leadOr0 d) [pkg] d)))))) ∧
  (∀ (s : State) (die : Die) (pkg : Fin 8) (sysid : Word) (digestOk fresh : Bool) (vcs : List Host), lnkSt s.dyn (9 * die + 8) = 3 →
    (sysid.toNat ≠ cg s.cfg .gklSysIdSystemId 0 ∨ digestOk = false ∨ fresh = false ∧ s.dyn.sys.joined.contains pkg.val = false) →
    exec (.hello die pkg sysid digestOk fresh vcs) s = .next (s.setDyn (helloRefuse s.cfg die (raise 0x081B (leadOr0 s.dyn) [die] s.dyn)))) ∧
  (∀ (s : State) (d : Dyn), (leadDie s.dyn).isSome = true → s.dyn.sys.sentAt + 100000 ≤ s.dyn.now →
    d = { s.dyn with sys := { s.dyn.sys with sentAt := s.dyn.now } } →
    exec (.beat none) s = .next (s.setDyn (forAll ((List.range 8).filter fun p => bitAt (members s.cfg) p && p != ownPkg d &&
      cg s.cfg .gklSysRouteV p == 1 && rd d .gklSysRouteBad p == 0)
      (fun p d => sysSay (cg s.cfg .gklSysRouteExitDie p) p 2 [ownPkg d] d) d))) ∧
  (∀ (s : State) (p : Fin 8), p.val ≠ ownPkg s.dyn → bitAt (members s.cfg) p = true →
    bitAt (rd s.dyn .gklSysStsLost 0) p = false →
    exec (.beat (some p)) s = .next (s.setDyn (sysSettle s.cfg (pkgReach p s.dyn)))) ∧
  (∀ (s : State) (pkg : Fin 8) (hosts : List Host) (d : Dyn), pkg.val ≠ ownPkg s.dyn →
    bitAt (rd s.dyn .gklSysStsReach 0) pkg = true → aget 0 s.dyn.sys.beatAt pkg + 1000000 ≤ s.dyn.now →
    d = putBit .gklSysStsLost 0 pkg true (putBit .gklSysStsReach 0 pkg false s.dyn) →
    exec (.pkgLost pkg hosts) s = .next (s.setDyn (peerGone s.cfg pkg (sysSettle s.cfg (remoteLost pkg (homesLost s.cfg pkg
      (forAll hosts (fun h d => hostFail s.cfg h d) (raise 0x0819 (leadOr0 d) [pkg]
        { d with sys := { d.sys with joined := dropOne pkg.val d.sys.joined } }))))))))

/-- GET_VERSION, IDENTIFY, CSR_READ and _WRITE, EVENT_READ, the FM API commands and I3C_DYNAMIC_ADDRESS complete (R510, R512, R513, R514, R515, R516, R517, R518, R520). -/
def Obligations.ManagementCommandsComplete : Prop :=
  (∀ (s : State) (p : Sys2Proof.Path) (c : Fin 65536), served s p (.getVersion c) = true → c.val ≠ 0 →
    exec (.getVersion p c) s = .next (s.setDyn (cmdDone p 0xC000 [min c.val 3, 1, 3] (journalNote (sessSet p (min c.val 3) (mgmtOn s.dyn)))))) ∧
  (∀ (s : State) (p : Sys2Proof.Path), served s p (.getVersion 0) = true →
    exec (.getVersion p 0) s = .next (s.setDyn (cmdRefuse p 0xC000 rcInvalid 0 (mgmtOn s.dyn)))) ∧
  (∀ (s : State) (p : Sys2Proof.Path), served s p .identify = true →
    exec (.identify p) s = .next (s.setDyn (cmdDone p 0xC001 (identWords (mgmtOn s.dyn)) (mgmtOn s.dyn)))) ∧
  (∀ (s : State) (p : Sys2Proof.Path) (a n : Nat) (peek : Bool), served s p (.csrRead a n peek) = true → 1 ≤ n → n ≤ 256 →
    exec (.csrRead p a n peek) s = .next (s.setDyn
      (cmdDone p 0xC010 (csrReads s.cfg p peek a n (mgmtOn s.dyn)).1 (csrReads s.cfg p peek a n (mgmtOn s.dyn)).2))) ∧
  (∀ (s : State) (p : Sys2Proof.Path) (a : Nat) (vs : List Word), served s p (.csrWrite a (vs.map fun v => v.toNat)) = true →
    1 ≤ vs.length → vs.length ≤ 256 → exec (.csrWrite p a vs) s = .next (s.setDyn
      (cmdDone p 0xC011 [] (journalNote (csrWrites s.cfg p a (vs.map fun v => v.toNat) (mgmtOn s.dyn)))))) ∧
  (∀ (s : State) (p : Sys2Proof.Path) (t : Dword) (flash : Bool) (d : Dyn) (l : List Ev), served s p (.events t.toNat flash) = true →
    d = mgmtOn s.dyn → l = (if flash then d.hlth.elog else d.ev).filter (fun e => decide (t.toNat ≤ e.ts)) →
    exec (.eventRead p t flash) s = .next (s.setDyn (cmdDone p 0xC020 (evPayload 1023 (match pathHost p with
      | some h => l.filter (evFor s.cfg d h)
      | none => l)) d))) ∧
  (∀ (s : State) (p : Sys2Proof.Path), served s p .fmSwitch = true →
    exec (.identifySwitchDevice p) s = .next (s.setDyn (cmdDone p 0x5100 (switchWords s.cfg (mgmtOn s.dyn)) (mgmtOn s.dyn)))) ∧
  (∀ (s : State) (p : Sys2Proof.Path) (lp : Lport), served s p (.fmPort lp) = true →
    fcfFar s.cfg (mgmtOn s.dyn) p lp = false →
    exec (.getPhysicalPortState p lp) s = .next (s.setDyn (cmdDone p 0x5101 (portWords s.cfg (mgmtOn s.dyn) lp) (mgmtOn s.dyn)))) ∧
  (∀ (s : State) (p : Sys2Proof.Path) (v : Host), served s p (.fmVcs v) = true → fcfOther p (some v.val) = false →
    exec (.getVirtualCxlSwitchInfo p v) s = .next (s.setDyn (cmdDone p 0x5200 (vcsWords s.cfg (mgmtOn s.dyn) v) (mgmtOn s.dyn)))) ∧
  (∀ (s : State) (p : Sys2Proof.Path) (op : Fin 65536), served s p (.fmOther op) = true →
    exec (.fmUnsupported p op) s = .next (s.setDyn (fmNo p op (mgmtOn s.dyn)))) ∧
  (∀ (s : State) (die : Die) (x : Fin 128), cg s.cfg .mgmtPathCtlI3cEn die ≠ 0 →
    exec (.i3cDynamicAddress die (some x)) s =
      .next (s.setDyn (put .mgmtPathStsI3cDaV die 1 (put .mgmtPathStsI3cDa die x s.dyn))) ∧
    exec (.i3cDynamicAddress die none) s = .next (s.setDyn (sessEnd (.i3c die)
      (put .mgmtPathStsI3cDaV die 0 (put .mgmtPathStsI3cDa die 0 s.dyn)))))

/-- A path that is closed, a session without the version, and a queue of 32 turn commands away (R510, R512, R513, R517). -/
def Obligations.CommandsTurnedAwayByAPath : Prop :=
  (∀ (s : State) (p : Sys2Proof.Path), mctpStray s.cfg p = true →
    exec (.identify p) s = .next (s.setDyn (bump .mgmtCmdCntRefused (leadOr0 s.dyn) 1 s.dyn))) ∧
  (∀ (s : State) (p : Sys2Proof.Path), mctpStray s.cfg p = false → pathOpen s.cfg s.dyn p = false → exec (.identify p) s = .next s) ∧
  (∀ (s : State) (p : Sys2Proof.Path), mctpStray s.cfg p = false → pathOpen s.cfg s.dyn p = true → s.dyn.mgmt.moving = true →
    32 ≤ s.dyn.mgmt.held.length → exec (.identify p) s = .next (s.setDyn (mgmtReply p 0xC001 rcBusy 0 [] (mgmtOn s.dyn)))) ∧
  (∀ (s : State) (p : Sys2Proof.Path) (a n : Nat), mctpStray s.cfg p = false → pathOpen s.cfg s.dyn p = true →
    cmdWaits s.cfg (mgmtOn s.dyn) (.csrRead a n true) = false → sessOf s.dyn p = 1 → exec (.csrRead p a n true) s = .next (s.setDyn
      (mgmtReply p 0xC010 rcUnsupported 0 [] (bump .mgmtCmdCntRefused (leadOr0 (mgmtOn s.dyn)) 1 (mgmtOn s.dyn))))) ∧
  (∀ (s : State) (h : Host) (a n : Nat) (peek : Bool), pathOpen s.cfg s.dyn (.fcf h) = true →
    cmdWaits s.cfg (mgmtOn s.dyn) (.csrRead a n peek) = false → exec (.csrRead (.fcf h) a n peek) s = .next (s.setDyn
      (mgmtReply (.fcf h) 0xC010 rcUnsupported 0 [] (bump .mgmtCmdCntRefused (leadOr0 (mgmtOn s.dyn)) 1 (mgmtOn s.dyn))))) ∧
  (∀ (s : State) (p : Sys2Proof.Path), inRecovery s.dyn = true → pathOpen s.cfg s.dyn p = false)

/-- NVM records, amendments, image transfer and firmware activation complete (R447, R449, R456, R457, R462, R463, R517, R518). -/
def Obligations.AmendmentAndImageCommandsComplete : Prop :=
  (∀ (s : State) (r : NvRec) (t : List NvRec), s.dyn.boot.nvq = r :: t → (flashSource s.dyn).isNone = false →
    (s.dyn.boot.nvBegun = true ∨ nvHeld s.dyn = false) →
    exec .nvmRecordWrite s = .next (s.setDyn (nvBegin (nvCommit r { s.dyn with boot := { s.dyn.boot with nvq := t } })))) ∧
  (∀ (s : State) (p : Sys2Proof.Path) (a : Amendment) (d : Dyn), served s p (.submit a) = true → d = mgmtOn s.dyn →
    rd d .nvmSagStsSag 0 ≠ 1 → d.boot.amdq.length < 32 → d.mgmt.bg.contains p = false →
    exec (.amendSubmit p a) s = .next (s.setDyn (amdSubmit s.cfg a (.path p) (mgmtReply p 0xC030 1 0 []
      { d with mgmt := { d.mgmt with bg := d.mgmt.bg ++ [p] } })))) ∧
  (∀ (s : State) (r : AmdRun) (x : Cfg × Dyn) (d e : Dyn), s.dyn.boot.amd = some r → r.phase = 3 → x = amdApply r.amd (s.cfg, s.dyn) →
    d = amdAnswer x.1 r none (arbFree r.act (put .secAmdStsBusy 0 0 { x.2 with boot := { x.2.boot with amd := none } })) →
    e = amdNext x.1 (d.boot.amdq.length + 1) d →
    exec .amendmentApply s = .next { s with cfg := x.1, dyn := heldRun x.1 (serveGrants x.1 e) }) ∧
  (∀ (s : State) (p : Sys2Proof.Path) (d : Dyn), served s p .xferStart = true → d = journalNote (mgmtOn s.dyn) →
    (flashSource d).isNone = false → d.boot.fw = none →
    exec (.imgXferStart p) s = .next (s.setDyn (cmdDone p 0xC040 [] (put .secFwStsStagedOk 0 0 (put .secFwStsState 0 0
      { d with boot := { d.boot with xfer := some ⟨otherSlot d, 0⟩, staged := none } }))))) ∧
  (∀ (s : State) (p : Sys2Proof.Path) (off len k : Nat) (x : Xfer) (f : FlashIn) (d : Dyn), served s p (.xferData off len) = true →
    d = journalNote (mgmtOn s.dyn) → rd d .nvmSagStsSag 0 ≠ 1 → d.boot.xfer = some x → 1 ≤ len → len ≤ 4064 → off + len ≤ 25165824 →
    flashSource d = some k → d.boot.flash[k]? = some f →
    exec (.imgXferData p off len) s = .next (s.setDyn (cmdDone p 0xC041 [] (slotWrite x.slotB
      { slotImage f x.slotB with headerGood := false } { d with boot := { d.boot with
        xfer := some { x with upto := if off ≤ x.upto then max x.upto (off + len) else x.upto } } })))) ∧
  (∀ (s : State) (p : Sys2Proof.Path) (m : Image) (x : Xfer) (d e : Dyn), served s p (.xferEnd m) = true →
    (mgmtOn s.dyn).mgmt.bg.contains p = false →
    d = journalNote (mgmtOn s.dyn) → rd d .nvmSagStsSag 0 ≠ 1 → d.boot.xfer = some x → (flashSource d).isNone = false →
    e = slotWrite x.slotB m { d with boot := { d.boot with xfer := none } } → m.bodyLen + 5361 ≤ x.upto → imgGood e m = true →
    rd e .secImgSeqSeq 0 < m.seq →
    exec (.imgXferEnd p m) s = .next (s.setDyn (cmdDone p 0xC042 [] (put .secFwStsStagedOk 0 1 (put .secFwStsState 0 1
      { e with boot := { e.boot with staged := some (m, x.slotB) } }))))) ∧
  (∀ (s : State) (p : Sys2Proof.Path) (d : Dyn), served s p .activate = true → d = mgmtOn s.dyn → d.boot.fw = none →
    d.mgmt.bg.contains p = false →
    exec (.activate p) s = .next (s.setDyn (fwGranted (fwAsk s.cfg p (journalNote (mgmtReply p 0xC043 1 0 []
      { d with mgmt := { d.mgmt with bg := d.mgmt.bg ++ [p] } })))))) ∧
  (∀ (s : State) (f : FwRun) (k : Nat) (d : Dyn), s.dyn.boot.fw = some f → f.step = 1 → fwPaused s.dyn = false → standbyDie s.dyn = some k →
    d = { s.dyn with mgmt := { s.dyn.mgmt with moving := true } } →
    exec .standbyFwStart s = .next (s.setDyn (fwSet (some { f with step := 2 }) (put .secFwStsState 0 3 (fwLoad k d))))) ∧
  (∀ (s : State) (f : FwRun) (k : Nat) (d e h : Dyn), s.dyn.boot.fw = some f → f.step = 2 → 
    d = { s.dyn with mgmt := { s.dyn.mgmt with moving := false } } → standbyDie d = some k →
    e = put .secFwStsNewLead 0 k (put .secFwStsState 0 4 (setStandby s.cfg k (setLead k d))) →
    h = { e with hlth := { e.hlth with hbLead := e.now, hbWord := e.now, hbAns := e.now } } →
    exec .leadHandover s = .next (s.setDyn (heldRun s.cfg (fwNext
      (fwSet (some { f with step := 3, todo := fwOthers h k (leadOr0 s.dyn) }) h))))) ∧
  (∀ (s : State) (f : FwRun) (k j : Die) (t : List Nat) (d : Dyn), s.dyn.boot.fw = some f → f.step = 3 → fwPaused s.dyn = false →
    f.todo = k.val :: j.val :: t → d = fwNext (fwSet (some { f with todo := j.val :: t }) (fwLoad k s.dyn)) →
    exec (.dieFwReload k) s = .next (s.setDyn (heldRun s.cfg (serveGrants s.cfg d)))) ∧
  (∀ (s : State) (f : FwRun) (k : Die) (x : Cfg × Dyn), s.dyn.boot.fw = some f → f.step = 3 → fwPaused s.dyn = false →
    f.todo = [k.val] → x = fwEnd { f with todo := [] } (s.cfg, fwLoad k s.dyn) →
    exec (.dieFwReload k) s = .next { s with cfg := x.1, dyn := heldRun x.1 (serveGrants x.1 x.2) })

/-- QUAR_RESTORE, QUAR_RECLAIM, DRAIN_COMPLETE, SAG_ENTER and _EXIT, SPDM_REQUEST and GET_HYBRID_SIG and _CERT complete (R213, R217, R218, R219, R465, R467, R468, R469). -/
def Obligations.LateReleaseAndQuarantineCommandsComplete : Prop :=
  (∀ (s : State) (p : Sys2Proof.Path) (h : Host), served s p (.quar h true) = true → hostState (mgmtOn s.dyn) h = 2 →
    exec (.quarRestore p h) s = .next (s.setDyn (cmdDone p 0xC050 [] (restoreHost s.cfg h (journalNote (mgmtOn s.dyn)))))) ∧
  (∀ (s : State) (p : Sys2Proof.Path) (h : Host), served s p (.quar h false) = true → hostState (mgmtOn s.dyn) h = 2 →
    exec (.quarReclaim p h) s = .next (s.setDyn (cmdDone p 0xC051 [] (reclaimHost s.cfg h (journalNote (mgmtOn s.dyn)))))) ∧
  (∀ (s : State) (p : Sys2Proof.Path) (h : Host), served s p (.quar h true) = true → hostState (mgmtOn s.dyn) h ≠ 2 →
    exec (.quarRestore p h) s = .next (s.setDyn (cmdRefuse p 0xC050 rcInvalid 0 (mgmtOn s.dyn))) ∧
    exec (.quarReclaim p h) s = .next (s.setDyn (cmdRefuse p 0xC051 rcInvalid 0 (mgmtOn s.dyn)))) ∧
  (∀ (s : State) (b : Dev) (lp ld : Nat) (d e : Dyn), s.dyn.alloc.drains.contains b.val = true → devInUse s.dyn b = false →
    lp = rd s.dyn .xltBedevLport b → ld = rd s.dyn .xltBedevLdId b → d = put .xltBedevV b 0 (devLeave b s.dyn) →
    e = boundView s.cfg lp (journalNote { d with alloc := { d.alloc with drains := d.alloc.drains.filter fun x => x != b.val } }) →
    exec (.drainComplete b) s = .next (s.setDyn (match e.alloc.bindLater.find? fun x => x.1 == lp && x.2.1 == ld with
      | some x => rebindLd s.cfg lp ld x.2.2 { e with alloc := { e.alloc with bindLater := dropOne x e.alloc.bindLater } }
      | none => e))) ∧
  (∀ (s : State) (vin : Fin 1024) (low railLow : Bool) (d : Dyn), low = decide (vin.val < sagLevel s.cfg) → (low || railLow) = true →
    rd s.dyn .nvmSagStsSag 0 = 0 →
    d = put .nvmSagStsSag 0 1 (put .nvmSagStsVinLow 0 (b2n low) (put .nvmSagStsRailLow 0 (b2n railLow) s.dyn)) →
    exec (.sagEnter vin railLow) s = .next (s.setDyn (forAll (List.range 64) (fun i d => migAbort s.cfg i 6 d)
      (raise 0x0B0B (leadOr0 d) [b2n low, b2n railLow] d)))) ∧
  (∀ (s : State) (vin : Fin 1024) (d : Dyn), rd s.dyn .nvmSagStsSag 0 ≠ 0 → sagLevel s.cfg + 5 ≤ vin.val →
    d = put .nvmSagStsSag 0 0 (put .nvmSagStsVinLow 0 0 (put .nvmSagStsRailLow 0 0 s.dyn)) →
    exec (.sagExit vin) s = .next (s.setDyn (slotsResume s.cfg (serveGrants s.cfg (arbScan (amdAsk s.cfg
      (nvBegin (raise 0x0B0C (leadOr0 d) [] d)))))))) ∧
  (∀ (s : State) (h : Host) (lp : Nat) (q : SpdmReq) (param : Fin 256) (sign : Bool) (l : List Nat) (d : Dyn), hostUp s.cfg s.dyn h = true →
    hostPort s.cfg s.dyn h = some lp → q ≠ .other → q ≠ .vendorDefined → (∀ m, q ≠ .ideKm m) →
    (param = 0 ∨ q ≠ .getCertificate ∧ q ≠ .challenge ∧ q ≠ .keyExchange) → (q = .getMeasurements → (measured s.dyn param).isNone = false) →
    l = (if spdmExtends q then s.dyn.boot.signed.filter fun x => x != h.val else s.dyn.boot.signed) →
    d = { s.dyn with boot := { s.dyn.boot with
      signed := if q == .challenge || q == .keyExchange || (q == .getMeasurements && sign) then l ++ [h.val] else l } } →
    exec (.spdmRequest h q param sign) s = .next (s.setDyn
      (emit (.spdm lp 1 (if q == .getMeasurements then (measured d param).getD [] else spdmArgs q)) d))) ∧
  (∀ (s : State) (h : Host) (lp : Nat) (q : SpdmReq) (param : Fin 256) (sign : Bool), hostUp s.cfg s.dyn h = true →
    hostPort s.cfg s.dyn h = some lp → (q = .other ∨ q = .vendorDefined ∨ param ≠ 0 ∧ (q = .getCertificate ∨ q = .challenge ∨ q = .keyExchange) ∨
      q = .getMeasurements ∧ (measured s.dyn param).isNone = true) →
    exec (.spdmRequest h q param sign) s = .next (s.setDyn (emit (.spdm lp 0 []) s.dyn))) ∧
  (∀ (s : State) (h : Host) (lp : Nat) (m : IdeKm) (param : Fin 256) (sign : Bool), hostUp s.cfg s.dyn h = true →
    hostPort s.cfg s.dyn h = some lp → exec (.spdmRequest h (.ideKm m) param sign) s = .next (s.setDyn (ideServe lp m s.dyn))) ∧
  (∀ (s : State) (h : Host) (lp : Nat), hostUp s.cfg s.dyn h = true → hostPort s.cfg s.dyn h = some lp →
    exec (.getHybridSig h) s = .next (s.setDyn (emit (.spdm lp (if s.dyn.boot.signed.contains h.val then 2 else 0) [1]) s.dyn)) ∧
    exec (.getHybridCert h) s = .next (s.setDyn (emit (.spdm lp 2 [2]) s.dyn)))

/-- PHY_ENABLE and _DISABLE, training, LPBK_CTL_WRITE and LPBK_EXIT of a GnokuLink endpoint complete (R364, R365, R366, R367, R368, R369). -/
def Obligations.LinkTrainingCommandsComplete : Prop :=
  (∀ (s : State) (n : Ep), phySt s.dyn n = 0 → rd s.dyn .gklPhyCtlEn n = 0 →
    exec (.phyEnable n) s = .next (s.setDyn (phyTrain n (put .gklPhyStsFailWhy n 0
      (gklMod n (fun x => { x with tries := 0, failAt := none }) (put .gklPhyCtlEn n 1 s.dyn)))))) ∧
  (∀ (s : State) (n : Ep) (d : Dyn), d = swapEnd n 3 (lnkDown n 7 (put .gklPhyCtlEn n 0 s.dyn)) →
    exec (.phyDisable n) s = .next (s.setDyn (if phySt d n = 0 then d else emit (.gklPhy n 0 0 0) (put .gklPhyStsState n 0 d)))) ∧
  (∀ (s : State) (n : Ep) (lane : Fin 180) (locked lpbk inv : Bool) (id : Fin 256) (fit : Bool × Bool) (x : GklEp) (d e : Dyn),
    phySt s.dyn n = 1 → x = gklGet s.dyn n → x.backAt = none → lane.val < gklLanes n → lane.val % 18 ≠ 16 →
    laneFit n lane id = some fit → laneAgrees s.dyn n lane fit = true →
    d = put .gklPhyStsGrpRev n (b2n fit.2) (if lane.val % 18 < 16 then putBit .gklPhyStsRev n (lane / 18) fit.1 s.dyn else s.dyn) →
    e = (if (cellsFind lane.val x.ids.cells).isNone && inv then put .gklPhyStsPol n (rd d .gklPhyStsPol n + 1) d else d) →
    exec (.trainingBlock n lane (if gklIsP n then 2 else 1) locked lpbk id true inv) s = .next (s.setDyn (endReady n (gklSet n { x with
      ids := ⟨cellsPut lane id.val (cellsDrop lane x.ids.cells)⟩, badBlk := aset 0 x.badBlk lane 0,
      goodBlk := aset 0 x.goodBlk lane (if locked then min 8 (aget 0 x.goodBlk lane + 1) else 0), lpbkRx := lpbk } e)))) ∧
  (∀ (s : State) (n : Ep) (lane : Fin 180) (var : Fin 16) (locked lpbk inv : Bool) (id : Fin 256) (k : Nat) (d : Dyn),
    phySt s.dyn n = 1 → (gklGet s.dyn n).backAt = none → lane.val < gklLanes n → lane.val % 18 ≠ 16 →
    k = aget 0 (gklGet s.dyn n).badBlk lane + 1 →
    d = gklMod n (fun x => { x with badBlk := aset 0 x.badBlk lane k, goodBlk := aset 0 x.goodBlk lane 0 }) s.dyn →
    exec (.trainingBlock n lane var locked lpbk id false inv) s = .next (s.setDyn (if 8 ≤ k then trainFail n 2 d else d))) ∧
  (∀ (s : State) (n : Ep), phySt s.dyn n = 1 → (gklGet s.dyn n).backAt = none →
    exec (.receiverLocked n) s = .next (s.setDyn (endReady n (phySay n 2 0 0
      (gklMod n (fun x => { x with locked := true }) s.dyn))))) ∧
  (∀ (s : State) (n : Ep) (x : GklEp), phySt s.dyn n = 1 → x = gklGet s.dyn n → x.backAt = none → x.locked = true →
    allLocked s.dyn n = true → exec (.endBlock n) s = .next (s.setDyn
      (if rd s.dyn .gklLpbkCtlMode n = 1 ∨ rd s.dyn .gklLpbkCtlMode n = 2 then put .gklPhyStsState n 5 (gklSet n { x with tries := 0 } s.dyn)
      else if x.lpbkRx = true then put .gklPhyStsState n 5
        (gklSet n { x with tries := 0, looping := rd s.dyn .gklLpbkCtlMode n == 0 } s.dyn)
      else phyActive s.cfg n (if rd s.dyn .gklLpbkCtlMode n = 3 then put .gklLpbkCtlRefused n 1 s.dyn else s.dyn)))) ∧
  (∀ (s : State) (n : Ep), phySt s.dyn n = 1 → (gklGet s.dyn n).backAt = none →
    (gklGet s.dyn n).trainAt + trainTmo s.cfg n ≤ s.dyn.now →
    exec (.trainTimeout n) s = .next (s.setDyn (trainFail n 1 s.dyn))) ∧
  (∀ (s : State) (n : Ep) (t : Nat), phySt s.dyn n = 1 → (gklGet s.dyn n).backAt = some t → t + 10000 ≤ s.dyn.now →
    exec (.trainBackoff n) s = .next (s.setDyn (phyTrain n s.dyn))) ∧
  (∀ (s : State) (n : Ep) (mode : Fin 4) (d : Dyn), d = put .gklLpbkCtlRefused n 0 (put .gklLpbkCtlMode n mode s.dyn) →
    exec (.lpbkCtlWrite n mode) s = .next (s.setDyn (if mode.val ≠ 0 ∧ phySt d n = 2 then phyTrain n (lnkDown n 1 d)
      else if mode.val = 0 ∧ phySt d n = 5 then phyTrain n d else d))) ∧
  (∀ (s : State) (n : Ep), phySt s.dyn n = 5 → (gklGet s.dyn n).looping = true →
    exec (.lpbkExit n) s = .next (s.setDyn (phyTrain n s.dyn)))

/-- EXIT_BURST, WAKE_PATTERN, WAKE_UNANSWERED, the SWAP commands and LANE_FAILED complete (R370, R371, R372). -/
def Obligations.LinkIdleAndSpareCommandsComplete : Prop :=
  (∀ (s : State) (n : Ep), phySt s.dyn n = 3 →
    exec (.exitBurst n) s = .next (s.setDyn (leaveIdle n (phySay n 4 0 0 s.dyn))) ∧
    exec (.wakePattern n) s = .next (s.setDyn (leaveIdle n (phySay n 4 0 0 s.dyn)))) ∧
  (∀ (s : State) (n : Ep), phySt s.dyn n = 4 →
    exec (.wakePattern n) s = .next (s.setDyn (emit (.wake (2000 + gklRegion n)) s.dyn))) ∧
  (∀ (s : State) (n : Ep) (x : GklEp), phySt s.dyn n = 3 → x = gklGet s.dyn n → x.wakes ≠ 0 → x.wakeAt + 100000 ≤ s.dyn.now →
    exec (.wakeUnanswered n) s = .next (s.setDyn
      (if x.wakes < 10 then phySay n 5 0 0 (gklSet n { x with wakes := x.wakes + 1, wakeAt := s.dyn.now } s.dyn)
      else lnkDown n 1 (raise 0x0806 (gklDie n) [n] (put .gklPhyStsFailWhy n 3 (put .gklPhyStsState n 6 s.dyn)))))) ∧
  (∀ (s : State) (n : Ep) (grp pos : Fin 16) (d : Dyn), d = put .gklSwapCmdPos n pos (put .gklSwapCmdGrp n grp s.dyn) →
    (gklGet d n).swap = none → grp.val < gklGroups n → spareUsed d n grp = false → bitAt (spareBits d n grp) 4 = false →
    (gklGet d n).lost.contains (18 * grp.val + 17) = false →
    exec (.swapGo n grp pos) s = .next (s.setDyn (swapStart n (gklMod n
      (fun x => { x with swap := some ⟨grp, pos, false, false,
        (arbAsk { actReq 3 [] (gklEnds n) with ep := n } n (put .gklSwapCmdResult n 0 d)).1⟩ })
      (arbAsk { actReq 3 [] (gklEnds n) with ep := n } n (put .gklSwapCmdResult n 0 d)).2)))) ∧
  (∀ (s : State) (n : Ep) (grp pos : Fin 16) (d : Dyn), d = put .gklSwapCmdPos n pos (put .gklSwapCmdGrp n grp s.dyn) →
    (gklGet d n).swap = none → (gklGroups n ≤ grp.val ∨ spareUsed d n grp = true) →
    exec (.swapGo n grp pos) s = .next (s.setDyn (put .gklSwapCmdResult n 3 d))) ∧
  (∀ (s : State) (n : Ep) (grp pos : Fin 16), phySt s.dyn n = 2 → grp.val < gklGroups n → spareUsed s.dyn n grp = false →
    exec (.swapReady n grp pos) s = .next (s.setDyn (if (gklGet s.dyn n).lost.contains (18 * grp.val + pos.val) then
      gklSay n (bypSwap 2 grp pos) 1 (spareTake n grp pos s.dyn)
      else gklMod n (fun x => { x with cmp := some (grp.val, pos.val) }) s.dyn))) ∧
  (∀ (s : State) (n : Ep) (same : Bool) (w : Nat × Nat) (d : Dyn), (gklGet s.dyn n).cmp = some w →
    d = gklMod n (fun x => { x with cmp := none }) s.dyn →
    exec (.swapCompareDone n same) s = .next (s.setDyn (if same then gklSay n (bypSwap 2 w.1 w.2) 1 (spareTake n w.1 w.2 d)
      else gklSay n (bypSwap 3 w.1 w.2) 1 d))) ∧
  (∀ (s : State) (n : Ep) (grp pos : Fin 16) (w : Swap), (gklGet s.dyn n).swap = some w → w.told = true → w.grp = grp → w.pos = pos →
    exec (.swapDone n grp pos) s = .next (s.setDyn (swapEnd n 1 (phySay n 7 grp pos
      (gklMod n (fun x => { x with txSpare := aset 0 x.txSpare grp (pos + 1) }) s.dyn)))) ∧
    exec (.swapFail n grp pos) s = .next (s.setDyn (swapEnd n 2 (phySay n 8 grp 0 s.dyn)))) ∧
  (∀ (s : State) (n : Ep) (lane : Fin 180), exec (.laneFailed n lane) s = .next (s.setDyn (laneFail n lane s.dyn)))

/-- DATA_FLIT, SHORT_FLIT, REPLAY_TIMEOUT, NAK and the commands of selective mode complete (R376, R383, R384, R386, R387, R388, R389, R390). -/
def Obligations.FlitCommandsComplete : Prop :=
  (∀ (s : State) (n : Ep) (f : GFlit) (d e : Dyn) (ahead : Nat), phySt s.dyn n = 2 → 2 ≤ lnkSt s.dyn n → f.corr = [] → f.crcOk = true →
    d = bump .gklLnkFecCorr n 0 s.dyn → e = takeWord s.cfg n f.byp (takeAck n f.ack d) → 2 ≤ lnkSt e n →
    ahead = mod12 f.seq (rd e .gklLnkStsNes n) →
    exec (.dataFlit n f) s = .next (s.setDyn
      (if ahead = 0 then (if rd (drainHeld s.cfg n 64 (acceptFlit s.cfg n f e)) .gklLnkStsRxSel n = 1
        then nameGap n (drainHeld s.cfg n 64 (acceptFlit s.cfg n f e)) else drainHeld s.cfg n 64 (acceptFlit s.cfg n f e))
      else if 2048 ≤ ahead then bump .gklLnkErr2Dup n 1 e
      else if rd e .gklLnkStsRxSel n = 1 ∧ ahead ≤ 64 ∧ (gklGet e n).held.length < 64 ∧ ((gklGet e n).held.any fun h => h.seq == f.seq) = false
      then nameGap n (gklMod n (fun x => { x with held := x.held ++ [f] }) e) else e))) ∧
  (∀ (s : State) (n : Ep) (f : GFlit), phySt s.dyn n = 2 → 2 ≤ lnkSt s.dyn n → f.corr = [] → f.crcOk = false →
    exec (.dataFlit n f) s = .next (s.setDyn (badFlit s.cfg n (bump .gklLnkFecCorr n 0 s.dyn)))) ∧
  (∀ (s : State) (n : Ep) (ack : Fin 4096) (ws : List Word), phySt s.dyn n = 2 →
    exec (.shortFlit n ack ws true) s = .next (s.setDyn (forAll (ws.take 6) (fun w d => takeWord s.cfg n w d)
      (if lnkSt s.dyn n = 3 then takeAck n ack s.dyn else s.dyn)))) ∧
  (∀ (s : State) (n : Ep) (x : GklEp) (f : TxFlit) (t : List TxFlit) (k : Nat) (d : Dyn), x = gklGet s.dyn n →
    x.replay = f :: t → lnkSt s.dyn n = 3 → x.timer + (if gklIsP n then 2000 else 200) ≤ s.dyn.now →
    k = (if x.expSeq = f.seq ∧ x.exps ≠ 0 then x.exps + 1 else 1) →
    d = resendFlits n x.replay (gklSet n { x with exps := k, expSeq := f.seq } s.dyn) →
    exec (.replayTimeout n) s = .next (s.setDyn (if 32 ≤ k then lnkDown n 2 d else d))) ∧
  (∀ (s : State) (n : Ep) (first : Fin 4096) (count : Fin 65) (l : List TxFlit), rd s.dyn .gklLnkStsTxSel n ≠ 0 →
    l = (gklGet s.dyn n).replay.filter (fun f => decide (mod12 f.seq first < count.val)) → l ≠ [] →
    exec (.nak n first count) s = .next (s.setDyn (resendFlits n l s.dyn))) ∧
  (∀ (s : State) (n : Ep) (f c t : Nat), (gklGet s.dyn n).nak = some (f, c, t) → rd s.dyn .gklLnkStsRxSel n = 1 →
    t + 4 * (gklGet s.dyn n).lat ≤ s.dyn.now → exec (.nakRepeat n) s = .next (s.setDyn (sendNak n f c s.dyn))) ∧
  (∀ (s : State) (n : Ep) (d : Dyn), rd s.dyn .gklLnkStsMinor n = 1 → cg s.cfg .gklLnkCtlSelEn n = 1 →
    d = gklSay n (bypMode 1) 1 (put .gklLnkStsTxSel n 1 s.dyn) →
    exec (.reqSel n) s = .next (s.setDyn (if rd s.dyn .gklLnkStsTxSel n = 0 then raise 0x0814 (gklDie n) [n] d else d))) ∧
  (∀ (s : State) (n : Ep) (t : Nat), rd s.dyn .gklLnkStsMinor n = 1 → (gklGet s.dyn n).mode = some (0, t) →
    exec (.ackSel n) s = .next (s.setDyn (put .gklLnkStsRxSel n 1 (gklMod n (fun x => { x with mode := none }) s.dyn)))) ∧
  (∀ (s : State) (n : Ep), rd s.dyn .gklLnkStsMinor n = 1 →
    exec (.reqGbn n) s = .next (s.setDyn (gklSay n (bypMode 3) 1 (put .gklLnkStsTxSel n 0 s.dyn)))) ∧
  (∀ (s : State) (n : Ep) (t : Nat), rd s.dyn .gklLnkStsMinor n = 1 → (gklGet s.dyn n).mode = some (2, t) →
    exec (.ackGbn n) s = .next (s.setDyn (raise 0x0815 (gklDie n) [n] (put .gklLnkStsRxSel n 0
      (gklMod n (fun x => { x with mode := none, nak := none }) s.dyn))))) ∧
  (∀ (s : State) (n : Ep), rd s.dyn .gklLnkStsRxSel n = 1 → (gklGet s.dyn n).held = [] → (gklGet s.dyn n).mode = none →
    (gklGet s.dyn n).lastEv + 1000000 ≤ s.dyn.now → exec (.selectiveQuiet n) s = .next (s.setDyn (askMode n 2 s.dyn))) ∧
  (∀ (s : State) (n : Ep) (op t : Nat), (gklGet s.dyn n).mode = some (op, t) → lnkSt s.dyn n = 3 → t + 1000 ≤ s.dyn.now →
    exec (.modeRepeat n) s = .next (s.setDyn (askMode n op s.dyn)))

/-- CREDIT, CREDIT_REFRESH, CAP, INIT_TIMEOUT, DOWN and the idle commands complete (R370, R380, R381, R392, R393, R394). -/
def Obligations.LinkStateCommandsComplete : Prop :=
  (∀ (s : State) (n : Ep) (tc : Fin 8) (h dc : Fin 4096) (x : GklEp) (d : Dyn), x = gklGet s.dyn n → 3 ≤ lnkSt s.dyn n →
    d = gklSet n { x with limit := aset 0 (aset 0 x.limit tc h.val) (8 + tc) dc.val, crdSeen := bitSet x.crdSeen tc } s.dyn →
    exec (.credit n tc h dc) s = .next (s.setDyn (gklPump n d))) ∧
  (∀ (s : State) (n : Ep) (tc : Fin 8) (h dc : Fin 4096) (x : GklEp) (d e : Dyn), x = gklGet s.dyn n → lnkSt s.dyn n = 2 →
    bitSet x.crdSeen tc = 255 →
    d = gklSet n { x with limit := aset 0 (aset 0 x.limit tc h.val) (8 + tc) dc.val, crdSeen := 255 } s.dyn →
    e = raise 0x0810 (gklDie n) [n] (gklMod n (fun x => { x with lastTx := d.now, crdAt := d.now })
      (put .gklLnkSeqTxNext n 0 (put .gklLnkSeqTxAcked n 0 (put .gklLnkStsState n 3 d)))) →
    exec (.credit n tc h dc) s = .next (s.setDyn (gklPump n
      (if gklIsP n then sayHello s.cfg n e else linkReturn (gklLink n).1 (gklLink n).2 e)))) ∧
  (∀ (s : State) (n : Ep), lnkSt s.dyn n = 3 → phySt s.dyn n = 2 →
    exec (.creditRefresh n) s = .next (s.setDyn (sendCredits n (gklMod n (fun x => { x with crdAt := s.dyn.now }) s.dyn)))) ∧
  (∀ (s : State) (n : Ep) (minor : Fin 16) (kind : Fin 4) (pkg : Fin 8) (v : Nat) (d : Dyn), lnkSt s.dyn n = 1 →
    kind.val = b2n (gklIsP n) + 1 → (gklIsP n = false ∨ pkg.val ≠ rd s.dyn .dieDieIdPkgId 0) →
    v = min (min 1 (cg s.cfg .gklLnkCtlMaxminor n)) minor →
    d = gklMod n (fun x => { x with lat := s.dyn.now - x.initAt }) (put .gklLnkStsNes n 0 (put .gklLnkStsMinor n v
      (put .gklLnkStsMajor n 1 (put .gklLnkStsState n 2 s.dyn)))) →
    exec (.cap n 1 minor kind pkg) s = .next (s.setDyn (sendCredits n (if v = 0 then raise 0x0812 (gklDie n) [n] d else d)))) ∧
  (∀ (s : State) (n : Ep) (major minor : Fin 16) (kind : Fin 4) (pkg : Fin 8), lnkSt s.dyn n = 1 →
    (major.val ≠ 1 ∨ kind.val ≠ b2n (gklIsP n) + 1) →
    exec (.cap n major minor kind pkg) s = .next (s.setDyn (lnkDown n 5 (raise 0x0813 (gklDie n) [n] s.dyn)))) ∧
  (∀ (s : State) (n : Ep), (lnkSt s.dyn n = 1 ∨ lnkSt s.dyn n = 2) → (gklGet s.dyn n).initAt + 10000 ≤ s.dyn.now →
    exec (.initTimeout n) s = .next (s.setDyn (lnkDown n 6 s.dyn))) ∧
  (∀ (s : State) (n : Ep) (why : Fin 16), exec (.down n why) s = .next (s.setDyn (lnkDown n why s.dyn))) ∧
  (∀ (s : State) (n : Ep), mayIdle s.cfg s.dyn n = true →
    exec (.idleTimer n) s = .next (s.setDyn (gklSay n (bypPwr 1) 1 (gklMod n (fun x => { x with idle := true }) s.dyn)))) ∧
  (∀ (s : State) (n : Ep), lnkSt s.dyn n = 3 → phySt s.dyn n = 2 →
    exec (.idleReq n) s = .next (s.setDyn (if (gklGet s.dyn n).idle = true then enterIdle n s.dyn
      else if mayIdle s.cfg s.dyn n = true then enterIdle n (gklSay n (bypPwr 2) 1 s.dyn) else gklSay n (bypPwr 3) 1 s.dyn)) ∧
    exec (.idleAck n) s = .next (s.setDyn (if (gklGet s.dyn n).idle = true then enterIdle n s.dyn else s.dyn)) ∧
    exec (.idleNak n) s = .next (s.setDyn (gklMod n (fun x => { x with idle := false }) s.dyn)))

/-- CLOCK_GATE, POWER_REQUEST, POWER_ANSWER and the other power commands complete (R404, R405, R406, R407, R408, R411, R412). -/
def Obligations.PowerCommandsComplete : Prop :=
  (∀ (s : State) (u : GateUnit) (n j : Nat) (d : Dyn), n = gateNo u → j = unitDom n → gated s.dyn n = false → domPwr s.dyn j = 0 →
    rd s.dyn .pwrDomStsFail j ≠ 1 → unitBusy s.dyn n = false → dpLive s.cfg s.dyn n = false →
    d = pwrSet j { pwrGet s.dyn j with workAt := s.dyn.now } { s.dyn with elec := { s.dyn.elec with gated := s.dyn.elec.gated ++ [n] } } →
    exec (.clockGate u) s = .next (s.setDyn (forAll (j :: domAbove j) (fun x d =>
      if rd d .pwrDomStsState x = 0 ∧ (domUnits x).all (fun v => gated d v || decide (2 ≤ domPwr d (unitDom v)))
      then put .pwrDomStsState x 1 d else d) d))) ∧
  (∀ (s : State) (j : Fin 92) (clear : Bool) (t : Nat) (x : PwrDom), t = (if clear then 3 else 2) → mayAsk s.cfg s.dyn j t = true →
    x = { pwrGet s.dyn j with target := t, rounds := 0, accepts := preAccept s.dyn j, delayed := [], delay := 0, reqAt := s.dyn.now, from0 := rd s.dyn .pwrDomStsState j } →
    exec (.powerRequest j clear) s = .next (s.setDyn (forAll (domPriv j) (fun e d => epClose s.cfg e d)
      (emit (.pwrReq j t) (put .pwrDomStsState j 4 (pwrSet j x s.dyn)))))) ∧
  (∀ (s : State) (j : Fin 92) (blk : Nat) (b : PBlk) (x : PwrDom), x = pwrGet s.dyn j → (domBlks j)[blk]? = some b →
    rd s.dyn .pwrDomStsState j = 4 → x.accepts.contains blk = false → x.delayed.contains blk = false →
    (b.priv = none → exec (.powerAnswer j blk .refuse) s = .next (s.setDyn (pwrRefused j s.dyn))) ∧
    (canAccept s.dyn b = true → exec (.powerAnswer j blk .accept) s =
      .next (s.setDyn (pwrSettle s.cfg j (pwrSet j { x with accepts := x.accepts ++ [blk] } s.dyn)))) ∧
    (∀ us, exec (.powerAnswer j blk (.delay us)) s = .next (s.setDyn (pwrSettle s.cfg j (pwrSet j
      { x with delayed := x.delayed ++ [blk], delay := max x.delay (clamp 1 255 us) } s.dyn))))) ∧
  (∀ (s : State) (j : Fin 92) (x : PwrDom), x = pwrGet s.dyn j → rd s.dyn .pwrDomStsState j = 4 → x.delayed ≠ [] →
    (domBlks j).length ≤ x.accepts.length + x.delayed.length → x.stepAt + x.delay * 1000 ≤ s.dyn.now →
    exec (.delayRetry j) s = .next (s.setDyn (emit (.pwrReq j x.target) (pwrSet j
      { x with accepts := preAccept s.dyn j, delayed := [], delay := 0, reqAt := s.dyn.now } s.dyn)))) ∧
  (∀ (s : State) (j : Fin 92) (left : Nat), left = (domBlks j).length - ((pwrGet s.dyn j).accepts.length + (pwrGet s.dyn j).delayed.length) →
    rd s.dyn .pwrDomStsState j = 4 → left ≠ 0 → (pwrGet s.dyn j).reqAt + 1000 ≤ s.dyn.now →
    exec (.answerTimeout j) s = .next (s.setDyn (pwrRefused j (bump .pwrDomStsNoans j left s.dyn)))) ∧
  (∀ (s : State) (j : Fin 92) (t : Nat), (pwrGet s.dyn j).refAt = some t → (pwrGet s.dyn j).told = false → t + 1000000000 ≤ s.dyn.now →
    exec (.entryRefused j) s = .next (s.setDyn (raise 0x0903 (j / 23) [j.val % 23]
      (pwrSet j { pwrGet s.dyn j with told := true } s.dyn)))) ∧
  (∀ (s : State) (j : Fin 92) (code : Fin 16), 1 ≤ code.val → code.val ≤ 7 →
    exec (.wakeSource j code) s = .next (s.setDyn (wakeDom s.cfg j code
      (if (code.val = 1 ∨ code.val = 4) ∧ j.val % 23 < 12 then wakeDom s.cfg (j / 23 * 23 + 12 + j % 23 / 2) code s.dyn else s.dyn)))) ∧
  (∀ (s : State) (j : Fin 92) (ue : Bool) (x : PwrDom), x = pwrGet s.dyn j → rd s.dyn .pwrDomStsState j = 5 →
    exec (.returnStepReady j ue) s = .next (s.setDyn
      (if x.step < 4 then emit (.pwrStep j (x.step + 1)) (pwrSet j { x with step := x.step + 1, stepAt := s.dyn.now } s.dyn)
      else if ue = true ∧ x.from0 = 3 then domFail s.cfg j 0x0906 s.dyn else heldRun s.cfg
        (forAll (domRegions j) (fun r d => if r % 2 = 1 then xltDrain s.cfg (r / 2) d else d) (serveGrants s.cfg (returnDone j s.dyn)))))) ∧
  (∀ (s : State) (j : Fin 92) (x : PwrDom), x = pwrGet s.dyn j → rd s.dyn .pwrDomStsState j = 5 →
    x.stepAt + 4 * stepNs j x.from0 x.step ≤ s.dyn.now →
    exec (.readyLate j) s = .next (s.setDyn (if x.run = 1 then emit (.pwrStep j 1) (raise 0x0904 (j / 23) [j.val % 23]
      (pwrSet j { x with run := 2, step := 1, stepAt := s.dyn.now } s.dyn)) else domFail s.cfg j 0x0905 s.dyn)))

/-- PRESENT, REMOVED and the slot commands of insertion, ramp, power-good and early warning complete (R417, R418, R419, R425, R426, R427, R429, R430, R432, R536). -/
def Obligations.SlotSequenceCommandsComplete : Prop :=
  (∀ (s : State) (n : Pu) (d : Dyn), d = (if cg s.cfg .portPcfgBif n = 0 then put .portLstsPrsnt (4 * n) 1 (put .slotStsPrsnt n 1 s.dyn)
      else put .slotStsPrsnt n 1 s.dyn) →
    exec (.present n) s = .next (s.setDyn (if slotEn s.cfg n = true ∧ slotBad s.cfg n = false ∧ slotState d n = 0 ∧
      rd d .secBootStsStage 0 = 8 then slotEv 0x0A01 n (enterWait n d) else d))) ∧
  (∀ (s : State) (n : Pu) (d : Dyn), cg s.cfg .slotCtlPrsntIgn n ≠ 1 → rd s.dyn .slotStsPrsnt n ≠ 0 →
    d = put .slotStsPrsnt n 0 (cycleDrop n s.dyn) → (slotState d n = 0 ∨ slotState d n = 6) →
    exec (.removed n) s = .next (s.setDyn (slotPin s.cfg n (slotEv 0x0A02 n (forAll (slotPorts n) (fun lp d =>
      if isDown s.cfg d lp && !lpContained d lp then dpc s.cfg lp 2 true d
      else if rd d .portLstsPrsnt lp = 1 && cg s.cfg .portPcfgBif n == 0 then presenceLost s.cfg lp d else d) d))))) ∧
  (∀ (s : State) (n : Pu) (m : SlotMeas) (d e : Dyn) (x : SlotCh), slotEn s.cfg n = true → d = slotMeas n m s.dyn → x = slotGet d n →
    (x.inAt = none → windowSide s.cfg n false m.vin = true →
      exec (.inputWindow n m) s = .next (s.setDyn (slotSet n { x with inAt := some d.now } d))) ∧
    (x.inAt.isSome = true → windowSide s.cfg n true m.vin = false → e = cycleDrop n (slotSet n { x with inAt := none } d) →
      slotOn e n = true → exec (.inputWindow n m) s = .next (s.setDyn (slotPin s.cfg n (put .slotStsState n 1 (gateOff s.cfg n 1 (decide (slotOv s.cfg n < m.vin.val))
        (slotEv 0x0A08 n (bump .slotFltCntInput n 1 (put .slotStsLastFault n (if m.vin.val < slotUv s.cfg n then 4 else 5) e))))))))) ∧
  (∀ (s : State) (n : Pu) (m : SlotMeas) (t : Nat), (slotGet s.dyn n).inAt = some t → slotEn s.cfg n = true → slotState s.dyn n = 1 →
    t + cg s.cfg .slotTimeInsMs n * 1000000 ≤ s.dyn.now → windowSide s.cfg n true m.vin = true →
    exec (.insertionDelay n m) s = .next (s.setDyn (gateDue s.cfg n true (slotMeas n m s.dyn)))) ∧
  (∀ (s : State) (n : Pu) (m : SlotMeas) (x : SlotCh), x = slotGet s.dyn n → slotState s.dyn n = 4 → x.offAt + x.offFor ≤ s.dyn.now →
    exec (.offTime n m) s = .next (s.setDyn (if x.inAt.isSome = true then gateDue s.cfg n false (slotMeas n m s.dyn)
      else enterWait n (slotMeas n m s.dyn)))) ∧
  (∀ (s : State) (n : Pu) (m : SlotMeas) (d e : Dyn), slotOn s.dyn n = true → rd s.dyn .slotStsPgInt n = 0 → rd s.dyn .slotStsLim n = 0 →
    160 ≤ m.gate.val → m.vin.val * 95 ≤ m.vout.val * 100 → d = cycleEnd n (slotMeas n m s.dyn) →
    e = put .slotStsPgInt n 1 (put .slotStsState n 3 (slotSet n
      { slotGet d n with pgAt := d.now, calmAt := if slotState d n = 3 then (slotGet d n).calmAt else d.now } d)) →
    exec (.powerGood n m) s = .next (s.setDyn (slotPin s.cfg n (slotEv 0x0A03 n
      { e with port := { e.port with inReset := e.port.inReset.filter fun x => x != n.val } })))) ∧
  (∀ (s : State) (n : Pu) (m : SlotMeas), rd s.dyn .slotStsPgInt n = 1 → rd s.dyn .slotStsLim n = 0 → m.vout.val * 100 < m.vin.val * 90 →
    exec (.pgDrop n m) s = .next (s.setDyn (slotPin s.cfg n (slotHold s.cfg n 1 (perstOn s.cfg n
      (put .slotStsPgInt n 0 (slotMeas n m s.dyn))))))) ∧
  (∀ (s : State) (n : Pu), slotState s.dyn n = 3 → rd s.dyn .slotStsLim n = 0 → (slotGet s.dyn n).calmAt + 1000000000 ≤ s.dyn.now →
    exec (.sequenceEnd n) s = .next (s.setDyn (put .slotStsAttempts n 0 s.dyn))) ∧
  (∀ (s : State) (n : Pu), (slotGet s.dyn n).gate = false → slotEn s.cfg n = true →
    (slotGet s.dyn n).offAt + cg s.cfg .slotTimeDischMs n * 1000000 ≤ s.dyn.now →
    exec (.dischargeArm n) s = .next (s.setDyn (slotSet n { slotGet s.dyn n with armed := true } s.dyn))) ∧
  (∀ (s : State) (n : Pu) (m : SlotMeas) (d : Dyn) (lvl : Nat), slotOn s.dyn n = true → d = slotMeas n m s.dyn →
    lvl = (slotGet d n).start * clamp 50 99 (cg s.cfg .slotLimEwPct n) →
    (rd d .slotStsEw n = 0 → m.vin.val * 100 < lvl → exec (.earlyWarning n m) s = .next (s.setDyn (slotPin s.cfg n
      (bump .slotFltCntEwarn n 1 (put .slotStsEw n 1 d))))) ∧
    (rd d .slotStsEw n = 1 → lvl + (slotGet d n).start * 2 ≤ m.vin.val * 100 →
      exec (.earlyWarning n m) s = .next (s.setDyn (slotPin s.cfg n (put .slotStsEw n 0 d))))) ∧
  (∀ (s : State) (n : Pu) (d : Dyn), (slotGet s.dyn n).perst = true → rd s.dyn .slotStsPgInt n = 1 →
    (slotGet s.dyn n).pgAt + 100000000 ≤ s.dyn.now → d = slotSet n { slotGet s.dyn n with perst := false } s.dyn →
    exec (.perstRelease n) s = .next (s.setDyn (if perstDriven s.cfg d n = true then emit (.pin (.perst n false)) d else d)))

/-- LIMIT_ENGAGE and _RELEASE, FAST_TRIP, FAULT_TIMER, FET_SHORT, CYCLE and CLEAR complete (R421, R422, R423, R427, R428, R434, R435). -/
def Obligations.SlotProtectionCommandsComplete : Prop :=
  (∀ (s : State) (n : Pu) (m : SlotMeas) (d : Dyn), slotOn s.dyn n = true → rd s.dyn .slotStsLim n = 0 →
    d = cycleDrop n (slotMeas n m s.dyn) →
    exec (.limitEngage n m) s = .next (s.setDyn
      (if rd (put .slotStsLim n 1 (slotSet n { slotGet d n with limAt := some d.now } d)) .slotStsPgInt n = 1
      then slotEv 0x0A0C n (put .slotStsLim n 1 (slotSet n { slotGet d n with limAt := some d.now } d))
      else put .slotStsLim n 1 (slotSet n { slotGet d n with limAt := some d.now } d)))) ∧
  (∀ (s : State) (n : Pu) (m : SlotMeas), rd s.dyn .slotStsLim n = 1 →
    exec (.limitRelease n m) s = .next (s.setDyn (put .slotStsLim n 0
      (slotSet n { slotGet s.dyn n with limAt := none, calmAt := s.dyn.now } (slotMeas n m s.dyn))))) ∧
  (∀ (s : State) (n : Pu) (m : SlotMeas), slotOn s.dyn n = true →
    (max 1 (cg s.cfg .slotCtlFtMult n) + 1) * clamp 10 100 (cg s.cfg .slotLimVlim n) * 5 < m.sense.val →
    exec (.fastTrip n m) s = .next (s.setDyn (slotTrip s.cfg n (slotEv 0x0A04 n (bump .slotFltCntFt n 1
      (put .slotStsLastFault n 1 (cycleDrop n (slotMeas n m s.dyn)))))))) ∧
  (∀ (s : State) (n : Pu) (m : SlotMeas) (t : Nat), (slotGet s.dyn n).limAt = some t → slotOn s.dyn n = true →
    t + clamp 1 50 (cg s.cfg .slotLimFltMs n) * 1000000 ≤ s.dyn.now →
    exec (.faultTimer n m) s = .next (s.setDyn (slotTrip s.cfg n (slotEv 0x0A05 n (bump .slotFltCntTmr n 1
      (put .slotStsLastFault n 2 (cycleDrop n (slotMeas n m s.dyn)))))))) ∧
  (∀ (s : State) (n : Pu) (m : SlotMeas) (d : Dyn), (slotGet s.dyn n).armed = true →
    (slotState s.dyn n = 0 ∨ slotState s.dyn n = 1 ∨ slotState s.dyn n = 4 ∨ slotState s.dyn n = 5) →
    200 < 10 * m.vout.val → m.vin.val < 10 * m.vout.val →
    d = put .slotStsState n 6 (put .slotStsSag n 0 (put .slotStsLastFault n 3 (cycleDrop n (slotMeas n m s.dyn)))) →
    exec (.fetShort n m) s = .next (s.setDyn (slotPin s.cfg n (slotHold s.cfg n 3 (slotEv 0x0A07 n d))))) ∧
  (∀ (s : State) (n : Pu) (r : Nat × Dyn), (slotGet s.dyn n).act = none → (slotGet s.dyn n).cycling = false → slotEn s.cfg n = true →
    slotOn s.dyn n = true → mayPowerOff s.cfg s.dyn n = true → r = arbAsk (actReq 8 [n.val] []) n s.dyn →
    exec (.cycle n) s = .next (s.setDyn (cycleGo s.cfg n (put .slotCmdResult n 0
      (slotSet n { slotGet r.2 n with act := some r.1 } r.2))))) ∧
  (∀ (s : State) (n : Pu), (slotGet s.dyn n).act = none → (slotGet s.dyn n).cycling = false →
    (slotEn s.cfg n = false ∨ slotOn s.dyn n = false ∨ mayPowerOff s.cfg s.dyn n = false) →
    exec (.cycle n) s = .next (s.setDyn (slotEv 0x0A0B n (put .slotCmdResult n 2 s.dyn)))) ∧
  (∀ (s : State) (n : Pu) (m : SlotMeas) (d : Dyn), slotState s.dyn n = 5 → d = cycleDrop n (slotMeas n m s.dyn) →
    exec (.clear n m) s = .next (s.setDyn (put .slotCmdResult n 1 (put .slotStsAttempts n 0 (slotPin s.cfg n (enterWait n d)))))) ∧
  (∀ (s : State) (n : Pu) (m : SlotMeas) (d : Dyn), slotState s.dyn n = 6 → d = cycleDrop n (slotMeas n m s.dyn) →
    exec (.clear n m) s = .next (s.setDyn (if 10 * rd d .slotMeasVout n < max 200 (rd d .slotMeasVin n) then
      slotRecheck s.cfg n (put .slotCmdResult n 1 (put .slotStsAttempts n 0 (put .slotStsState n 0 d))) else put .slotCmdResult n 2 d))) ∧
  (∀ (s : State) (n : Pu) (m : SlotMeas), slotState s.dyn n ≠ 5 → slotState s.dyn n ≠ 6 →
    exec (.clear n m) s = .next (s.setDyn (put .slotCmdResult n 2 (slotMeas n m s.dyn))))

/-- RDB, RESDB, ENABLE, DISABLE, RESUME_SKIP and _RETRY, FCF_BAR_ACCESS, CB_WRITE and BAR2_READ complete (R72, R73, R312, R315, R316, R330, R332, R334, R335, R506). -/
def Obligations.DoorbellPageCommandsComplete : Prop :=
  (∀ (s : State) (h : Host) (sl : Slc) (k : Fin 4), owns (qCfg s.cfg s.dyn) s.dyn h sl = true →
    ((ringGet s.dyn (4 * sl.val + k.val)).state = 1 ∨ (ringGet s.dyn (4 * sl.val + k.val)).state = 2) →
    exec (.rdb h sl k) s = .next (s.setDyn (readRcb s.cfg (4 * sl.val + k.val)
      (engineIn (ringGet s.dyn (4 * sl.val + k.val)).die s.dyn)))) ∧
  (∀ (s : State) (h : Host) (sl : Slc), owns (qCfg s.cfg s.dyn) s.dyn h sl = true → (resGet s.dyn sl).on = true →
    exec (.resdb h sl) s = .next (s.setDyn (readRes s.cfg h sl s.dyn))) ∧
  (∀ (s : State) (h : Host) (sl : Slc) (k : Fin 5) (n : Nat) (r : Ring), owns (qCfg s.cfg s.dyn) s.dyn h sl = true → k.val ≠ 4 →
    n = 4 * sl.val + k.val → r = ringGet s.dyn n → r.state = 0 → r.rbase % 4096 = 0 → r.rcba % 64 = 0 →
    ∃ t, exec (.enable h sl k) s = .next (s.setDyn (hostSend s.cfg h (.hostRd h r.rcba 64) (ringSet n t s.dyn))) ∧
      t.state = 1 ∧ t.why = 0 ∧ t.err = 0 ∧ t.host = h.val ∧ t.taking = true ∧ t.ents = [] ∧ t.fetched = [] ∧
      t.rbase = r.rbase ∧ t.rcba = r.rcba ∧ t.log2 = r.log2 ∧ t.irqMode = r.irqMode ∧ t.vec = r.vec) ∧
  (∀ (s : State) (h : Host) (sl : Slc) (k : Fin 5), owns (qCfg s.cfg s.dyn) s.dyn h sl = true →
    exec (.enable h sl 4) s = .next (s.setDyn (resEnable s.cfg h sl s.dyn)) ∧
    exec (.disable h sl 4) s = .next (s.setDyn (resDisable sl s.dyn)) ∧
    (k.val ≠ 4 → exec (.disable h sl k) s = .next (s.setDyn (ringDisable s.cfg (4 * sl.val + k.val) s.dyn)))) ∧
  (∀ (s : State) (h : Host) (sl : Slc) (k : Fin 4) (n : Nat) (r : Ring), owns (qCfg s.cfg s.dyn) s.dyn h sl = true →
    n = 4 * sl.val + k.val → r = ringGet s.dyn n → r.state = 2 →
    exec (.resumeSkip h sl k) s = .next (s.setDyn (ringSkip s.cfg n s.dyn)) ∧
    ∃ t, exec (.resumeRetry h sl k) s = .next (s.setDyn (readSlots s.cfg n (readRcb s.cfg n (ringSet n t s.dyn)))) ∧
      t.state = 1 ∧ t.err = 0 ∧ t.fetched = r.fetched.filter (fun f => f.idx != r.ridx) ∧ t.ents = r.ents) ∧
  (∀ (s : State) (h : Host) (sl : Slc) (k : Fin 4) (w : Fin 5), owns (qCfg s.cfg s.dyn) s.dyn h sl = false →
    exec (.rdb h sl k) s = .next (s.setDyn (bump .gateHviolCount h 1 s.dyn)) ∧
    exec (.resdb h sl) s = .next (s.setDyn (bump .gateHviolCount h 1 s.dyn)) ∧
    exec (.enable h sl w) s = .next (s.setDyn (bump .gateHviolCount h 1 s.dyn)) ∧
    exec (.disable h sl w) s = .next (s.setDyn (bump .gateHviolCount h 1 s.dyn)) ∧
    exec (.resumeSkip h sl k) s = .next (s.setDyn (bump .gateHviolCount h 1 s.dyn)) ∧
    exec (.resumeRetry h sl k) s = .next (s.setDyn (bump .gateHviolCount h 1 s.dyn))) ∧
  (∀ (s : State) (h : Host) (sl : Slc) (o : Fin 4096) (x : Word),
    exec (.fcfBarAccess h 0 (sl.val * 4096 + o.val) (some x) false) s = .next (s.setDyn (if owns (qCfg s.cfg s.dyn) s.dyn h sl = true
      then pageStore s.cfg h sl o x.toNat s.dyn else bump .gateHviolCount h 1 s.dyn)) ∧
    (pageWide o = false →
      exec (.fcfBarAccess h 0 (sl.val * 4096 + o.val) none false) s = .next (s.setDyn (emit (.csrData (.fcf h)
        [if owns (qCfg s.cfg s.dyn) s.dyn h sl = true ∧ o.val % 4 = 0 then pageRead s.dyn sl o else 0]) s.dyn))) ∧
    (∀ p : Nat × Dyn, pageWide o = true → o.val % 4 = 0 → owns (qCfg s.cfg s.dyn) s.dyn h sl = true →
      p = pairRead (.fcf h) (2 ^ 81 + sl.val * 4096 + o.val / 8 * 8)
        (pageRead s.dyn sl (o.val / 8 * 8) + 2 ^ 32 * pageRead s.dyn sl (o.val / 8 * 8 + 4)) (o.val % 8 == 4) s.dyn →
      exec (.fcfBarAccess h 0 (sl.val * 4096 + o.val) none false) s = .next (s.setDyn (emit (.csrData (.fcf h) [p.1]) p.2)))) ∧
  (∀ (s : State) (h : Host) (o : Fin 65536) (off : Nat) (v : Option Word) (bar : Fin 6),
    exec (.fcfBarAccess h 4 o.val v false) s = .next (s.setDyn (bar4Access h o.val v s.dyn)) ∧
    exec (.fcfBarAccess h 2 off none false) s = .next (s.setDyn (bar2Word s.cfg h off s.dyn)) ∧
    exec (.fcfBarAccess h bar off none true) s = .next (s.setDyn (emit (.fcfUr h) s.dyn)) ∧
    (∀ x, exec (.fcfBarAccess h bar off (some x) true) s = .next (s.setDyn s.dyn))) ∧
  (∀ (s : State) (sl : Slc) (q : ResRing), q = resGet s.dyn sl → q.cbDirty = true → q.cbAt + 1000 ≤ s.dyn.now →
    exec (.cbWrite sl 4) s = .next (s.setDyn (hostPut s.cfg q.host (q.rcba + 8)
      [q.prod, swState (expMark q.log2 q.prod) (b2n q.on) 0, 0] (resSet sl { q with cbDirty := false, cbAt := s.dyn.now } s.dyn)))) ∧
  (∀ (s : State) (sl : Slc) (k : Fin 5) (n : Nat) (r : Ring), k.val ≠ 4 → n = 4 * sl.val + k.val → r = ringGet s.dyn n → r.cbDirty = true →
    r.cbAt + 1000 ≤ s.dyn.now → exec (.cbWrite sl k) s = .next (s.setDyn (hostPut s.cfg r.host (r.rcba + 8)
      [r.head, swState (expMark r.log2 r.head) r.state r.err, r.ridx] (ringSet n { r with cbDirty := false, cbAt := s.dyn.now } s.dyn)))) ∧
  (∀ (s : State) (h : Host) (sl : Slc) (j : Fin 8) (v : Nat), cg s.cfg .pmcCtlPmuUser 0 = 1 → owns (qCfg s.cfg s.dyn) s.dyn h sl = true →
    v = aget 0 s.dyn.cnt.slc (sl.val * 8 + j.val) + aget 0 s.dyn.cnt.slcO (sl.val * 8 + j.val) * 2 ^ 63 →
    exec (.bar2Read h (sl.val * 256 + j.val * 16)) s = .next (s.setDyn (emit (.csrData (.fcf h)
      [(pairRead (.fcf h) (2 ^ 80 + (sl.val * 8 + j.val)) v false s.dyn).1]) (pairRead (.fcf h) (2 ^ 80 + (sl.val * 8 + j.val)) v false s.dyn).2)))

/-- CONTROL_BLOCK_READ, POLL, ENTRY_FETCH, STALE_REREAD, DISPATCH, RESULT_RETRY and RESULT_HELD complete (R313, R315, R330, R331, R332, R333). -/
def Obligations.RingWorkCommandsComplete : Prop :=
  (∀ (s : State) (sl : Slc) (k : Fin 5) (x : HostRead) (n : Nat) (r : Ring) (d : Dyn), k.val ≠ 4 → n = 4 * sl.val + k.val → r = ringGet s.dyn n →
    r.cbBusy = true → r.cbAgain = false → d = rcbTake s.cfg n x (ringSet n { r with cbBusy := false, cbAgain := false } s.dyn) →
    exec (.controlBlockRead sl k x) s = .next (s.setDyn (ringSet n { ringGet d n with taking := false } d))) ∧
  (∀ (s : State) (sl : Slc) (x : HostRead) (q : ResRing), q = resGet s.dyn sl → q.cbBusy = true → q.on = true → x.ok = true →
    exec (.controlBlockRead sl 4 x) s = .next (s.setDyn (sliceSettle s.cfg sl (resSet sl { q with cbBusy := false, taking := false, cons := wAt (hostWords x) 0, prod := if q.taking then wAt (hostWords x) 2 else q.prod } s.dyn)))) ∧
  (∀ (s : State) (n : RingId) (r : Ring), r = ringGet s.dyn n → r.state = 1 → r.taking = false → 0 < r.poll → r.pollAt + pollNs r ≤ s.dyn.now →
    exec (.poll n) s = .next (s.setDyn (readSlots s.cfg n (ringSet n { r with pollAt := s.dyn.now } s.dyn)))) ∧
  (∀ (s : State) (n : RingId) (idx : Nat) (x : HostRead) (r : Ring) (w : List Nat), idx < idxMod → r = ringGet s.dyn n → r.state = 1 →
    r.taking = false → slotWanted r idx = true → w = hostWords x →
    (x.ok = false → exec (.entryFetch n idx x) s = .next (s.setDyn (slotKeep n ⟨idx, none, []⟩ s.dyn))) ∧
    (x.ok = true → phaseOf w = expMark r.log2 idx → exec (.entryFetch n idx x) s = .next (s.setDyn (slotKeep n
      ⟨idx, some w, if opOf w = 7 ∧ bitAt (flagsOf w) 0 = true then fenceWaits s.dyn n else []⟩ s.dyn))) ∧
    (x.ok = true → phaseOf w ≠ expMark r.log2 idx → belowTail r idx = true → (r.stale.any fun y => y.1 == idx) = false →
      exec (.entryFetch n idx x) s = .next (s.setDyn (ringSet n { r with stale := r.stale ++ [(idx, 0, s.dyn.now)] } s.dyn)))) ∧
  (∀ (s : State) (n : RingId) (idx t k : Nat) (x : HostRead) (r : Ring), idx < idxMod → r = ringGet s.dyn n → r.state = 1 →
    r.stale.find? (fun y => y.1 == idx) = some (idx, k, t) → t + 1000 ≤ s.dyn.now → k < 1000 → x.ok = true →
    (phaseOf (hostWords x) = expMark r.log2 idx → exec (.staleReread n idx x) s =
      .next (s.setDyn (slotBack n idx x (ringSet n { r with stale := dropOne (idx, k, t) r.stale } s.dyn)))) ∧
    (phaseOf (hostWords x) ≠ expMark r.log2 idx → ∀ d,
      d = ringSet n { r with stale := mapIf (fun z => z.1 == idx) (fun z => (z.1, k + 1, s.dyn.now)) r.stale } s.dyn →
      exec (.staleReread n idx x) s = .next (s.setDyn (if 1000 ≤ k + 1 ∧ idx = r.disp then ringError s.cfg n idx 8 d else d)))) ∧
  (∀ (s : State) (die : Die) (n k : Nat) (r : Ring) (w x : List Nat) (d : Dyn), xltHalted s.dyn die = false →
    ringTurn s.dyn die (mayTurn s.dyn die) = some n → ringNext s.dyn n = some (.inr (w, x)) →
    d = { s.dyn with ring := { s.dyn.ring with rot := aset 0 s.dyn.ring.rot die (n + 1) } } → r = ringGet s.dyn n →
    k = (if twoSlot r w then 2 else 1) →
    exec (.dispatch die) s = .next (s.setDyn (ringSet n { r with disp := idxAdd r.disp k, ents := r.ents ++ [⟨r.disp, k, w, x, false, false, false, 0, 0, [], none⟩], fetched := r.fetched.filter fun f => f.idx != r.disp && !(k == 2 && f.idx == idxAdd r.disp 1) } d))) ∧
  (∀ (s : State) (die : Die) (n c : Nat) (d : Dyn), xltHalted s.dyn die = false →
    ringTurn s.dyn die (mayTurn s.dyn die) = some n → ringNext s.dyn n = some (.inl c) →
    d = { s.dyn with ring := { s.dyn.ring with rot := aset 0 s.dyn.ring.rot die (n + 1) } } →
    exec (.dispatch die) s = .next (s.setDyn (ringError s.cfg n (ringGet s.dyn n).disp c d))) ∧
  (∀ (s : State) (sl : Slc) (q : ResRing), q = resGet s.dyn sl → q.on = true → slcHolds s.dyn sl = true →
    q.retryAt + resRetryNs s.cfg (((hostPort s.cfg s.dyn q.host).getD 0) / 48) ≤ s.dyn.now →
    exec (.resultRetry sl) s = .next (s.setDyn (readRes s.cfg q.host sl s.dyn))) ∧
  (∀ (s : State) (n : RingId) (t : Nat) (r : Ring), r = ringGet s.dyn n → r.heldAt = some t → r.heldTold = false → t + 1000000 ≤ s.dyn.now →
    exec (.resultHeld n) s = .next (s.setDyn (raise 0x0602 r.die [n.val / 4, n.val % 4, r.head] (ringSet n { r with heldTold := true } s.dyn))))

/-- NOP, FENCE, COPY, FILL, HINT, MIGRATE, QUERY, PERF_READ and AMEND of the work rings complete (R285, R321, R324, R325, R326, R327, R328, R329, R336). -/
def Obligations.RingEntryCommandsComplete : Prop :=
  (∀ (s : State) (n : RingId) (idx : Nat) (e : RingEnt), entReady s.dyn n idx 0 = some e →
    exec (.nop n idx) s = .next (s.setDyn (entDone s.cfg n idx 0 0 [] s.dyn))) ∧
  (∀ (s : State) (n : RingId) (idx : Nat) (e : RingEnt), entReady s.dyn n idx 7 = some e →
    exec (.fence n idx) s = .next (s.setDyn (entDone s.cfg n idx 0 0 [] s.dyn))) ∧
  (∀ (s : State) (n : RingId) (idx st : Nat) (e : RingEnt), moveCheck s.cfg s.dyn n e = some (st, none) →
    (entReady s.dyn n idx 3 = some e → exec (.copy n idx) s = .next (s.setDyn (entDone s.cfg n idx st 0 [0] s.dyn))) ∧
    (entReady s.dyn n idx 4 = some e → exec (.fill n idx) s = .next (s.setDyn (entDone s.cfg n idx st 0 [0] s.dyn)))) ∧
  (∀ (s : State) (n : RingId) (idx : Nat) (e : RingEnt) (r : Ring) (d : Dyn), moveCheck s.cfg s.dyn n e = none → r = ringGet s.dyn n →
    d = jobsStart s.cfg r.die (setEnt n idx
      (fun e => { e with started := true, job := some ⟨genOf s.dyn r.die, 0, 0, false, false, false, false, false, 0, false, 0⟩ })
      { s.dyn with flights := s.dyn.flights ++ [⟨jobReq s.cfg s.dyn r.host (jobId n idx) .memWr 0 0, r.die, genOf s.dyn r.die, none, 0, none, [], false, .light, none, 0, 0, none, false⟩] }) →
    (entReady s.dyn n idx 3 = some e → exec (.copy n idx) s = .next (s.setDyn d)) ∧
    (entReady s.dyn n idx 4 = some e → exec (.fill n idx) s = .next (s.setDyn d))) ∧
  (∀ (s : State) (n : RingId) (idx h lo k pgs : Nat) (e : RingEnt), entReady s.dyn n idx 5 = some e → h = (ringGet s.dyn n).host →
    lo = argAt e.w 0 / 2097152 → k = min (bits (argAt e.w 1) 0 28) (ldPages s.cfg h - lo) →
    (ringPriv s.cfg s.dyn n = true ∨ ((List.range k).any fun i => sharedPage s.cfg h (lo + i)) = false) →
    pgs = ((List.range k).filter fun i => (ptGet s.dyn h (lo + i)).state == 1 || (ptGet s.dyn h (lo + i)).state == 2).length →
    exec (.hint n idx) s = .next (s.setDyn (if pgs = 0 then entDone s.cfg n idx 0 0 [0] s.dyn else entDone s.cfg n idx 0 0 [pgs]
      (ptWriteRange h lo k (fun _ x => if x.state = 1 ∨ x.state = 2 then { x with hint := bits (flagsOf e.w) 0 2 } else x) false .nothing
        (splitEnds s.cfg h lo k s.dyn))))) ∧
  (∀ (s : State) (n : RingId) (idx h page tier now : Nat) (e : RingEnt), entReady s.dyn n idx 6 = some e → h = (ringGet s.dyn n).host →
    page = argAt e.w 0 / 2097152 → tier = argAt e.w 1 % 2 → now = pageTier s.dyn h page →
    (cg s.cfg .xltCtlMigEn 0 = 0 → exec (.migrate n idx) s = .next (s.setDyn (entDone s.cfg n idx 0x15 0 [now] s.dyn))) ∧
    (cg s.cfg .xltCtlMigEn 0 ≠ 0 → (ptGet s.dyn h page).state = 0 →
      exec (.migrate n idx) s = .next (s.setDyn (entDone s.cfg n idx 0x11 0 [now] s.dyn))) ∧
    (cg s.cfg .xltCtlMigEn 0 ≠ 0 → (ptGet s.dyn h page).state = 1 → migBusy s.dyn h page = false → now = tier →
      exec (.migrate n idx) s = .next (s.setDyn (entDone s.cfg n idx 0x16 0 [now] s.dyn))) ∧
    (cg s.cfg .xltCtlMigEn 0 ≠ 0 → (ptGet s.dyn h page).state = 1 → migBusy s.dyn h page = false → now ≠ tier →
      sharedPage s.cfg h page = false → rd s.dyn .nvmSagStsSag 0 ≠ 1 → ∀ x, migDst s.dyn h page tier = some x →
      exec (.migrate n idx) s = .next (s.setDyn (migAsk s.cfg h page x.1 x.2 false false (some (n.val, idx))
        (setEnt n idx (fun e => { e with started := true }) s.dyn))))) ∧
  (∀ (s : State) (n : RingId) (idx h : Nat) (e : RingEnt), entReady s.dyn n idx 8 = some e → h = (ringGet s.dyn n).host →
    exec (.query n idx) s = .next (s.setDyn (entDone s.cfg n idx 0 0 (match flagsOf e.w with
      | 0 => quotaData s.cfg s.dyn (n.val / 4) h
      | 1 => extentData s.cfg s.dyn h (argAt e.w 0)
      | 2 => poisonData s.dyn h (argAt e.w 0)
      | _ => pageData s.dyn h (argAt e.w 0)) s.dyn))) ∧
  (∀ (s : State) (n : RingId) (idx cnt : Nat) (e : RingEnt) (r : Ring) (x : List Nat × Dyn), entReady s.dyn n idx 9 = some e →
    ringPriv s.cfg s.dyn n = true → r = ringGet s.dyn n → cnt = bits (argAt e.w 0) 16 11 →
    x = perfAll s.cfg n (bits (argAt e.w 0) 32 2) (flagsOf e.w == 0) ((List.range cnt).map fun i => bits (argAt e.w 0) 0 10 + i) s.dyn →
    exec (.perfRead n idx) s = .next (s.setDyn (entDone s.cfg n idx 0 0 [cnt] (hostPut s.cfg r.host (argAt e.w 1) x.1 x.2)))) ∧
  (∀ (s : State) (n : RingId) (idx : Nat) (e : RingEnt) (a : Amendment), entReady s.dyn n idx 10 = some e →
    (ringPriv s.cfg s.dyn n = true →
      exec (.amend n idx (some a)) s = .next (s.setDyn (amdSubmit s.cfg a (.ring n idx) (setEnt n idx (fun e => { e with started := true }) s.dyn))) ∧
      exec (.amend n idx none) s = .next (s.setDyn (entDone s.cfg n idx 0x14 0 [] s.dyn))) ∧
    (ringPriv s.cfg s.dyn n = false → exec (.amend n idx (some a)) s = .next (s.setDyn (entDone s.cfg n idx 0x19 0 [] s.dyn))))

/-- M2S_REQUEST, CONTROL_WORD_REWRITE, SCRUB_SWEEP, SLICE_SPARING and the arbiter's commands complete (R31, R478, R479, R481, R482, R484, R485, R486). -/
def Obligations.ControlStateAndArbiterCommandsComplete : Prop :=
  (∀ (s : State) (hits : List EccHit) (r : Req),
    exec (.m2sRequest hits r) s = .next (s.setDyn (arrive s.cfg r (forAll hits (eccHit s.cfg) s.dyn)))) ∧
  (∀ (s : State) (x : EccHit) (d e : Dyn), s.dyn.hlth.fixes.contains x = true → (leadDie s.dyn).isSome = true →
    d = { s.dyn with hlth := { s.dyn.hlth with fixes := s.dyn.hlth.fixes.filter fun y => y != x }, noc := { s.dyn.noc with badWord := s.dyn.noc.badWord.filter fun y => !(x.kind == .routeWord && y == (x.inst, x.index)) } } →
    e = { d with hlth := { d.hlth with gateWait := d.hlth.gateWait.filter fun r => lpDie r.lport != x.inst } } →
    exec (.controlWordRewrite x) s = .next (s.setDyn (if x.kind == .gateRule && !ruleInError d x.inst then
      forAll (d.hlth.gateWait.filter fun r => lpDie r.lport == x.inst) (requestIn s.cfg) e else d))) ∧
  (∀ (s : State) (k : Fin 112) (hits l : List EccHit) (a : Act) (sets : List Nat) (d e : Dyn),
    s.dyn.hlth.running.find? (fun a => a.q.code == 1 && a.q.strukt == k.val) = some a →
    aget 0 s.dyn.hlth.scrubs k + scrubNs s.cfg ≤ s.dyn.now → l = hits.filter (fun x => struktOf x == k.val) →
    d = forAll l (eccHit s.cfg) (if k.val < 48 then waysBack s.cfg k s.dyn else s.dyn) →
    sets = ((l.filter fun x => x.kind == .dirEntry && !x.ue).map fun x => x.index / 16 % 16384).dedup →
    e = { d with hlth := { d.hlth with ceSeen := (d.hlth.ceSeen.filter fun y => y / 16384 != k.val) ++ sets.map (fun y => k.val * 16384 + y), scrubs := aset 0 d.hlth.scrubs k d.now } } →
    exec (.scrubSweep k hits) s = .next (s.setDyn (arbFree a.id
      (forAll (sets.filter fun y => d.hlth.ceSeen.contains (k.val * 16384 + y)) (spareAsk k) e)))) ∧
  (∀ (s : State) (sl : DSlice) (set : Fin 16384) (a : Act) (x : DirSt) (d : Dyn),
    s.dyn.hlth.running.find? (fun a => a.q.code == 9 && a.q.strukt == sl.val && a.tag == set.val) = some a → x = dirGet s.dyn sl →
    d = dirSet sl { x with spared := x.spared ++ [set.val] } s.dyn →
    exec (.sliceSparing sl set) s = .next (s.setDyn (if 16 ≤ x.spared.length then
      arbFree a.id (raise 0x0C06 (sl / 12) [sl.val, set.val] s.dyn)
    else arbFree a.id (raise 0x0C0B (sl / 12) [sl.val, set.val]
      (put .hlthScrubStsSpareUsed (sl / 12) (rd d .hlthScrubStsSpareUsed (sl / 12) + 1) d))))) ∧
  (∀ (s : State) (qs : List ActReq), exec (.arbiterRequest qs) s = .next (s.setDyn (serveGrants s.cfg (arbScan (forAll (rankSort qs)
    (fun q d => { d with hlth := { d.hlth with nextAct := d.hlth.nextAct + 1, waiting := arbPut ⟨d.hlth.nextAct, q, d.now, askTag⟩ d.hlth.waiting } }) s.dyn))))) ∧
  (∀ (s : State) (id : Nat), (s.dyn.hlth.running.any fun a => a.id == id && a.tag == askTag) = true →
    exec (.arbiterRelease id) s = .next (s.setDyn (serveGrants s.cfg (arbFree id s.dyn)))) ∧
  (∀ (s : State) (id : Nat) (a : Act) (d : Dyn), s.dyn.hlth.waiting.find? (fun a => a.id == id) = some a →
    (a.q.lostLink = true → exec (.arbAbandon id) s = .next s) ∧
    (a.q.lostLink = false → a.at0 + 100000000 ≤ s.dyn.now →
      d = { s.dyn with hlth := { s.dyn.hlth with waiting := dropOne a s.dyn.hlth.waiting } } →
      exec (.arbAbandon id) s = .next (s.setDyn (serveGrants s.cfg (arbScan (abandon s.cfg a
        (raise 0x0C08 (leadOr0 d) [a.q.code.val] (bump .hlthArbStsAbandoned 0 1 d))))))))

/-- REPLAN, PLAN_DONE, the AV commands and the re-equalisation commands complete (R413, R470, R473, R474, R475, R476). -/
def Obligations.AgeingCommandsComplete : Prop :=
  (∀ (s : State) (m : Monitors) (d e f : Dyn) (mine : List Nat), rd s.dyn .secBootStsStage 0 = 8 → s.dyn.hlth.planOpen = false →
    s.dyn.hlth.planAt ≤ s.dyn.now → d = forAll (List.range 8) (noteAge s.cfg m) s.dyn →
    e = planKick (planReeq s.cfg m (planBegin s.cfg m d)) →
    f = (if cg s.cfg .hlthCtlAvEn 0 = 0 then e else forAll (List.range 8) (planAv s.cfg m) e) →
    mine = (List.range (f.hlth.nextAct - d.hlth.nextAct)).map (fun k => d.hlth.nextAct + k) →
    exec (.replan m) s = .next (s.setDyn (serveGrants s.cfg (nvPut (.plan ⟨m, (List.range 8).map (fun r => rd f .hlthVregVset r),
      ((f.hlth.running ++ f.hlth.waiting).filter fun a => mine.contains a.id).map Act.q⟩) { f with hlth := { f.hlth with planActs := mine } })))) ∧
  (∀ (s : State) (d : Dyn), d = planKick s.dyn → d.hlth.planOpen = true → d.hlth.planSwaps = [] →
    (d.hlth.planActs.any fun id => arbKnown d id) = false → exec .planDone s = .next (s.setDyn
      (raise 0x0C01 (leadOr0 d) [] { d with hlth := { d.hlth with planOpen := false, planActs := [] } }))) ∧
  (∀ (s : State) (r : Region) (a : Act) (v : Nat),
    s.dyn.hlth.running.find? (fun a => a.q.code == 2 && a.tag / 2 == r.val && !(s.dyn.hlth.avRun.any fun x => x.2.2 == a.id)) = some a →
    regionSleeps s.cfg s.dyn r = false → v = rd s.dyn .hlthVregVset r →
    exec (.avStep r) s = .next (s.setDyn
      (if (if a.tag % 2 = 1 then decide (v + 5 ≤ vMax s.cfg r) else decide (vMin s.cfg r + 5 ≤ v)) then
        put .hlthVregVset r (if a.tag % 2 = 1 then v + 5 else v - 5)
        { s.dyn with hlth := { s.dyn.hlth with avRun := s.dyn.hlth.avRun ++ [(r.val, s.dyn.now, a.id)] } }
      else arbFree a.id (raise 0x0C02 (r / 2) [r.val] (put .hlthVregAtLimit r 1 s.dyn))))) ∧
  (∀ (s : State) (r : Region) (slack : Fin 64) (x : Nat × Nat × Nat), s.dyn.hlth.avRun.find? (fun x => x.1 == r.val) = some x →
    x.2.1 + 50000 ≤ s.dyn.now → (s.dyn.hlth.planOpen = false ∨ s.dyn.hlth.planActs.contains x.2.2 = false) →
    exec (.avStepComplete r slack) s = .next (s.setDyn (serveGrants s.cfg (arbFree x.2.2 (put .hlthAgeSlackPs r (min 255 (5 * slack))
      { s.dyn with hlth := { s.dyn.hlth with avRun := dropOne x s.dyn.hlth.avRun } }))))) ∧
  (∀ (s : State) (r : Region) (slack : Fin 64), rd s.dyn .secBootStsStage 0 = 8 → s.dyn.hlth.planOpen = false → cg s.cfg .hlthCtlAvEn 0 ≠ 0 →
    5 * slack.val < cg s.cfg .hlthSlackEmergPs 0 →
    ((s.dyn.hlth.running ++ s.dyn.hlth.waiting).any fun a => a.q.emerg && a.tag / 2 == r.val) = false →
    ∀ d, d = put .hlthAgeSlackPs r (min 255 (5 * slack)) s.dyn →
    exec (.avEmergency r slack) s = .next (s.setDyn (avAsk s.cfg r true true
      (if rd d .hlthVregVset r + 5 ≤ vMax s.cfg r then raise 0x0C0D (r / 2) [r.val] d else d)))) ∧
  (∀ (s : State) (lp : Lport) (a : Act), runningOf s.dyn 4 lp = some a → (s.dyn.hlth.reeq.any fun x => x.1 == lp.val) = false →
    inL0 s.dyn lp = true → exec (.reequalisation lp) s =
      .next (s.setDyn { s.dyn with hlth := { s.dyn.hlth with reeq := s.dyn.hlth.reeq ++ [(lp.val, s.dyn.now, a.id)] } })) ∧
  (∀ (s : State) (lp : Lport) (x : Nat × Nat × Nat), s.dyn.hlth.reeq.find? (fun x => x.1 == lp.val) = some x → s.dyn.now < x.2.1 + 2000000 →
    lpLinkUp s.dyn lp = true → exec (.reeqDone lp) s = .next (s.setDyn (serveGrants s.cfg (arbFree x.2.2 (raise 0x0C04 (lpDie lp) [lp.val]
      { s.dyn with hlth := { s.dyn.hlth with reeq := dropOne x s.dyn.hlth.reeq } }))))) ∧
  (∀ (s : State) (lp : Lport) (x : Nat × Nat × Nat) (d : Dyn), s.dyn.hlth.reeq.find? (fun x => x.1 == lp.val) = some x →
    x.2.1 + 2000000 ≤ s.dyn.now → d = arbFree x.2.2 { s.dyn with hlth := { s.dyn.hlth with reeq := dropOne x s.dyn.hlth.reeq } } →
    exec (.reeqTimeout lp) s = .next (s.setDyn (serveGrants s.cfg (if lpLinkUp d lp = false then d
      else if isUp s.cfg d lp = true then upLost s.cfg lp d else dpc s.cfg lp 1 false d))))

/-- HEARTBEAT, LEAD_WITHDRAW, LEAD_FAILOVER, MGMT_RELOAD and EVENT_LOG_WRITE complete (R10, R27, R488, R489, R490, R491, R492). -/
def Obligations.LeadAndEventLogCommandsComplete : Prop :=
  (∀ (s : State) (fresh : Bool) (ans : List Die) (k : Nat) (d e : Dyn), leadDie s.dyn = some k → s.dyn.hlth.withdrawn.contains k = false →
    s.dyn.hlth.down.contains k = false → d = emit (.heartbeat k true) { s.dyn with hlth := { s.dyn.hlth with hbWord := s.dyn.now } } →
    e = (if fresh then { d with hlth := { d.hlth with hbLead := d.now } } else d) →
    exec (.heartbeat fresh ans) s = .next (s.setDyn (if ans.any fun j => j.val != k && !e.hlth.down.contains j.val then
      { e with hlth := { e.hlth with hbAns := e.now } } else e))) ∧
  (∀ (s : State) (k : Nat), leadDie s.dyn = some k → s.dyn.hlth.withdrawn.contains k = false → rd s.dyn .secBootStsStage 0 = 8 →
    (s.dyn.hlth.hbLead + 500000 ≤ s.dyn.now ∨ s.dyn.hlth.hbAns + 500000 ≤ s.dyn.now) →
    exec .leadWithdraw s = .next (s.setDyn (withdraw k s.dyn))) ∧
  (∀ (s : State) (k n : Nat) (agree : Die) (sb : Option Nat), leadDie s.dyn = some k → rd s.dyn .secBootStsStage 0 = 8 →
    s.dyn.hlth.hbWord + 1000000 ≤ s.dyn.now → sb = (standbyDie (withdraw k s.dyn)).filter (fun j => dieHealthy (withdraw k s.dyn) j) →
    (if sb.isSome then sb else nextHealthy (withdraw k s.dyn) k) = some n → agree.val ≠ k → agree.val ≠ n →
    dieHealthy (withdraw k s.dyn) agree = true →
    exec (.leadFailover agree) s = .next (s.setDyn (heldRun s.cfg (fwDies (takeOver s.cfg k n sb.isNone (withdraw k s.dyn)))))) ∧
  (∀ (s : State) (k : Die) (d : Dyn), (s.dyn.hlth.down.contains k.val = true ∨ s.dyn.hlth.withdrawn.contains k.val = true) →
    regFail s.dyn (2 * k.val) = false → (flashSource s.dyn).isNone = false → leadDie s.dyn ≠ some k.val →
    d = mgmtBack k s.dyn →
    (∀ l, leadDie d = some l → standbyDie d = none → exec (.mgmtReload k) s = .next (s.setDyn (setStandby s.cfg l d))) ∧
    ((standbyDie d).isSome = true → exec (.mgmtReload k) s = .next (s.setDyn d))) ∧
  (∀ (s : State) (d : Dyn), d = elogFill s.dyn →
    (d.ev = [] → exec .eventLogWrite s = .next (s.setDyn d)) ∧
    (∀ e t, d.ev = e :: t → d.hlth.elogTok ≠ 0 → (leadDie d).isSome = true →
      exec .eventLogWrite s = .next (s.setDyn (nvPut (.ev e) { d with ev := t, hlth := { d.hlth with elogTok := d.hlth.elogTok - 1 } }))))

/-- The commands of the Ranger and the expiries of its unlock and lockout complete (R519, R520, R521, R522, R523, R524, R525). -/
def Obligations.RangerCommandsComplete : Prop :=
  (∀ (s : State) (die : Die) (topic : Option (Fin 10)), rangerUp s.dyn die false = true → exec (.help die topic) s = .next (s.setDyn
    (emit (.ranger die "help id ports slot counters log margin rd wr trace" (topic.toList.map fun t => t.val)) s.dyn))) ∧
  (∀ (s : State) (die : Die), rangerUp s.dyn die true = true →
    exec (.id die) s = .next (s.setDyn (emit (.ranger die "id" (idWordsOf s.cfg s.dyn die)) s.dyn))) ∧
  (∀ (s : State) (die : Die) (lp : Option Lport), rangerUp s.dyn die false = true →
    exec (.ports die lp) s = .next (s.setDyn (emit (.ranger die "ports"
      (((List.range 192).filter fun k => k / 48 == die.val && lpExists s.cfg k && (lp.map fun x => x.val == k).getD true).flatMap fun k =>
        [k, lpRole s.cfg s.dyn k, lpBind s.cfg k] ++ peeks s.cfg die [0x800000 + 0x10000 * (k / 4 % 12) + 16 * (k % 4) + 0x100,
          0x800000 + 0x10000 * (k / 4 % 12) + 16 * (k % 4) + 0x104] s.dyn)) s.dyn))) ∧
  (∀ (s : State) (die : Die) (ch : Option (Fin 12)), rangerUp s.dyn die false = true →
    exec (.slot die ch) s = .next (s.setDyn (emit (.ranger die "slot"
      (((List.range 12).filter fun k => (ch.map fun x => x.val == k).getD true).flatMap fun k => k :: peeks s.cfg die
        [0x2000000 + 0x10000 * k + 0x10, 0x2000000 + 0x10000 * k + 0x14, 0x2000000 + 0x10000 * k + 0x18] s.dyn)) s.dyn))) ∧
  (∀ (s : State) (die : Die) (i : Fin 1024) (n : Option (Fin 65)) (r : List Nat × Dyn), rangerUp s.dyn die false = true →
    r = ctrDump s.cfg die i (match n with
      | some k => k.val
      | none => 1) s.dyn → exec (.counters die i n) s = .next (s.setDyn (emit (.ranger die "counters" r.1) r.2))) ∧
  (∀ (s : State) (die : Die) (n : Option Nat) (l : List Ev), rangerUp s.dyn die true = true → l = s.dyn.hlth.elog ++ s.dyn.ev →
    exec (.log die n) s = .next (s.setDyn (emit (.ranger die "log" ((l.drop (l.length - n.getD 16)).flatMap evWords)) s.dyn))) ∧
  (∀ (s : State) (die : Die) (lp : Option Lport) (ep : Option Ep) (r : List Nat × Dyn), rangerUp s.dyn die false = true →
    r = eyeWords s.cfg die (.ranger die) lp.isNone (ep.map Fin.val) s.dyn →
    exec (.margin die lp ep) s = .next (s.setDyn (emit (.ranger die "margin"
      (r.1 ++ lastMargin s.cfg s.dyn (lp.map Fin.val) (ep.map Fin.val))) r.2))) ∧
  (∀ (s : State) (die : Die) (a : Nat) (n : Fin 65), rangerUp s.dyn die false = true → accessWaits s.cfg s.dyn a = false →
    exec (.rd die a n) s = .next (s.setDyn (emit (.ranger die "rd" (csrReads s.cfg (.ranger die) true a n s.dyn).1)
      (csrReads s.cfg (.ranger die) true a n s.dyn).2))) ∧
  (∀ (s : State) (die : Die) (a : Nat) (vs : List Word) (ws as : List Nat) (d : Dyn), rangerUp s.dyn die false = true →
    ws = (vs.take 64).map (fun w => w.toNat) → as = (List.range ws.length).map (fun k => a + 4 * k) →
    ((as.all fun x => mayWrite s.cfg s.dyn (.ranger die) x) = false →
      exec (.wr die a vs) s = .next (s.setDyn (emit (.ranger die "locked" []) (bump .mgmtCmdCntRefused die 1 s.dyn)))) ∧
    ((as.all fun x => mayWrite s.cfg s.dyn (.ranger die) x) = true →
      d = (if as.all unlockReg = true then s.dyn else raise 0x0E05 die [die.val, a, ws.headD 0] s.dyn) → accessWaits s.cfg d a = false →
      exec (.wr die a vs) s = .next (s.setDyn (emit (.ranger die "wr" []) (csrWrites s.cfg (.ranger die) a ws d))))) ∧
  (∀ (s : State) (die : Die) (op : TraceOp), rangerUp s.dyn die false = true →
    exec (.trace die op) s = .next (s.setDyn (if mayTrace s.dyn (.ranger die) die = true then traceDo die op s.dyn
      else emit (.ranger die "locked" []) (bump .mgmtCmdCntRefused die 1 s.dyn)))) ∧
  (∀ (s : State) (die : Die) (sigs : Bool), rangerUp s.dyn die false = true →
    exec (.go die sigs) s = .next (s.setDyn (monGo die sigs s.dyn)) ∧ exec (.lock die) s = .next (s.setDyn (monLock die s.dyn))) ∧
  (∀ (s : State) (die : Die), (aget mon0 s.dyn.mon die).until0 ≤ s.dyn.now →
    exec (.unlockExpiry die) s = .next (s.setDyn (monLock die s.dyn))) ∧
  (∀ (s : State) (die : Die), rd s.dyn .monDbgStsLockout die = 1 → (aget mon0 s.dyn.mon die).outEnd ≤ s.dyn.now →
    exec (.lockoutExpiry die) s = .next (s.setDyn (put .monDbgStsLockout die 0 s.dyn)))

/-- The commands of region clocks, time, lead election, cold reset, power loss and sensors complete (R34, R38, R39, R41, R444, R448, R528, R533, R534, R541, R542). -/
def Obligations.ClockResetAndSupplyCommandsComplete : Prop :=
  (∀ (s : State) (r : Region), rgnLock s.dyn r ≠ 0 → regFail s.dyn r = false → exec (.pllUnlock r) s = .next (s.setDyn
    (setRelock r 1 (raise 0x0901 (r / 2) [r.val] (setRgnUnlock r (setRgnLock r 0 s.dyn)))))) ∧
  (∀ (s : State) (r : Region) (n : Nat), relockOf s.dyn r = n → n ≠ 0 →
    exec (.relockAttemptEnd r true) s = .next (s.setDyn (if r.val % 2 = 1 then
      xltDrain s.cfg (r / 2) (setRgnLock r 1 (setRelock r 0 s.dyn)) else setRgnLock r 1 (setRelock r 0 s.dyn))) ∧
    exec (.relockAttemptEnd r false) s = .next (s.setDyn (if n < 3 then setRelock r (n + 1) s.dyn
      else heldRun s.cfg (fwDies (regionFailed s.cfg r (raise 0x0902 (r / 2) [r.val] (setRelock r 0 s.dyn))))))) ∧
  (∀ (s : State) (cyc : List (Fin 64)) (d : Dyn), s.dyn.elec.vin = true → s.dyn.elec.reset = false → s.dyn.elec.trip = false →
    d = forAll (List.range 4) (fun k d => put .dieTstampNs k (copyAt (dieTs d k) d.now (((cyc[k]?).map fun x => x.val).getD 20)) d)
      { s.dyn with now := s.dyn.now + 40 } →
    exec (.timestampTick cyc) s = .next (s.setDyn (serveGrants s.cfg (planKick (tickCounts s.cfg (tickSlots (l0pLate
      (forAll (stsListed d .gklLpbkCtlMode) (fun n d => lpbkCount n d) d)))))))) ∧
  (∀ (s : State), s.dyn.elec.vin = true → s.dyn.elec.reset = false → s.dyn.elec.trip = false → rd s.dyn .secBootStsStage 0 = 0 →
    (flashSource (flashCheck s.dyn) = none → exec .leadElection s = .next (s.setDyn (recovery (flashCheck s.dyn)))) ∧
    (∀ (k : Nat), flashSource (flashCheck s.dyn) = some k →
      exec .leadElection s = .next (s.setDyn (electDie s.cfg k (flashCheck s.dyn))))) ∧
  (∀ (s : State) (low : Nat), low < 100000 → exec (.coldRst low) s = .next s) ∧
  (∀ (s : State) (low : Nat), 1000000 ≤ low → s.dyn.elec.reset = false → s.dyn.elec.trip = false → s.dyn.elec.vin = true →
    exec (.coldRst low) s = .next ⟨arrEmpty, { carry (pinsDown s.cfg s.dyn) with elec := { (carry (pinsDown s.cfg s.dyn)).elec with reset := true } }, s.pending⟩) ∧
  (∀ (s : State) (pkg : Fin 8), s.dyn.elec.reset = true → s.dyn.elec.vin = true →
    exec (.coldRstRelease pkg) s = .next ⟨arrEmpty, romStart pkg { carry s.dyn with elec := { (carry s.dyn).elec with reset := false } }, s.pending⟩) ∧
  (∀ (s : State), s.dyn.elec.vin = true → s.dyn.elec.trip = false →
    exec .powerLoss s = .next ⟨arrEmpty, { carry s.dyn with elec := { (carry s.dyn).elec with vin := false, trip := false, warn := [] } }, s.pending⟩) ∧
  (∀ (s : State) (t aon : List (Fin 256)) (vin iin : Fin 65536) (d f : Dyn), s.dyn.elec.vin = true → s.dyn.elec.trip = false →
    d = sensorsIn s.cfg t vin iin (aonNote aon s.dyn) →
    f = carry (emit (.pin (.thermtrip true)) (pinsDown s.cfg d)) →
    (((hotSensors t).any fun i => d.elec.hot.contains i) = false →
      exec (.sensorRead t aon vin iin) s = .next (s.setDyn { d with elec := { d.elec with hot := hotSensors t } })) ∧
    (((hotSensors t).any fun i => d.elec.hot.contains i) = true →
      exec (.sensorRead t aon vin iin) s = .next ⟨arrEmpty, { f with elec := { f.elec with trip := true } }, s.pending⟩))

/-- A step runs the command at the front of the queue on the queue's rest; an empty queue idles (R10, R510). -/
def Obligations.StepRunsTheFrontCommand : Prop :=
  (∀ (g : Cfg) (d : Dyn) (c : Instr) (rest : List Instr), step ⟨g, d, c :: rest⟩ = exec c ⟨g, d, rest⟩) ∧
  (∀ (g : Cfg) (d : Dyn), step ⟨g, d, []⟩ = .next ⟨g, d, []⟩)

/-- Every command answers a next state and leaves the queue; only a pulse on COLD_RST# of 100 µs to 1 ms stops (R533). -/
def Obligations.EveryCommandAnswersNext : Prop :=
  ∀ (c : Instr) (s : State),
    (pulseUndefined c = false → ∃ t, exec c s = .next t ∧ t.pending = s.pending) ∧
    (pulseUndefined c = true → exec c s = .fault .coldRstUndefined)

/-- No command but those of start, restart and the end of a verified change alters a configuration register (R4, R457, R463, R519). -/
def Obligations.ConfigurationChangesOnlyAtStartOrByAVerifiedChange : Prop :=
  ∀ (c : Instr) (s t : State), writesCfg c = false → exec c s = .next t → t.cfg = s.cfg

/-- From device ready on, no step changes an RWL configuration field as long as the package stays ready (R4, R453, R457, R462, R463, R519). -/
def Obligations.LockedFieldsKeepTheirValueOnceReady : Prop :=
  ∀ (s t : State), ready s = true → step s = .next t → ready t = true →
    ∀ (f : CFld) (i : Nat), cfgAcc f = .rwl → cg t.cfg f i = cg s.cfg f i

/-- Every step keeps the configuration registers in their one form, each field within its width (R3, R5, R453, R457). -/
def Obligations.ConfigurationKeepsItsForm : Prop :=
  ∀ (s t : State), cfgForm s.cfg → step s = .next t → cfgForm t.cfg

/-- After reset every register reads its reset value, no command waits, nothing is stored, sent or logged, and the package is not ready (R3, R207, R441, R533). -/
def Obligations.ResetState : Prop :=
  (∀ (f : CFld) (i : Nat), cg State.reset.cfg f i = cfgReset f i) ∧
  (∀ (f : SFld) (i : Nat), rd State.reset.dyn f i = stsReset f i) ∧
  cfgForm State.reset.cfg ∧ ready State.reset = false ∧ rd State.reset.dyn .secBootStsStage 0 = 0 ∧
  State.reset.pending = [] ∧ State.reset.dyn.ev = [] ∧ State.reset.dyn.hlth.elog = [] ∧ State.reset.dyn.out = [] ∧
  State.reset.dyn.flights = [] ∧ State.reset.dyn.noc.net = [] ∧ State.reset.dyn.xlt.pt = arrEmpty ∧
  State.reset.dyn.alloc.exts = [] ∧ State.reset.dyn.ring.rings = arrEmpty ∧ State.reset.dyn.elec.vin = false ∧
  State.reset.dyn.hlth.running = [] ∧ State.reset.dyn.now = 0

/-- Raising an event keeps the lead's queue in timestamp order and within 1,024 records, and a full queue overwrites its oldest (R9, R492). -/
def Obligations.EventsEnterInTimestampOrder : Prop :=
  ∀ (code die : Nat) (args : List Nat) (d : Dyn), d.ev.length ≤ 1024 → d.ev.Pairwise (fun a b => a.ts ≤ b.ts) →
    (raise code die args d).ev.length ≤ 1024 ∧
    (raise code die args d).ev.Pairwise (fun a b => a.ts ≤ b.ts) ∧
    (d.ev.length < 1024 → (raise code die args d).ev.Perm (⟨dieTs d die, code, die, args⟩ :: d.ev) ∧
      rd (raise code die args d) .hlthElogDropCount 0 = rd d .hlthElogDropCount 0) ∧
    (d.ev.length = 1024 → d.now < d.hlth.lossAt →
      (raise code die args d).ev.Perm (⟨dieTs d die, code, die, args⟩ :: d.ev.drop 1) ∧
      rd (raise code die args d) .hlthElogDropCount 0 = satAdd (stsWidth .hlthElogDropCount) (rd d .hlthElogDropCount 0) 1) ∧
    (d.ev.length = 1024 → d.hlth.lossAt ≤ d.now →
      (⟨dieTs d die, 0x0C0C, die, []⟩ : Ev) ∈ (raise code die args d).ev ∧
      (raise code die args d).hlth.lossAt = d.now + 1000000000 ∧
      rd (raise code die args d) .hlthElogDropCount 0 =
        satAdd (stsWidth .hlthElogDropCount) (satAdd (stsWidth .hlthElogDropCount) (rd d .hlthElogDropCount 0) 1) 1)

/-- A counter counts exactly, stops at 2^48 − 1 with OVF and one event, then holds, and holds while frozen (R495, R498, R500). -/
def Obligations.CountersStopAtTheirMaximumAndFreeze : Prop :=
  ∀ (j n : Nat) (d : Dyn), n ≠ 0 →
    (rd d .pmcCtlFreeze 0 = 1 ∨ rd d .pmcValOvf j = 1 → ctrAdd j n d = d) ∧
    (rd d .pmcCtlFreeze 0 ≠ 1 → rd d .pmcValOvf j ≠ 1 → rd d .pmcValCount j + n ≤ 281474976710655 →
      rd (ctrAdd j n d) .pmcValCount j = rd d .pmcValCount j + n ∧ rd (ctrAdd j n d) .pmcValOvf j = rd d .pmcValOvf j ∧
      (ctrAdd j n d).ev = d.ev) ∧
    (rd d .pmcCtlFreeze 0 ≠ 1 → rd d .pmcValOvf j ≠ 1 → 281474976710655 < rd d .pmcValCount j + n →
      rd (ctrAdd j n d) .pmcValCount j = 281474976710655 ∧ rd (ctrAdd j n d) .pmcValOvf j = 1 ∧
      (d.ev.length < 1024 → (⟨dieTs d (j / 1024), 0x0D01, j / 1024, [j % 1024]⟩ : Ev) ∈ (ctrAdd j n d).ev) ∧
      ∀ m, ctrAdd j m (ctrAdd j n d) = ctrAdd j n d) ∧
    (∀ k, k ≠ j → rd (ctrAdd j n d) .pmcValCount k = rd d .pmcValCount k ∧ rd (ctrAdd j n d) .pmcValOvf k = rd d .pmcValOvf k)

/-- A die's timestamp copy never moves backward at a tick, holds while ahead, and stays within 8 ns of the master (R34, R35). -/
def Obligations.TimestampCopiesFollowTheMaster : Prop :=
  ∀ (c m n : Nat),
    c ≤ copyAt c m n ∧ m ≤ copyAt c m n ∧ (m + 8 ≤ c → copyAt c m n = c) ∧
    (m ≤ c → 40 ≤ m → n ≤ 20 → copyAt c m n = c) ∧
    (c ≤ m → 40 ≤ m → n ≤ 20 → copyAt c m n = m) ∧
    (c ≤ m + 8 → copyAt c m n ≤ m + 8) ∧
    (∀ k, copyAt c m n ≤ copyAt (copyAt c m n) (m + 40) k) ∧
    (c ≤ m + 8 → ∀ k, m + 40 ≤ copyAt (copyAt c m n) (m + 40) k ∧ copyAt (copyAt c m n) (m + 40) k ≤ m + 48)

/-- The arbiter never lets two activities that exclude each other run together, and loses no request (R482, R483, R484, R486). -/
def Obligations.GrantsNeverExcludeEachOther : Prop :=
  ∀ (d : Dyn), actsOk d.hlth.running →
    actsOk (arbScan d).hlth.running ∧
    (d.hlth.running <+: (arbScan d).hlth.running) ∧
    ((arbScan d).hlth.running ++ (arbScan d).hlth.waiting).Perm (d.hlth.running ++ d.hlth.waiting) ∧
    (∀ q tag, actsOk (arbAsk q tag d).2.hlth.running) ∧
    (∀ l, actsOk (arbAskAll l d).hlth.running) ∧
    (∀ id, actsOk (arbFree id d).hlth.running)

/-- The lowest-numbered rule that matches and covers an address decides; with none, the DFLT bit does (R262, R263, R281). -/
def Obligations.LowestMatchingRuleDecides : Prop :=
  ∀ (g : Cfg) (r : Req) (host : Option Nat) (kind addr : Nat), cfgForm g →
    (∀ i, cg g .gateRuleReqV i = 1 → ruleMatch g i r host = true → ruleCovers g i addr = true →
      (∀ j, j < i → cg g .gateRuleReqV j = 1 → ruleMatch g j r host = true → ruleCovers g j addr = false) →
      permits g r host kind addr = bitAt (cg g .gateRuleReqKinds i) kind ∧
      (cg g .gateRuleReqKinds i = 0 → permits g r host kind addr = false)) ∧
    ((∀ i, cg g .gateRuleReqV i = 1 → ruleMatch g i r host = true → ruleCovers g i addr = false) →
      permits g r host kind addr = dfltBit g r.tgt) ∧
    (∀ i, cg g .gateRuleLimitPage i < cg g .gateRuleBasePage i ∨ cg g .gateRuleTgtTkind i = 3 → ruleMatch g i r host = false)

/-- The policer colours a request by the two buckets and takes tokens only for the colours that R297 names (R297, R298, R300). -/
def Obligations.PolicerColoursAndBuckets : Prop :=
  (∀ (aware : Bool) (pre b tc tp : Nat), 0 < b →
    (tp < b → policeMark aware pre b tc tp = (2, tc, tp)) ∧
    (aware = true → 2 ≤ pre → policeMark aware pre b tc tp = (2, tc, tp)) ∧
    (b ≤ tp → (aware = false ∨ pre ≤ 1) → (tc < b ∨ (aware = true ∧ pre = 1)) → policeMark aware pre b tc tp = (1, tc, tp - b)) ∧
    (b ≤ tp → b ≤ tc → (aware = false ∨ pre = 0) → policeMark aware pre b tc tp = (0, tc - b, tp - b))) ∧
  (∀ (aware : Bool) (pre tc tp : Nat), policeMark aware pre 0 tc tp = (0, tc, tp)) ∧
  (∀ (g : Cfg) (h : Nat), cg g .qosPolPirPir h < cg g .qosPolRateCir h → pirOf g h = cg g .qosPolRateCir h) ∧
  (∀ (g : Cfg) (h : Nat), cg g .qosPolRateCir h ≤ cg g .qosPolPirPir h → pirOf g h = cg g .qosPolPirPir h) ∧
  (∀ (g : Cfg) (h : Nat), cg g .qosPolBktCbs h = 0 → cbsOf g h = 1024) ∧
  (∀ (g : Cfg) (h : Nat), cg g .qosPolBktPbs h = 0 → pbsOf g h = 1024)

/-- A shared key's home is one of the die's 48 slices of the package, and set and tag together name one key (R228, R229). -/
def Obligations.SharedKeysHaveOneHomeAndPlace : Prop :=
  (∀ key : Nat, homeSlice key < 48 ∧ keySet key < 16384) ∧
  (∀ a b : Nat, keyTag a = keyTag b → keySet a = keySet b → a = b)

/-- A CSR access that is misaligned, not 32 bits wide or above 0x4FFF_FFFF reads as ones and writes nothing (R6, R11). -/
def Obligations.AccessesOutsideTheMapHaveNoEffect : Prop :=
  ∀ (s : State) (p : Sys2Proof.Path) (a n : Nat) (v : Word), (n ≠ 4 ∨ a % 4 ≠ 0 ∨ 0x4FFFFFFF < a) →
    (∀ peek, csrRead s.cfg p peek a n s.dyn = (0xFFFFFFFF, s.dyn)) ∧ csrWrite s.cfg p a n v.toNat s.dyn = s.dyn ∧
    (accessWaits s.cfg s.dyn a = false ∨ 0x4FFFFFFF < a → mayWrite s.cfg s.dyn p a = true → exec (.registerWrite p a n v) s = .next s) ∧
    (accessWaits s.cfg s.dyn a = false ∨ 0x4FFFFFFF < a → mayRead s.cfg s.dyn p = true →
      exec (.highWordLatchRead p a n) s = .next (s.setDyn (emit (.csrData p [0xFFFFFFFF]) s.dyn)) ∧
      exec (.readClear p a n) s = .next (s.setDyn (emit (.csrData p [0xFFFFFFFF]) s.dyn)))

/-- A package-wide register is written only through the global alias and reads the same through every window (R508). -/
def Obligations.PackageWideRegistersAnswerThroughTheAlias : Prop :=
  ∀ (s : State) (p : Sys2Proof.Path) (die : Die) (off : Nat) (v : Word) (r : RegAt), off < 2 ^ 28 → off % 4 = 0 →
    regAt off = some r → r.row.perDie = false → mgmtAnswers s.dyn die = true →
    csrWrite s.cfg p (die * 2 ^ 28 + off) 4 v.toNat s.dyn = bump .mgmtPathStsMisdirect die 1 s.dyn ∧
    (accessWaits s.cfg s.dyn (die * 2 ^ 28 + off) = false → mayWrite s.cfg s.dyn p (die * 2 ^ 28 + off) = true →
      exec (.registerWrite p (die * 2 ^ 28 + off) 4 v) s = .next (s.setDyn (bump .mgmtPathStsMisdirect die 1 s.dyn))) ∧
    (mgmtAnswers s.dyn (leadOr0 s.dyn) = true →
      csrWrite s.cfg p (0x40000000 + off) 4 v.toNat s.dyn = regWrite s.cfg p r (leadOr0 s.dyn) v.toNat s.dyn ∧
      ∀ peek, (csrRead s.cfg p peek (die * 2 ^ 28 + off) 4 s.dyn).1 = (csrRead s.cfg p peek (0x40000000 + off) 4 s.dyn).1)

/-- At lead election the lowest die whose flash passes its check becomes lead; with none the package is in RECOVERY (R27, R443, R444, R446). -/
def Obligations.LowestPassingFlashLeads : Prop :=
  ∀ (s : State) (fl : Fin 4 → FlashIn), s.dyn.boot.flash = [fl 0, fl 1, fl 2, fl 3] → s.dyn.elec.vin = true → s.dyn.elec.reset = false →
    s.dyn.elec.trip = false → rd s.dyn .secBootStsStage 0 = 0 → (∀ r, r < 8 → regFail s.dyn r = false) → s.dyn.alloc.journal = [] →
    (∀ k : Fin 4, flashPass (fl k) = true → (∀ j : Fin 4, j < k → flashPass (fl j) = false) →
      ∃ t, exec .leadElection s = .next t ∧ (∀ j : Fin 4, rd t.dyn .dieDieIdLead j = if j = k then 1 else 0) ∧
        rd t.dyn .secBootStsStage 0 = 2 ∧ rd t.dyn .secBootStsLead0 0 = k) ∧
    ((∀ k : Fin 4, flashPass (fl k) = false) →
      ∃ t, exec .leadElection s = .next t ∧ rd t.dyn .secBootStsStage 0 = 15)

/-- CA_SEL and NF_TRIG of a passthrough port follow what its host writes to the bound vPPB's DPC control (R94). -/
def Obligations.HostDpcSettingsReachTheBoundPort : Prop :=
  (∀ (d : Dyn) (v k : Nat) (ca nf : Bool) (b : Bnd), d.alloc.bnds.find? (fun b => b.vcs == v && b.vppb == k) = some b →
    rd (dpcHostSet v k ca nf d) .portContCaSel b.lport = b2n ca ∧ rd (dpcHostSet v k ca nf d) .portContNfTrig b.lport = b2n nf ∧
    (∀ lp, lp ≠ b.lport → rd (dpcHostSet v k ca nf d) .portContCaSel lp = rd d .portContCaSel lp ∧
      rd (dpcHostSet v k ca nf d) .portContNfTrig lp = rd d .portContNfTrig lp) ∧
    (dpcHostSet v k ca nf d).alloc = d.alloc ∧ (dpcHostSet v k ca nf d).ev = d.ev) ∧
  (∀ (d : Dyn) (v k lp : Nat), aget 0 d.port.dpcCtl (v * 32 + k) = 0 → dpcFollow v k lp d = d)
end

