-- ==== Sys2Proof/Laws/Arr.lean ====
section
/-! SUPPORT. What reading a sparse array gives after a write, and that every write keeps the canonical form. -/

namespace Sys2Proof
namespace Machine

variable {α : Type}

theorem cellsFind_drop_same (k : Nat) (l : List (Nat × α)) : cellsFind k (cellsDrop k l) = none := by
  induction l with
  | nil => rfl
  | cons c t ih => by_cases h : c.1 = k <;> simp [cellsDrop, cellsFind, h, ih]

theorem cellsFind_drop_ne {j k : Nat} (h : j ≠ k) (l : List (Nat × α)) : cellsFind j (cellsDrop k l) = cellsFind j l := by
  induction l with
  | nil => rfl
  | cons c t ih =>
    by_cases hk : c.1 = k
    · have : ¬ k = j := fun e => h e.symm
      simp [cellsDrop, cellsFind, hk, ih, this]
    · by_cases hj : c.1 = j
      · simp [cellsDrop, cellsFind, hj, h]
      · simp [cellsDrop, cellsFind, hk, hj, ih]

theorem cellsFind_put_same (k : Nat) (v : α) (l : List (Nat × α)) (h : cellsFind k l = none) :
    cellsFind k (cellsPut k v l) = some v := by
  induction l with
  | nil => simp [cellsPut, cellsFind]
  | cons c t ih =>
    by_cases hk : c.1 = k
    · simp [cellsFind, hk] at h
    · by_cases hl : k < c.1
      · simp [cellsPut, cellsFind, hl]
      · simp only [cellsFind, hk, if_false] at h
        simp [cellsPut, cellsFind, hl, hk, ih h]

theorem cellsFind_put_ne {j k : Nat} (hne : j ≠ k) (v : α) (l : List (Nat × α)) :
    cellsFind j (cellsPut k v l) = cellsFind j l := by
  have hk : ¬ k = j := fun e => hne e.symm
  induction l with
  | nil => simp [cellsPut, cellsFind, hk]
  | cons c t ih =>
    by_cases hl : k < c.1
    · simp [cellsPut, cellsFind, hl, hk]
    · rw [cellsPut, if_neg hl]
      by_cases hj : c.1 = j
      · simp [cellsFind, hj]
      · simp [cellsFind, hj, ih]

/-- A key reads as what was last written to it. -/
@[simp] theorem aget_aset_same [DecidableEq α] (d : α) (a : Arr α) (k : Nat) (v : α) : aget d (aset d a k v) k = v := by
  by_cases h : v = d
  · simp [aset, aget, h, cellsFind_drop_same]
  · simp [aset, aget, h, cellsFind_put_same k v _ (cellsFind_drop_same k a.cells)]

/-- A write leaves every other key as it was. -/
theorem aget_aset_ne [DecidableEq α] (d d' : α) (a : Arr α) {j k : Nat} (h : j ≠ k) (v : α) :
    aget d (aset d' a k v) j = aget d a j := by
  by_cases hv : v = d'
  · simp [aset, aget, hv, cellsFind_drop_ne h]
  · simp [aset, aget, hv, cellsFind_put_ne h, cellsFind_drop_ne h]

/-- A removed key reads as the default. -/
@[simp] theorem aget_adel_same (d : α) (a : Arr α) (k : Nat) : aget d (adel a k) k = d := by
  simp [aget, adel, cellsFind_drop_same]

/-- Removing a key leaves every other key as it was. -/
theorem aget_adel_ne (d : α) (a : Arr α) {j k : Nat} (h : j ≠ k) : aget d (adel a k) j = aget d a j := by
  simp [aget, adel, cellsFind_drop_ne h]

/-- An array that lists nothing reads as the default everywhere. -/
@[simp] theorem aget_arrEmpty (d : α) (k : Nat) : aget d (arrEmpty : Arr α) k = d := rfl

theorem cellsSorted_mono {lo hi : Nat} (h : lo ≤ hi) (l : List (Nat × α)) (hs : cellsSorted hi l = true) :
    cellsSorted lo l = true := by
  cases l with
  | nil => rfl
  | cons c t =>
    simp only [cellsSorted, Bool.and_eq_true, decide_eq_true_eq] at hs ⊢
    exact ⟨by omega, hs.2⟩

theorem cellsSorted_drop (lo k : Nat) (l : List (Nat × α)) (hs : cellsSorted lo l = true) :
    cellsSorted lo (cellsDrop k l) = true := by
  induction l generalizing lo with
  | nil => rfl
  | cons c t ih =>
    simp only [cellsSorted, Bool.and_eq_true, decide_eq_true_eq] at hs
    by_cases hk : c.1 = k
    · simp only [cellsDrop, hk, if_true]
      exact cellsSorted_mono (by omega) _ (ih _ hs.2)
    · simp only [cellsDrop, hk, if_false, cellsSorted, Bool.and_eq_true, decide_eq_true_eq]
      exact ⟨hs.1, ih _ hs.2⟩

theorem cellsSorted_put (lo k : Nat) (v : α) (l : List (Nat × α)) (hlo : lo ≤ k) (hs : cellsSorted lo l = true)
    (hk : cellsFind k l = none) : cellsSorted lo (cellsPut k v l) = true := by
  induction l generalizing lo with
  | nil => simpa [cellsPut, cellsSorted] using hlo
  | cons c t ih =>
    simp only [cellsSorted, Bool.and_eq_true, decide_eq_true_eq] at hs
    have hc : ¬ c.1 = k := by intro e; simp [cellsFind, e] at hk
    simp only [cellsFind, hc, if_false] at hk
    by_cases hl : k < c.1
    · simp only [cellsPut, hl, if_true, cellsSorted, Bool.and_eq_true, decide_eq_true_eq]
      exact ⟨hlo, by omega, hs.2⟩
    · simp only [cellsPut, hl, if_false, cellsSorted, Bool.and_eq_true, decide_eq_true_eq]
      exact ⟨hs.1, ih _ (by omega) hs.2 hk⟩

theorem mem_cellsDrop {k : Nat} {l : List (Nat × α)} {c : Nat × α} (h : c ∈ cellsDrop k l) : c ∈ l := by
  induction l with
  | nil => simp [cellsDrop] at h
  | cons x t ih =>
    by_cases hk : x.1 = k
    · simp only [cellsDrop, hk, if_true] at h
      exact List.mem_cons_of_mem _ (ih h)
    · simp only [cellsDrop, hk, if_false, List.mem_cons] at h
      rcases h with h | h
      · simp [h]
      · exact List.mem_cons_of_mem _ (ih h)

theorem mem_cellsPut {k : Nat} {v : α} {l : List (Nat × α)} {c : Nat × α} (h : c ∈ cellsPut k v l) : c = (k, v) ∨ c ∈ l := by
  induction l with
  | nil => simpa [cellsPut] using h
  | cons x t ih =>
    by_cases hk : k < x.1
    · simpa [cellsPut, hk] using h
    · simp only [cellsPut, hk, if_false, List.mem_cons] at h
      rcases h with h | h
      · simp [h]
      · rcases ih h with h | h
        · exact .inl h
        · exact .inr (List.mem_cons_of_mem _ h)

/-- Every write keeps the canonical form. -/
theorem awf_aset [DecidableEq α] (d : Nat → α) (a : Arr α) (k : Nat) (v : α) (h : awf d a = true) :
    awf d (aset (d k) a k v) = true := by
  simp only [awf, Bool.and_eq_true, List.all_eq_true, decide_eq_true_eq] at h ⊢
  by_cases hv : v = d k
  · simp only [aset, hv, if_true]
    exact ⟨cellsSorted_drop 0 k _ h.1, fun c hc => h.2 c (mem_cellsDrop hc)⟩
  · simp only [aset, hv, if_false]
    refine ⟨cellsSorted_put 0 k v _ (Nat.zero_le _) (cellsSorted_drop 0 k _ h.1) (cellsFind_drop_same k _), fun c hc => ?_⟩
    rcases mem_cellsPut hc with rfl | hc
    · exact hv
    · exact h.2 c (mem_cellsDrop hc)

/-- Removing a cell keeps the canonical form. -/
theorem awf_adel [DecidableEq α] (d : Nat → α) (a : Arr α) (k : Nat) (h : awf d a = true) : awf d (adel a k) = true := by
  simp only [awf, adel, Bool.and_eq_true, List.all_eq_true, decide_eq_true_eq] at h ⊢
  exact ⟨cellsSorted_drop 0 k _ h.1, fun c hc => h.2 c (mem_cellsDrop hc)⟩

/-- The array that lists nothing is in canonical form. -/
theorem awf_arrEmpty [DecidableEq α] (d : Nat → α) : awf d (arrEmpty : Arr α) = true := rfl

end Machine
end Sys2Proof
end

