-- ==== Sys2Proof/Laws/Regs.lean ====
section
/-! SUPPORT. Reading a register field after a write: the same field gives the value cut to its width, every other field what
it held. -/

namespace Sys2Proof
namespace Machine

theorem sfld_idx_lt (f : SFld) : f.ctorIdx < 1024 := by cases f <;> decide

theorem cfld_idx_lt (f : CFld) : f.ctorIdx < 1024 := by cases f <;> decide

theorem sfld_idx_inj {f g : SFld} (h : f.ctorIdx = g.ctorIdx) : f = g := by
  rw [← SFld.ofNat_ctorIdx f, h, SFld.ofNat_ctorIdx]

theorem cfld_idx_inj {f g : CFld} (h : f.ctorIdx = g.ctorIdx) : f = g := by
  rw [← CFld.ofNat_ctorIdx f, h, CFld.ofNat_ctorIdx]

/-- Fields of status registers have keys of their own. -/
theorem sKey_inj {f g : SFld} {i j : Nat} : sKey f i = sKey g j ↔ f = g ∧ i = j := by
  constructor
  · intro h
    have hf := sfld_idx_lt f
    have hg := sfld_idx_lt g
    simp only [sKey] at h
    have hij : i = j := by omega
    exact ⟨sfld_idx_inj (by omega), hij⟩
  · rintro ⟨rfl, rfl⟩; rfl

/-- Fields of configuration registers have keys of their own. -/
theorem cKey_inj {f g : CFld} {i j : Nat} : cKey f i = cKey g j ↔ f = g ∧ i = j := by
  constructor
  · intro h
    have hf := cfld_idx_lt f
    have hg := cfld_idx_lt g
    simp only [cKey] at h
    have hij : i = j := by omega
    exact ⟨cfld_idx_inj (by omega), hij⟩
  · rintro ⟨rfl, rfl⟩; rfl

/-- A status field reads as the value written, cut to its width. -/
@[simp] theorem rd_put_same (f : SFld) (i v : Nat) (d : Dyn) : rd (put f i v d) f i = v % 2 ^ stsWidth f := by
  simp [rd, put]

/-- Writing a status field leaves every other status field as it was. -/
theorem rd_put_ne {f g : SFld} {i j : Nat} (h : ¬ (g = f ∧ j = i)) (v : Nat) (d : Dyn) : rd (put f i v d) g j = rd d g j := by
  simp only [rd, put]
  exact aget_aset_ne _ _ _ (fun e => h (sKey_inj.mp e)) _

/-- Writing another field. -/
@[simp] theorem rd_put_fld {f g : SFld} (h : g ≠ f) (i j v : Nat) (d : Dyn) : rd (put f i v d) g j = rd d g j :=
  rd_put_ne (fun e => h e.1) v d

/-- Writing the field at another index. -/
@[simp] theorem rd_put_idx {i j : Nat} (h : j ≠ i) (f : SFld) (v : Nat) (d : Dyn) : rd (put f i v d) f j = rd d f j :=
  rd_put_ne (fun e => h e.2) v d

/-- A configuration field reads as the value written, cut to its width. -/
@[simp] theorem cg_cput_same (f : CFld) (i v : Nat) (g : Cfg) : cg (cput f i v g) f i = v % 2 ^ cfgWidth f := by
  simp [cg, cput]

/-- Writing a configuration field leaves every other as it was. -/
theorem cg_cput_ne {f h : CFld} {i j : Nat} (hne : ¬ (h = f ∧ j = i)) (v : Nat) (g : Cfg) : cg (cput f i v g) h j = cg g h j := by
  simp only [cg, cput]
  exact aget_aset_ne _ _ _ (fun e => hne (cKey_inj.mp e)) _

/-- A status counter after an addition. -/
theorem rd_bump_same (f : SFld) (i n : Nat) (d : Dyn) :
    rd (bump f i n d) f i = satAdd (stsWidth f) (rd d f i) n := by
  have h : satAdd (stsWidth f) (rd d f i) n < 2 ^ stsWidth f := by
    have := Nat.two_pow_pos (stsWidth f)
    simp only [satAdd]; omega
  simp [bump, Nat.mod_eq_of_lt h]

/-- Adding to a counter leaves every other field as it was. -/
theorem rd_bump_ne {f g : SFld} {i j : Nat} (h : ¬ (g = f ∧ j = i)) (n : Nat) (d : Dyn) : rd (bump f i n d) g j = rd d g j :=
  rd_put_ne h _ d

/-- Adding to another counter. -/
@[simp] theorem rd_bump_fld {f g : SFld} (h : g ≠ f) (i j n : Nat) (d : Dyn) : rd (bump f i n d) g j = rd d g j :=
  rd_bump_ne (fun e => h e.1) n d

/-- Setting a bit of another field. -/
@[simp] theorem rd_putBit_fld {f g : SFld} (h : g ≠ f) (i j k : Nat) (b : Bool) (d : Dyn) :
    rd (putBit f i k b d) g j = rd d g j :=
  rd_put_ne (fun e => h e.1) _ d

/-- Sending a message leaves every field as it was. -/
@[simp] theorem rd_emit (o : Out) (d : Dyn) (f : SFld) (i : Nat) : rd (emit o d) f i = rd d f i := rfl

/-- Raising an event leaves every field but the loss counter as it was. -/
@[simp] theorem rd_raise {f : SFld} (h : f ≠ .hlthElogDropCount) (i code die : Nat) (args : List Nat) (d : Dyn) :
    rd (raise code die args d) f i = rd d f i := by
  simp only [raise]
  split
  · rfl
  · split
    · exact rd_put_ne (fun e => h e.1) _ _
    · exact (rd_put_ne (fun e => h e.1) _ _).trans (rd_put_ne (fun e => h e.1) _ _)

end Machine
end Sys2Proof
end

