-- ==== Sys2Proof/Laws/State.lean ====
section
/-! SUPPORT. One lemma per part of the state per named update: what the update leaves as it was, and the two forms an outcome
takes. No later proof unfolds a record update. -/

namespace Sys2Proof
namespace Machine

variable (d : Dyn)

/-- A field reads from the status registers alone. -/
@[simp] theorem rd_mk (now1 ev1 out1 free1 gate1 qos1 flights1 fwd1 mir1 xlt1 alloc1 coh1 port1 noc1 ring1 hlth1 boot1 gkl1 sys1 pwr1 slot1 cnt1 mgmt1 mon1 elec1) (f : SFld) (i : Nat) :
    rd ⟨d.sts, now1, ev1, out1, free1, gate1, qos1, flights1, fwd1, mir1, xlt1, alloc1, coh1, port1, noc1, ring1, hlth1, boot1, gkl1, sys1, pwr1, slot1, cnt1, mgmt1, mon1, elec1⟩ f i = rd d f i := rfl

@[simp] theorem put_now (f : SFld) (i v : Nat) : (put f i v d).now = d.now := rfl
@[simp] theorem put_ev (f : SFld) (i v : Nat) : (put f i v d).ev = d.ev := rfl
@[simp] theorem put_out (f : SFld) (i v : Nat) : (put f i v d).out = d.out := rfl
@[simp] theorem put_free (f : SFld) (i v : Nat) : (put f i v d).free = d.free := rfl
@[simp] theorem put_gate (f : SFld) (i v : Nat) : (put f i v d).gate = d.gate := rfl
@[simp] theorem put_qos (f : SFld) (i v : Nat) : (put f i v d).qos = d.qos := rfl
@[simp] theorem put_flights (f : SFld) (i v : Nat) : (put f i v d).flights = d.flights := rfl
@[simp] theorem put_fwd (f : SFld) (i v : Nat) : (put f i v d).fwd = d.fwd := rfl
@[simp] theorem put_mir (f : SFld) (i v : Nat) : (put f i v d).mir = d.mir := rfl
@[simp] theorem put_xlt (f : SFld) (i v : Nat) : (put f i v d).xlt = d.xlt := rfl
@[simp] theorem put_alloc (f : SFld) (i v : Nat) : (put f i v d).alloc = d.alloc := rfl
@[simp] theorem put_coh (f : SFld) (i v : Nat) : (put f i v d).coh = d.coh := rfl
@[simp] theorem put_port (f : SFld) (i v : Nat) : (put f i v d).port = d.port := rfl
@[simp] theorem put_noc (f : SFld) (i v : Nat) : (put f i v d).noc = d.noc := rfl
@[simp] theorem put_ring (f : SFld) (i v : Nat) : (put f i v d).ring = d.ring := rfl
@[simp] theorem put_hlth (f : SFld) (i v : Nat) : (put f i v d).hlth = d.hlth := rfl
@[simp] theorem put_boot (f : SFld) (i v : Nat) : (put f i v d).boot = d.boot := rfl
@[simp] theorem put_gkl (f : SFld) (i v : Nat) : (put f i v d).gkl = d.gkl := rfl
@[simp] theorem put_sys (f : SFld) (i v : Nat) : (put f i v d).sys = d.sys := rfl
@[simp] theorem put_pwr (f : SFld) (i v : Nat) : (put f i v d).pwr = d.pwr := rfl
@[simp] theorem put_slot (f : SFld) (i v : Nat) : (put f i v d).slot = d.slot := rfl
@[simp] theorem put_cnt (f : SFld) (i v : Nat) : (put f i v d).cnt = d.cnt := rfl
@[simp] theorem put_mgmt (f : SFld) (i v : Nat) : (put f i v d).mgmt = d.mgmt := rfl
@[simp] theorem put_mon (f : SFld) (i v : Nat) : (put f i v d).mon = d.mon := rfl
@[simp] theorem put_elec (f : SFld) (i v : Nat) : (put f i v d).elec = d.elec := rfl

@[simp] theorem bump_now (f : SFld) (i n : Nat) : (bump f i n d).now = d.now := rfl
@[simp] theorem bump_ev (f : SFld) (i n : Nat) : (bump f i n d).ev = d.ev := rfl
@[simp] theorem bump_out (f : SFld) (i n : Nat) : (bump f i n d).out = d.out := rfl
@[simp] theorem bump_free (f : SFld) (i n : Nat) : (bump f i n d).free = d.free := rfl
@[simp] theorem bump_gate (f : SFld) (i n : Nat) : (bump f i n d).gate = d.gate := rfl
@[simp] theorem bump_qos (f : SFld) (i n : Nat) : (bump f i n d).qos = d.qos := rfl
@[simp] theorem bump_flights (f : SFld) (i n : Nat) : (bump f i n d).flights = d.flights := rfl
@[simp] theorem bump_fwd (f : SFld) (i n : Nat) : (bump f i n d).fwd = d.fwd := rfl
@[simp] theorem bump_mir (f : SFld) (i n : Nat) : (bump f i n d).mir = d.mir := rfl
@[simp] theorem bump_xlt (f : SFld) (i n : Nat) : (bump f i n d).xlt = d.xlt := rfl
@[simp] theorem bump_alloc (f : SFld) (i n : Nat) : (bump f i n d).alloc = d.alloc := rfl
@[simp] theorem bump_coh (f : SFld) (i n : Nat) : (bump f i n d).coh = d.coh := rfl
@[simp] theorem bump_port (f : SFld) (i n : Nat) : (bump f i n d).port = d.port := rfl
@[simp] theorem bump_noc (f : SFld) (i n : Nat) : (bump f i n d).noc = d.noc := rfl
@[simp] theorem bump_ring (f : SFld) (i n : Nat) : (bump f i n d).ring = d.ring := rfl
@[simp] theorem bump_hlth (f : SFld) (i n : Nat) : (bump f i n d).hlth = d.hlth := rfl
@[simp] theorem bump_boot (f : SFld) (i n : Nat) : (bump f i n d).boot = d.boot := rfl
@[simp] theorem bump_gkl (f : SFld) (i n : Nat) : (bump f i n d).gkl = d.gkl := rfl
@[simp] theorem bump_sys (f : SFld) (i n : Nat) : (bump f i n d).sys = d.sys := rfl
@[simp] theorem bump_pwr (f : SFld) (i n : Nat) : (bump f i n d).pwr = d.pwr := rfl
@[simp] theorem bump_slot (f : SFld) (i n : Nat) : (bump f i n d).slot = d.slot := rfl
@[simp] theorem bump_cnt (f : SFld) (i n : Nat) : (bump f i n d).cnt = d.cnt := rfl
@[simp] theorem bump_mgmt (f : SFld) (i n : Nat) : (bump f i n d).mgmt = d.mgmt := rfl
@[simp] theorem bump_mon (f : SFld) (i n : Nat) : (bump f i n d).mon = d.mon := rfl
@[simp] theorem bump_elec (f : SFld) (i n : Nat) : (bump f i n d).elec = d.elec := rfl

@[simp] theorem peak_now (f : SFld) (i v : Nat) : (peak f i v d).now = d.now := rfl
@[simp] theorem peak_ev (f : SFld) (i v : Nat) : (peak f i v d).ev = d.ev := rfl
@[simp] theorem peak_out (f : SFld) (i v : Nat) : (peak f i v d).out = d.out := rfl
@[simp] theorem peak_free (f : SFld) (i v : Nat) : (peak f i v d).free = d.free := rfl
@[simp] theorem peak_gate (f : SFld) (i v : Nat) : (peak f i v d).gate = d.gate := rfl
@[simp] theorem peak_qos (f : SFld) (i v : Nat) : (peak f i v d).qos = d.qos := rfl
@[simp] theorem peak_flights (f : SFld) (i v : Nat) : (peak f i v d).flights = d.flights := rfl
@[simp] theorem peak_fwd (f : SFld) (i v : Nat) : (peak f i v d).fwd = d.fwd := rfl
@[simp] theorem peak_mir (f : SFld) (i v : Nat) : (peak f i v d).mir = d.mir := rfl
@[simp] theorem peak_xlt (f : SFld) (i v : Nat) : (peak f i v d).xlt = d.xlt := rfl
@[simp] theorem peak_alloc (f : SFld) (i v : Nat) : (peak f i v d).alloc = d.alloc := rfl
@[simp] theorem peak_coh (f : SFld) (i v : Nat) : (peak f i v d).coh = d.coh := rfl
@[simp] theorem peak_port (f : SFld) (i v : Nat) : (peak f i v d).port = d.port := rfl
@[simp] theorem peak_noc (f : SFld) (i v : Nat) : (peak f i v d).noc = d.noc := rfl
@[simp] theorem peak_ring (f : SFld) (i v : Nat) : (peak f i v d).ring = d.ring := rfl
@[simp] theorem peak_hlth (f : SFld) (i v : Nat) : (peak f i v d).hlth = d.hlth := rfl
@[simp] theorem peak_boot (f : SFld) (i v : Nat) : (peak f i v d).boot = d.boot := rfl
@[simp] theorem peak_gkl (f : SFld) (i v : Nat) : (peak f i v d).gkl = d.gkl := rfl
@[simp] theorem peak_sys (f : SFld) (i v : Nat) : (peak f i v d).sys = d.sys := rfl
@[simp] theorem peak_pwr (f : SFld) (i v : Nat) : (peak f i v d).pwr = d.pwr := rfl
@[simp] theorem peak_slot (f : SFld) (i v : Nat) : (peak f i v d).slot = d.slot := rfl
@[simp] theorem peak_cnt (f : SFld) (i v : Nat) : (peak f i v d).cnt = d.cnt := rfl
@[simp] theorem peak_mgmt (f : SFld) (i v : Nat) : (peak f i v d).mgmt = d.mgmt := rfl
@[simp] theorem peak_mon (f : SFld) (i v : Nat) : (peak f i v d).mon = d.mon := rfl
@[simp] theorem peak_elec (f : SFld) (i v : Nat) : (peak f i v d).elec = d.elec := rfl

@[simp] theorem putBit_now (f : SFld) (i k : Nat) (b : Bool) : (putBit f i k b d).now = d.now := rfl
@[simp] theorem putBit_ev (f : SFld) (i k : Nat) (b : Bool) : (putBit f i k b d).ev = d.ev := rfl
@[simp] theorem putBit_out (f : SFld) (i k : Nat) (b : Bool) : (putBit f i k b d).out = d.out := rfl
@[simp] theorem putBit_free (f : SFld) (i k : Nat) (b : Bool) : (putBit f i k b d).free = d.free := rfl
@[simp] theorem putBit_gate (f : SFld) (i k : Nat) (b : Bool) : (putBit f i k b d).gate = d.gate := rfl
@[simp] theorem putBit_qos (f : SFld) (i k : Nat) (b : Bool) : (putBit f i k b d).qos = d.qos := rfl
@[simp] theorem putBit_flights (f : SFld) (i k : Nat) (b : Bool) : (putBit f i k b d).flights = d.flights := rfl
@[simp] theorem putBit_fwd (f : SFld) (i k : Nat) (b : Bool) : (putBit f i k b d).fwd = d.fwd := rfl
@[simp] theorem putBit_mir (f : SFld) (i k : Nat) (b : Bool) : (putBit f i k b d).mir = d.mir := rfl
@[simp] theorem putBit_xlt (f : SFld) (i k : Nat) (b : Bool) : (putBit f i k b d).xlt = d.xlt := rfl
@[simp] theorem putBit_alloc (f : SFld) (i k : Nat) (b : Bool) : (putBit f i k b d).alloc = d.alloc := rfl
@[simp] theorem putBit_coh (f : SFld) (i k : Nat) (b : Bool) : (putBit f i k b d).coh = d.coh := rfl
@[simp] theorem putBit_port (f : SFld) (i k : Nat) (b : Bool) : (putBit f i k b d).port = d.port := rfl
@[simp] theorem putBit_noc (f : SFld) (i k : Nat) (b : Bool) : (putBit f i k b d).noc = d.noc := rfl
@[simp] theorem putBit_ring (f : SFld) (i k : Nat) (b : Bool) : (putBit f i k b d).ring = d.ring := rfl
@[simp] theorem putBit_hlth (f : SFld) (i k : Nat) (b : Bool) : (putBit f i k b d).hlth = d.hlth := rfl
@[simp] theorem putBit_boot (f : SFld) (i k : Nat) (b : Bool) : (putBit f i k b d).boot = d.boot := rfl
@[simp] theorem putBit_gkl (f : SFld) (i k : Nat) (b : Bool) : (putBit f i k b d).gkl = d.gkl := rfl
@[simp] theorem putBit_sys (f : SFld) (i k : Nat) (b : Bool) : (putBit f i k b d).sys = d.sys := rfl
@[simp] theorem putBit_pwr (f : SFld) (i k : Nat) (b : Bool) : (putBit f i k b d).pwr = d.pwr := rfl
@[simp] theorem putBit_slot (f : SFld) (i k : Nat) (b : Bool) : (putBit f i k b d).slot = d.slot := rfl
@[simp] theorem putBit_cnt (f : SFld) (i k : Nat) (b : Bool) : (putBit f i k b d).cnt = d.cnt := rfl
@[simp] theorem putBit_mgmt (f : SFld) (i k : Nat) (b : Bool) : (putBit f i k b d).mgmt = d.mgmt := rfl
@[simp] theorem putBit_mon (f : SFld) (i k : Nat) (b : Bool) : (putBit f i k b d).mon = d.mon := rfl
@[simp] theorem putBit_elec (f : SFld) (i k : Nat) (b : Bool) : (putBit f i k b d).elec = d.elec := rfl

@[simp] theorem emit_sts (o : Out) : (emit o d).sts = d.sts := rfl
@[simp] theorem emit_now (o : Out) : (emit o d).now = d.now := rfl
@[simp] theorem emit_ev (o : Out) : (emit o d).ev = d.ev := rfl
@[simp] theorem emit_free (o : Out) : (emit o d).free = d.free := rfl
@[simp] theorem emit_gate (o : Out) : (emit o d).gate = d.gate := rfl
@[simp] theorem emit_qos (o : Out) : (emit o d).qos = d.qos := rfl
@[simp] theorem emit_flights (o : Out) : (emit o d).flights = d.flights := rfl
@[simp] theorem emit_fwd (o : Out) : (emit o d).fwd = d.fwd := rfl
@[simp] theorem emit_mir (o : Out) : (emit o d).mir = d.mir := rfl
@[simp] theorem emit_xlt (o : Out) : (emit o d).xlt = d.xlt := rfl
@[simp] theorem emit_alloc (o : Out) : (emit o d).alloc = d.alloc := rfl
@[simp] theorem emit_coh (o : Out) : (emit o d).coh = d.coh := rfl
@[simp] theorem emit_port (o : Out) : (emit o d).port = d.port := rfl
@[simp] theorem emit_noc (o : Out) : (emit o d).noc = d.noc := rfl
@[simp] theorem emit_ring (o : Out) : (emit o d).ring = d.ring := rfl
@[simp] theorem emit_hlth (o : Out) : (emit o d).hlth = d.hlth := rfl
@[simp] theorem emit_boot (o : Out) : (emit o d).boot = d.boot := rfl
@[simp] theorem emit_gkl (o : Out) : (emit o d).gkl = d.gkl := rfl
@[simp] theorem emit_sys (o : Out) : (emit o d).sys = d.sys := rfl
@[simp] theorem emit_pwr (o : Out) : (emit o d).pwr = d.pwr := rfl
@[simp] theorem emit_slot (o : Out) : (emit o d).slot = d.slot := rfl
@[simp] theorem emit_cnt (o : Out) : (emit o d).cnt = d.cnt := rfl
@[simp] theorem emit_mgmt (o : Out) : (emit o d).mgmt = d.mgmt := rfl
@[simp] theorem emit_mon (o : Out) : (emit o d).mon = d.mon := rfl
@[simp] theorem emit_elec (o : Out) : (emit o d).elec = d.elec := rfl

@[simp] theorem emit_out (o : Out) : (emit o d).out = d.out ++ [o] := rfl

@[simp] theorem pwrSet_sts (j : Nat) (p : PwrDom) : (pwrSet j p d).sts = d.sts := rfl
@[simp] theorem pwrSet_now (j : Nat) (p : PwrDom) : (pwrSet j p d).now = d.now := rfl
@[simp] theorem pwrSet_ev (j : Nat) (p : PwrDom) : (pwrSet j p d).ev = d.ev := rfl
@[simp] theorem pwrSet_out (j : Nat) (p : PwrDom) : (pwrSet j p d).out = d.out := rfl
@[simp] theorem pwrSet_free (j : Nat) (p : PwrDom) : (pwrSet j p d).free = d.free := rfl
@[simp] theorem pwrSet_gate (j : Nat) (p : PwrDom) : (pwrSet j p d).gate = d.gate := rfl
@[simp] theorem pwrSet_qos (j : Nat) (p : PwrDom) : (pwrSet j p d).qos = d.qos := rfl
@[simp] theorem pwrSet_flights (j : Nat) (p : PwrDom) : (pwrSet j p d).flights = d.flights := rfl
@[simp] theorem pwrSet_fwd (j : Nat) (p : PwrDom) : (pwrSet j p d).fwd = d.fwd := rfl
@[simp] theorem pwrSet_mir (j : Nat) (p : PwrDom) : (pwrSet j p d).mir = d.mir := rfl
@[simp] theorem pwrSet_xlt (j : Nat) (p : PwrDom) : (pwrSet j p d).xlt = d.xlt := rfl
@[simp] theorem pwrSet_alloc (j : Nat) (p : PwrDom) : (pwrSet j p d).alloc = d.alloc := rfl
@[simp] theorem pwrSet_coh (j : Nat) (p : PwrDom) : (pwrSet j p d).coh = d.coh := rfl
@[simp] theorem pwrSet_port (j : Nat) (p : PwrDom) : (pwrSet j p d).port = d.port := rfl
@[simp] theorem pwrSet_noc (j : Nat) (p : PwrDom) : (pwrSet j p d).noc = d.noc := rfl
@[simp] theorem pwrSet_ring (j : Nat) (p : PwrDom) : (pwrSet j p d).ring = d.ring := rfl
@[simp] theorem pwrSet_hlth (j : Nat) (p : PwrDom) : (pwrSet j p d).hlth = d.hlth := rfl
@[simp] theorem pwrSet_boot (j : Nat) (p : PwrDom) : (pwrSet j p d).boot = d.boot := rfl
@[simp] theorem pwrSet_gkl (j : Nat) (p : PwrDom) : (pwrSet j p d).gkl = d.gkl := rfl
@[simp] theorem pwrSet_sys (j : Nat) (p : PwrDom) : (pwrSet j p d).sys = d.sys := rfl
@[simp] theorem pwrSet_slot (j : Nat) (p : PwrDom) : (pwrSet j p d).slot = d.slot := rfl
@[simp] theorem pwrSet_cnt (j : Nat) (p : PwrDom) : (pwrSet j p d).cnt = d.cnt := rfl
@[simp] theorem pwrSet_mgmt (j : Nat) (p : PwrDom) : (pwrSet j p d).mgmt = d.mgmt := rfl
@[simp] theorem pwrSet_mon (j : Nat) (p : PwrDom) : (pwrSet j p d).mon = d.mon := rfl
@[simp] theorem pwrSet_elec (j : Nat) (p : PwrDom) : (pwrSet j p d).elec = d.elec := rfl

@[simp] theorem raise_now (code die : Nat) (args : List Nat) : (raise code die args d).now = d.now := by
  simp only [raise]; repeat' split
  all_goals rfl
@[simp] theorem raise_out (code die : Nat) (args : List Nat) : (raise code die args d).out = d.out := by
  simp only [raise]; repeat' split
  all_goals rfl
@[simp] theorem raise_free (code die : Nat) (args : List Nat) : (raise code die args d).free = d.free := by
  simp only [raise]; repeat' split
  all_goals rfl
@[simp] theorem raise_gate (code die : Nat) (args : List Nat) : (raise code die args d).gate = d.gate := by
  simp only [raise]; repeat' split
  all_goals rfl
@[simp] theorem raise_qos (code die : Nat) (args : List Nat) : (raise code die args d).qos = d.qos := by
  simp only [raise]; repeat' split
  all_goals rfl
@[simp] theorem raise_flights (code die : Nat) (args : List Nat) : (raise code die args d).flights = d.flights := by
  simp only [raise]; repeat' split
  all_goals rfl
@[simp] theorem raise_fwd (code die : Nat) (args : List Nat) : (raise code die args d).fwd = d.fwd := by
  simp only [raise]; repeat' split
  all_goals rfl
@[simp] theorem raise_mir (code die : Nat) (args : List Nat) : (raise code die args d).mir = d.mir := by
  simp only [raise]; repeat' split
  all_goals rfl
@[simp] theorem raise_xlt (code die : Nat) (args : List Nat) : (raise code die args d).xlt = d.xlt := by
  simp only [raise]; repeat' split
  all_goals rfl
@[simp] theorem raise_alloc (code die : Nat) (args : List Nat) : (raise code die args d).alloc = d.alloc := by
  simp only [raise]; repeat' split
  all_goals rfl
@[simp] theorem raise_coh (code die : Nat) (args : List Nat) : (raise code die args d).coh = d.coh := by
  simp only [raise]; repeat' split
  all_goals rfl
@[simp] theorem raise_port (code die : Nat) (args : List Nat) : (raise code die args d).port = d.port := by
  simp only [raise]; repeat' split
  all_goals rfl
@[simp] theorem raise_noc (code die : Nat) (args : List Nat) : (raise code die args d).noc = d.noc := by
  simp only [raise]; repeat' split
  all_goals rfl
@[simp] theorem raise_ring (code die : Nat) (args : List Nat) : (raise code die args d).ring = d.ring := by
  simp only [raise]; repeat' split
  all_goals rfl
@[simp] theorem raise_boot (code die : Nat) (args : List Nat) : (raise code die args d).boot = d.boot := by
  simp only [raise]; repeat' split
  all_goals rfl
@[simp] theorem raise_gkl (code die : Nat) (args : List Nat) : (raise code die args d).gkl = d.gkl := by
  simp only [raise]; repeat' split
  all_goals rfl
@[simp] theorem raise_sys (code die : Nat) (args : List Nat) : (raise code die args d).sys = d.sys := by
  simp only [raise]; repeat' split
  all_goals rfl
@[simp] theorem raise_pwr (code die : Nat) (args : List Nat) : (raise code die args d).pwr = d.pwr := by
  simp only [raise]; repeat' split
  all_goals rfl
@[simp] theorem raise_slot (code die : Nat) (args : List Nat) : (raise code die args d).slot = d.slot := by
  simp only [raise]; repeat' split
  all_goals rfl
@[simp] theorem raise_cnt (code die : Nat) (args : List Nat) : (raise code die args d).cnt = d.cnt := by
  simp only [raise]; repeat' split
  all_goals rfl
@[simp] theorem raise_mgmt (code die : Nat) (args : List Nat) : (raise code die args d).mgmt = d.mgmt := by
  simp only [raise]; repeat' split
  all_goals rfl
@[simp] theorem raise_mon (code die : Nat) (args : List Nat) : (raise code die args d).mon = d.mon := by
  simp only [raise]; repeat' split
  all_goals rfl
@[simp] theorem raise_elec (code die : Nat) (args : List Nat) : (raise code die args d).elec = d.elec := by
  simp only [raise]; repeat' split
  all_goals rfl

/-- A command of the first form answers a next state that differs in nothing but the changing part. -/
theorem nextDyn_eq (s : State) (f : Cfg → Dyn → Dyn) : nextDyn s f = .next { s with dyn := f s.cfg s.dyn } := rfl

/-- A command of the first form keeps every configuration register and the queue (R4). -/
theorem nextDyn_frame {s t : State} {f : Cfg → Dyn → Dyn} (h : nextDyn s f = .next t) :
    t.cfg = s.cfg ∧ t.pending = s.pending ∧ t.dyn = f s.cfg s.dyn := by
  cases h; exact ⟨rfl, rfl, rfl⟩

/-- A command of the second form keeps the queue. -/
theorem nextCfg_frame {s t : State} {f : Cfg → Dyn → Cfg × Dyn} (h : nextCfg s f = .next t) :
    t.pending = s.pending ∧ t.cfg = (f s.cfg s.dyn).1 ∧ t.dyn = (f s.cfg s.dyn).2 := by
  cases h; exact ⟨rfl, rfl, rfl⟩

/-- The event queue never holds more than 1,024 records after an event is raised into a queue of at most that many (R492). -/
theorem evInsert_length (e : Ev) (l : List Ev) : (evInsert e l).length = l.length + 1 := by
  induction l with
  | nil => rfl
  | cons x t ih => simp only [evInsert]; split <;> simp [ih]

theorem raise_ev_le (code die : Nat) (args : List Nat) (h : d.ev.length ≤ 1024) : (raise code die args d).ev.length ≤ 1024 := by
  simp only [raise]
  split
  · simp [evInsert_length]; omega
  · split <;> simp [evInsert_length, bump, put] <;> omega

end Machine
end Sys2Proof
end

