-- ==== Sys2Proof/Laws/Ops.lean ====
section
/-! SUPPORT. What the shared operations keep: a loop keeps what each of its rounds keeps, and the lemmas of the operations that
many commands use. -/

namespace Sys2Proof
namespace Machine

/-- A loop keeps every reading that each of its rounds keeps. -/
theorem forAll_keep {α σ β : Type} (r : σ → β) (l : List α) (f : α → σ → σ) (h : ∀ x d, r (f x d) = r d) (s : σ) :
    r (forAll l f s) = r s := by
  unfold forAll
  induction l generalizing s with
  | nil => rfl
  | cons a t ih => rw [List.foldl_cons, ih, h]

/-- A loop keeps every property that each of its rounds keeps. -/
theorem forAll_inv {α σ : Type} (p : σ → Prop) (l : List α) (f : α → σ → σ) (h : ∀ x d, p d → p (f x d)) (s : σ) (hs : p s) :
    p (forAll l f s) := by
  unfold forAll
  induction l generalizing s with
  | nil => exact hs
  | cons a t ih => exact ih _ (h a s hs)

@[simp] theorem forAll_nil {α σ : Type} (f : α → σ → σ) (s : σ) : forAll [] f s = s := rfl

@[simp] theorem forAll_cons {α σ : Type} (a : α) (t : List α) (f : α → σ → σ) (s : σ) :
    forAll (a :: t) f s = forAll t f (f a s) := rfl

/-- A conditional change keeps every reading that the change keeps. -/
theorem doIf_keep {σ β : Type} (r : σ → β) (b : Bool) (f : σ → σ) (s : σ) (h : r (f s) = r s) : r (doIf b f s) = r s := by
  unfold doIf; split
  · exact h
  · rfl

/-- A command of the first form answers a next state, of which a property holds if it holds of the changed part. -/
theorem nextDyn_exists {s : State} {f : Cfg → Dyn → Dyn} {P : Dyn → Prop} (h : P (f s.cfg s.dyn)) :
    ∃ d, nextDyn s f = .next (s.setDyn d) ∧ P d := ⟨_, rfl, h⟩

/-- Opening a clock touches the list of gated clocks and the state of the domains above the unit, and nothing else (R405). -/
theorem ungate_keep {β : Type} (r : Dyn → β) (hp : ∀ d j v p, r (pwrSet j p (put .pwrDomStsState j v d)) = r d)
    (he : ∀ (d : Dyn) e, r { d with elec := e } = r d) (u : Nat) (d : Dyn) : r (ungate u d) = r d := by
  unfold ungate
  split
  · refine (forAll_keep r _ _ (fun j d => ?_) _).trans (he _ _)
    split
    · exact hp _ _ _ _
    · rfl
  · rfl

@[simp] theorem ungate_now (u : Nat) (d : Dyn) : (ungate u d).now = d.now :=
  ungate_keep (fun d => d.now) (fun _ _ _ _ => rfl) (fun _ _ => rfl) u d
@[simp] theorem ungate_ev (u : Nat) (d : Dyn) : (ungate u d).ev = d.ev :=
  ungate_keep (fun d => d.ev) (fun _ _ _ _ => rfl) (fun _ _ => rfl) u d
@[simp] theorem ungate_out (u : Nat) (d : Dyn) : (ungate u d).out = d.out :=
  ungate_keep (fun d => d.out) (fun _ _ _ _ => rfl) (fun _ _ => rfl) u d
@[simp] theorem ungate_free (u : Nat) (d : Dyn) : (ungate u d).free = d.free :=
  ungate_keep (fun d => d.free) (fun _ _ _ _ => rfl) (fun _ _ => rfl) u d
@[simp] theorem ungate_gate (u : Nat) (d : Dyn) : (ungate u d).gate = d.gate :=
  ungate_keep (fun d => d.gate) (fun _ _ _ _ => rfl) (fun _ _ => rfl) u d
@[simp] theorem ungate_qos (u : Nat) (d : Dyn) : (ungate u d).qos = d.qos :=
  ungate_keep (fun d => d.qos) (fun _ _ _ _ => rfl) (fun _ _ => rfl) u d
@[simp] theorem ungate_flights (u : Nat) (d : Dyn) : (ungate u d).flights = d.flights :=
  ungate_keep (fun d => d.flights) (fun _ _ _ _ => rfl) (fun _ _ => rfl) u d
@[simp] theorem ungate_fwd (u : Nat) (d : Dyn) : (ungate u d).fwd = d.fwd :=
  ungate_keep (fun d => d.fwd) (fun _ _ _ _ => rfl) (fun _ _ => rfl) u d
@[simp] theorem ungate_mir (u : Nat) (d : Dyn) : (ungate u d).mir = d.mir :=
  ungate_keep (fun d => d.mir) (fun _ _ _ _ => rfl) (fun _ _ => rfl) u d
@[simp] theorem ungate_xlt (u : Nat) (d : Dyn) : (ungate u d).xlt = d.xlt :=
  ungate_keep (fun d => d.xlt) (fun _ _ _ _ => rfl) (fun _ _ => rfl) u d
@[simp] theorem ungate_alloc (u : Nat) (d : Dyn) : (ungate u d).alloc = d.alloc :=
  ungate_keep (fun d => d.alloc) (fun _ _ _ _ => rfl) (fun _ _ => rfl) u d
@[simp] theorem ungate_coh (u : Nat) (d : Dyn) : (ungate u d).coh = d.coh :=
  ungate_keep (fun d => d.coh) (fun _ _ _ _ => rfl) (fun _ _ => rfl) u d
@[simp] theorem ungate_port (u : Nat) (d : Dyn) : (ungate u d).port = d.port :=
  ungate_keep (fun d => d.port) (fun _ _ _ _ => rfl) (fun _ _ => rfl) u d
@[simp] theorem ungate_noc (u : Nat) (d : Dyn) : (ungate u d).noc = d.noc :=
  ungate_keep (fun d => d.noc) (fun _ _ _ _ => rfl) (fun _ _ => rfl) u d
@[simp] theorem ungate_ring (u : Nat) (d : Dyn) : (ungate u d).ring = d.ring :=
  ungate_keep (fun d => d.ring) (fun _ _ _ _ => rfl) (fun _ _ => rfl) u d
@[simp] theorem ungate_hlth (u : Nat) (d : Dyn) : (ungate u d).hlth = d.hlth :=
  ungate_keep (fun d => d.hlth) (fun _ _ _ _ => rfl) (fun _ _ => rfl) u d
@[simp] theorem ungate_boot (u : Nat) (d : Dyn) : (ungate u d).boot = d.boot :=
  ungate_keep (fun d => d.boot) (fun _ _ _ _ => rfl) (fun _ _ => rfl) u d
@[simp] theorem ungate_gkl (u : Nat) (d : Dyn) : (ungate u d).gkl = d.gkl :=
  ungate_keep (fun d => d.gkl) (fun _ _ _ _ => rfl) (fun _ _ => rfl) u d
@[simp] theorem ungate_sys (u : Nat) (d : Dyn) : (ungate u d).sys = d.sys :=
  ungate_keep (fun d => d.sys) (fun _ _ _ _ => rfl) (fun _ _ => rfl) u d
@[simp] theorem ungate_slot (u : Nat) (d : Dyn) : (ungate u d).slot = d.slot :=
  ungate_keep (fun d => d.slot) (fun _ _ _ _ => rfl) (fun _ _ => rfl) u d
@[simp] theorem ungate_cnt (u : Nat) (d : Dyn) : (ungate u d).cnt = d.cnt :=
  ungate_keep (fun d => d.cnt) (fun _ _ _ _ => rfl) (fun _ _ => rfl) u d
@[simp] theorem ungate_mgmt (u : Nat) (d : Dyn) : (ungate u d).mgmt = d.mgmt :=
  ungate_keep (fun d => d.mgmt) (fun _ _ _ _ => rfl) (fun _ _ => rfl) u d
@[simp] theorem ungate_mon (u : Nat) (d : Dyn) : (ungate u d).mon = d.mon :=
  ungate_keep (fun d => d.mon) (fun _ _ _ _ => rfl) (fun _ _ => rfl) u d

@[simp] theorem rd_ungate (u : Nat) {f : SFld} (h : f ≠ .pwrDomStsState) (i : Nat) (d : Dyn) : rd (ungate u d) f i = rd d f i :=
  ungate_keep (fun d => rd d f i) (fun d j v p => by show rd (put .pwrDomStsState j v d) f i = rd d f i; rw [rd_put_fld h])
    (fun _ _ => rfl) u d

/-- Counting an event touches the counters and, at their maximum, the event queue (R496, R498). -/
theorem tally_keep {β : Type} (r : Dyn → β) (hp : ∀ f i v d, r (put f i v d) = r d) (hr : ∀ c k l d, r (raise c k l d) = r d)
    (k lo n ev : Nat) (q : Option Nat) (amt : Nat) (d : Dyn) : r (tally k lo n ev q amt d) = r d := by
  refine forAll_keep r _ _ (fun j d => ?_) d
  simp only [ctrAdd]
  repeat' split
  · rfl
  · exact hp _ _ _ _
  · rw [hr, hp, hp]

@[simp] theorem tally_now (k lo n ev : Nat) (q : Option Nat) (amt : Nat) (d : Dyn) : (tally k lo n ev q amt d).now = d.now :=
  tally_keep (fun d => d.now) (fun _ _ _ _ => rfl) (fun _ _ _ _ => raise_now _ _ _ _) k lo n ev q amt d
@[simp] theorem tally_out (k lo n ev : Nat) (q : Option Nat) (amt : Nat) (d : Dyn) : (tally k lo n ev q amt d).out = d.out :=
  tally_keep (fun d => d.out) (fun _ _ _ _ => rfl) (fun _ _ _ _ => raise_out _ _ _ _) k lo n ev q amt d
@[simp] theorem tally_free (k lo n ev : Nat) (q : Option Nat) (amt : Nat) (d : Dyn) : (tally k lo n ev q amt d).free = d.free :=
  tally_keep (fun d => d.free) (fun _ _ _ _ => rfl) (fun _ _ _ _ => raise_free _ _ _ _) k lo n ev q amt d
@[simp] theorem tally_gate (k lo n ev : Nat) (q : Option Nat) (amt : Nat) (d : Dyn) : (tally k lo n ev q amt d).gate = d.gate :=
  tally_keep (fun d => d.gate) (fun _ _ _ _ => rfl) (fun _ _ _ _ => raise_gate _ _ _ _) k lo n ev q amt d
@[simp] theorem tally_qos (k lo n ev : Nat) (q : Option Nat) (amt : Nat) (d : Dyn) : (tally k lo n ev q amt d).qos = d.qos :=
  tally_keep (fun d => d.qos) (fun _ _ _ _ => rfl) (fun _ _ _ _ => raise_qos _ _ _ _) k lo n ev q amt d
@[simp] theorem tally_flights (k lo n ev : Nat) (q : Option Nat) (amt : Nat) (d : Dyn) : (tally k lo n ev q amt d).flights = d.flights :=
  tally_keep (fun d => d.flights) (fun _ _ _ _ => rfl) (fun _ _ _ _ => raise_flights _ _ _ _) k lo n ev q amt d
@[simp] theorem tally_fwd (k lo n ev : Nat) (q : Option Nat) (amt : Nat) (d : Dyn) : (tally k lo n ev q amt d).fwd = d.fwd :=
  tally_keep (fun d => d.fwd) (fun _ _ _ _ => rfl) (fun _ _ _ _ => raise_fwd _ _ _ _) k lo n ev q amt d
@[simp] theorem tally_mir (k lo n ev : Nat) (q : Option Nat) (amt : Nat) (d : Dyn) : (tally k lo n ev q amt d).mir = d.mir :=
  tally_keep (fun d => d.mir) (fun _ _ _ _ => rfl) (fun _ _ _ _ => raise_mir _ _ _ _) k lo n ev q amt d
@[simp] theorem tally_xlt (k lo n ev : Nat) (q : Option Nat) (amt : Nat) (d : Dyn) : (tally k lo n ev q amt d).xlt = d.xlt :=
  tally_keep (fun d => d.xlt) (fun _ _ _ _ => rfl) (fun _ _ _ _ => raise_xlt _ _ _ _) k lo n ev q amt d
@[simp] theorem tally_alloc (k lo n ev : Nat) (q : Option Nat) (amt : Nat) (d : Dyn) : (tally k lo n ev q amt d).alloc = d.alloc :=
  tally_keep (fun d => d.alloc) (fun _ _ _ _ => rfl) (fun _ _ _ _ => raise_alloc _ _ _ _) k lo n ev q amt d
@[simp] theorem tally_coh (k lo n ev : Nat) (q : Option Nat) (amt : Nat) (d : Dyn) : (tally k lo n ev q amt d).coh = d.coh :=
  tally_keep (fun d => d.coh) (fun _ _ _ _ => rfl) (fun _ _ _ _ => raise_coh _ _ _ _) k lo n ev q amt d
@[simp] theorem tally_port (k lo n ev : Nat) (q : Option Nat) (amt : Nat) (d : Dyn) : (tally k lo n ev q amt d).port = d.port :=
  tally_keep (fun d => d.port) (fun _ _ _ _ => rfl) (fun _ _ _ _ => raise_port _ _ _ _) k lo n ev q amt d
@[simp] theorem tally_noc (k lo n ev : Nat) (q : Option Nat) (amt : Nat) (d : Dyn) : (tally k lo n ev q amt d).noc = d.noc :=
  tally_keep (fun d => d.noc) (fun _ _ _ _ => rfl) (fun _ _ _ _ => raise_noc _ _ _ _) k lo n ev q amt d
@[simp] theorem tally_ring (k lo n ev : Nat) (q : Option Nat) (amt : Nat) (d : Dyn) : (tally k lo n ev q amt d).ring = d.ring :=
  tally_keep (fun d => d.ring) (fun _ _ _ _ => rfl) (fun _ _ _ _ => raise_ring _ _ _ _) k lo n ev q amt d
@[simp] theorem tally_boot (k lo n ev : Nat) (q : Option Nat) (amt : Nat) (d : Dyn) : (tally k lo n ev q amt d).boot = d.boot :=
  tally_keep (fun d => d.boot) (fun _ _ _ _ => rfl) (fun _ _ _ _ => raise_boot _ _ _ _) k lo n ev q amt d
@[simp] theorem tally_gkl (k lo n ev : Nat) (q : Option Nat) (amt : Nat) (d : Dyn) : (tally k lo n ev q amt d).gkl = d.gkl :=
  tally_keep (fun d => d.gkl) (fun _ _ _ _ => rfl) (fun _ _ _ _ => raise_gkl _ _ _ _) k lo n ev q amt d
@[simp] theorem tally_sys (k lo n ev : Nat) (q : Option Nat) (amt : Nat) (d : Dyn) : (tally k lo n ev q amt d).sys = d.sys :=
  tally_keep (fun d => d.sys) (fun _ _ _ _ => rfl) (fun _ _ _ _ => raise_sys _ _ _ _) k lo n ev q amt d
@[simp] theorem tally_pwr (k lo n ev : Nat) (q : Option Nat) (amt : Nat) (d : Dyn) : (tally k lo n ev q amt d).pwr = d.pwr :=
  tally_keep (fun d => d.pwr) (fun _ _ _ _ => rfl) (fun _ _ _ _ => raise_pwr _ _ _ _) k lo n ev q amt d
@[simp] theorem tally_slot (k lo n ev : Nat) (q : Option Nat) (amt : Nat) (d : Dyn) : (tally k lo n ev q amt d).slot = d.slot :=
  tally_keep (fun d => d.slot) (fun _ _ _ _ => rfl) (fun _ _ _ _ => raise_slot _ _ _ _) k lo n ev q amt d
@[simp] theorem tally_cnt (k lo n ev : Nat) (q : Option Nat) (amt : Nat) (d : Dyn) : (tally k lo n ev q amt d).cnt = d.cnt :=
  tally_keep (fun d => d.cnt) (fun _ _ _ _ => rfl) (fun _ _ _ _ => raise_cnt _ _ _ _) k lo n ev q amt d
@[simp] theorem tally_mgmt (k lo n ev : Nat) (q : Option Nat) (amt : Nat) (d : Dyn) : (tally k lo n ev q amt d).mgmt = d.mgmt :=
  tally_keep (fun d => d.mgmt) (fun _ _ _ _ => rfl) (fun _ _ _ _ => raise_mgmt _ _ _ _) k lo n ev q amt d
@[simp] theorem tally_mon (k lo n ev : Nat) (q : Option Nat) (amt : Nat) (d : Dyn) : (tally k lo n ev q amt d).mon = d.mon :=
  tally_keep (fun d => d.mon) (fun _ _ _ _ => rfl) (fun _ _ _ _ => raise_mon _ _ _ _) k lo n ev q amt d
@[simp] theorem tally_elec (k lo n ev : Nat) (q : Option Nat) (amt : Nat) (d : Dyn) : (tally k lo n ev q amt d).elec = d.elec :=
  tally_keep (fun d => d.elec) (fun _ _ _ _ => rfl) (fun _ _ _ _ => raise_elec _ _ _ _) k lo n ev q amt d

/-- A new challenge writes the challenge words and draws free values, and nothing else. -/
theorem newChal_boot (k : Nat) (d : Dyn) : (newChal k d).boot = d.boot := by
  refine forAll_keep (fun d => d.boot) _ _ ?_ d
  intro _ _; rfl

theorem newChal_out (k : Nat) (d : Dyn) : (newChal k d).out = d.out := by
  refine forAll_keep (fun d => d.out) _ _ ?_ d
  intro _ _; rfl

theorem newChal_now (k : Nat) (d : Dyn) : (newChal k d).now = d.now := by
  refine forAll_keep (fun d => d.now) _ _ ?_ d
  intro _ _; rfl

theorem newChal_elec (k : Nat) (d : Dyn) : (newChal k d).elec = d.elec := by
  refine forAll_keep (fun d => d.elec) _ _ ?_ d
  intro _ _; rfl

theorem newChal_ev (k : Nat) (d : Dyn) : (newChal k d).ev = d.ev := by
  refine forAll_keep (fun d => d.ev) _ _ ?_ d
  intro _ _; rfl

theorem rd_newChal (k : Nat) {f : SFld} (h : f ≠ .monChalChal) (i : Nat) (d : Dyn) : rd (newChal k d) f i = rd d f i :=
  forAll_keep (fun d => rd d f i) _ _ (fun _ d => by
    show rd (put .monChalChal _ _ (drawWord d).2) f i = rd d f i
    rw [rd_put_fld h]; rfl) d

/-- The boot ROM leaves what start and trust hold. -/
theorem romStart_boot (p : Nat) (d : Dyn) : (romStart p d).boot = d.boot := by
  simp [romStart, List.range, List.range.loop, newChal_boot]

theorem romStart_out (p : Nat) (d : Dyn) : (romStart p d).out = d.out := by
  simp [romStart, List.range, List.range.loop, newChal_out]

theorem romStart_now (p : Nat) (d : Dyn) : (romStart p d).now = d.now := by
  simp [romStart, List.range, List.range.loop, newChal_now]

theorem romStart_elec (p : Nat) (d : Dyn) : (romStart p d).elec = { d.elec with trip := false } := by
  simp [romStart, List.range, List.range.loop, newChal_elec]

theorem romStart_ev (p : Nat) (d : Dyn) : (romStart p d).ev = d.ev := by
  simp [romStart, List.range, List.range.loop, newChal_ev]

end Machine
end Sys2Proof
end

