-- ==== Sys2Proof/Tests/Slice0.lean ====
section
/-! SUPPORT. The package's own tests: ill-formed commands that the check refuses, figures of the spec's worked examples, one step of
a command, and for each statement a state and operands that meet its hypotheses. -/

set_option Elab.async false

open Sys2Proof Sys2Proof.Machine Host

namespace Sys2Proof.Tests

/-! ## Helpers -/

/-- The changing part after reset with some status fields set. -/
def dyOf (l : List (SFld × Nat × Nat)) : Dyn := l.foldl (fun d x => put x.1 x.2.1 x.2.2 d) dyn0
/-- The clock of every region is locked. -/
def lockT : List (SFld × Nat × Nat) :=
  [(.dieRclkStsR0Lock, 0, 1), (.dieRclkStsR1Lock, 0, 1), (.dieRclkStsR0Lock, 1, 1), (.dieRclkStsR1Lock, 1, 1), (.dieRclkStsR0Lock, 2, 1),
   (.dieRclkStsR1Lock, 2, 1), (.dieRclkStsR0Lock, 3, 1), (.dieRclkStsR1Lock, 3, 1)]
/-- The state after reset with another changing part. -/
def stOf (d : Dyn) : State := { State.reset with dyn := d }
/-- The state after reset with some status fields set. -/
def st (l : List (SFld × Nat × Nat)) : State := stOf (dyOf l)
/-- The same with some configuration fields set as well. -/
def stc (c : List (CFld × Nat × Nat)) (l : List (SFld × Nat × Nat)) : State :=
  { st l with cfg := c.foldl (fun g x => cput x.1 x.2.1 x.2.2 g) arrEmpty }
/-- An image that verifies under key slots that hold the hash 1. -/
def imageT : Image := ⟨true, 2, 0, 2, 1, 0, 1, [⟨1, 0, 1⟩, ⟨3, 1, 1⟩], [], ⟨[], []⟩, 0, 0, ⟨0, 0, 1, 1, true, true⟩⟩
/-- A flash that passes its check. -/
def flashT : FlashIn := ⟨true, true, true, 9, imageT, imageT, []⟩
/-- A package in the start sequence with an image up for verification. -/
def bootT (l : List (SFld × Nat × Nat)) (tried : Bool) : State :=
  stOf { dyOf l with boot := { boot0 with otp := ⟨[1], [1], 1, 1, 0, 0, 0, [], []⟩, flash := [flashT], tried := tried, cand := some imageT } }
/-- A dispatched entry of the given words. -/
def entT (w : List Nat) : RingEnt := ⟨0, 1, w, [], false, false, false, 0, 0, [], none⟩
/-- A ring that holds one dispatched entry. -/
def ringT (n : Nat) (e : RingEnt) : Dyn := { dyOf [(.dieRclkStsR0Lock, 0, 1), (.dieRclkStsR1Lock, 0, 1)] with ring := { dyn0.ring with rings := ⟨[(n, { ring0 with ents := [e] })]⟩ } }
/-- Allocation state with one joined device, 127, of four FREE blocks. -/
def allocT : AllocSt :=
  { alloc0 with nblk := ⟨[(127, 4)]⟩, front := ⟨[(127, 4)]⟩, joined := [127],
                blks := ⟨(List.range 4).map fun k => (blkKey 127 k, ⟨false, false, 0, 0⟩)⟩ }
/-- A package whose placement table is ready. -/
def poolT (a : AllocSt) : Dyn :=
  { dyOf [(.xltPtLocReady, 0, 1), (.xltBedevV, 127, 1), (.gklSysStsQuorum, 0, 1)] with alloc := a }
/-- An extent of host 127 of one block. -/
def extT (took : Bool) (sl : Option Nat) : Ext := ⟨0, 127, 0, 128, sl, 1, took, 5, false, false, false⟩
/-- A packet at its destination router 7. -/
def netF : NetPkt := ⟨5, ⟨0, 0, 64, 0, 190, none, none, 1, 0, 64, 0, false, .far ⟨0, 0, 16, false, 0, 0, 0, 0, 0, 0, none, 1⟩⟩, 0, 7, 7, 0, 0, 0, 0, 0, 0, 0, 0, 8⟩
/-- A network that carries one packet. -/
def netT (f : NetPkt) (l : List (SFld × Nat × Nat)) : Dyn := { dyOf l with noc := { noc0 with net := [f] } }
/-- A write of host 127 to line 5 of a shared region, from logical port 188. -/
def flightT : Flight :=
  ⟨⟨8, 188, .memWr, .ld 127, 0, 64, none, .i, false, none, false⟩, 3, 0, none, 0, none, [], false, .light, some (homeSlice 5, 5), 0, 0, none, false⟩
/-- A shared request of host 127 for line 5. -/
def sreqT (op : SOp) : SReq := ⟨8, 127, 5, op, 51, 0, false⟩
/-- The open line 5 in a phase, with snoops that it waits for. -/
def opT (phase : Nat) (snoops : List (Nat × Nat)) (op : SOp) : OpenLine :=
  ⟨5, some (sreqT op), false, snoops, 0, false, false, phase, false, []⟩
/-- Configuration of host 127's upstream port 188. -/
def hostCfg : List (CFld × Nat × Nat) := [(.portLpcfgRole, 188, 1), (.portLpcfgVcs, 188, 127)]
/-- A package with one open line and one write in flight. -/
def cohT (o : OpenLine) (recs : List SnoopRec) (l : List (SFld × Nat × Nat)) : State :=
  { stc hostCfg [] with dyn := { dyOf l with coh := ⟨⟨[(homeSlice 5, { dir0 with opens := [o] })]⟩, recs, [], [], [], arrEmpty⟩,
                                             flights := [flightT] } }
/-- A package whose home slice of line 5 holds writebacks, with host 127 as the line's owner. -/
def wbT (wbs : List WbRec) : State :=
  let x : DirSt := { dir0 with wbs := wbs, sets := ⟨[(keySet 5, [⟨0, 2, keyTag 5, false, [127], 0, false⟩])]⟩ }
  { stc hostCfg [] with dyn := { dyOf lockT with flights := [flightT], coh := ⟨⟨[(homeSlice 5, x)]⟩, [], [], [], [], arrEmpty⟩ } }
/-- A placement read of die 3 that one request waits for. -/
def missT : Miss := ⟨3, 127, 134217727, 127, false, 0⟩

/-! ## Ill-formed commands, one for each check, and a well-formed neighbour -/

/-- A well-formed request. -/
def reqT : Req := ⟨8, 188, .memWr, .ld 127, 0x40, 64, none, .i, false, none, false⟩
/-- A well-formed request to the arbiter. -/
def actT : ActReq := ⟨4, [29], [5], 0, 0, false, false⟩
/-- What a power-on finds. -/
def envT : PowerEnv := ⟨0, ⟨[1], [1], 1, 1, 0, 0, 0, List.replicate 8 0, List.replicate 64 0⟩, List.replicate 4 flashT⟩

theorem test_wf_access : (Instr.registerWrite (.i3c 0) 0x20850000 4 0).wf = true ∧ (Instr.registerWrite (.i3c 0) 0x20850000 3 0).wf = false ∧
    (Instr.readClear (.i3c 0) 0x100000000 4).wf = false := by decide
theorem test_wf_alias : (Instr.aliasAccess (.i3c 0) 0xFFFFFFC 4 none).wf = true ∧ (Instr.aliasAccess (.i3c 0) 0x10000000 4 none).wf = false := by
  decide
theorem test_wf_request : (Instr.m2sRequest [] reqT).wf = true ∧ (Instr.m2sRequest [] { reqT with len := 0 }).wf = false ∧
    (Instr.m2sRequest [] { reqT with len := 4097 }).wf = false ∧ (Instr.m2sRequest [] { reqT with addr := 2 ^ 64 }).wf = false ∧
    (Instr.m2sRequest [] { reqT with id := 2 ^ 79 }).wf = false ∧
    (Instr.m2sRequest [] { reqT with acc := some (.dpcCtl 3 true false) }).wf = false := by decide
theorem test_wf_key : (Instr.birsp 127 (2 ^ 40 - 1) .i false none).wf = true ∧ (Instr.birsp 127 (2 ^ 40) .i false none).wf = false ∧
    (Instr.retry 0 { sreqT .rdI with key := 2 ^ 40 }).wf = false := by decide
theorem test_wf_page : (Instr.twinRebuildStart 3 134217727).wf = true ∧ (Instr.twinRebuildStart 3 134217728).wf = false := by decide
theorem test_wf_zeroing : (Instr.zeroingDone 5 0 1).wf = true ∧ (Instr.zeroingDone 5 0 0).wf = false := by decide
theorem test_wf_csr_counts : (Instr.csrRead (.i3c 0) 0 256 false).wf = true ∧ (Instr.csrRead (.i3c 0) 0 257 false).wf = false ∧
    (Instr.csrRead (.i3c 0) 0 0 false).wf = false ∧ (Instr.csrWrite (.i3c 0) 0 []).wf = false := by decide
theorem test_wf_ranger : (Instr.wr 0 0 [1]).wf = true ∧ (Instr.wr 0 0 []).wf = false ∧ (Instr.rd 0 (2 ^ 32) 1).wf = false := by decide
theorem test_wf_transfer : (Instr.imgXferData (.i3c 0) 0 4064).wf = true ∧ (Instr.imgXferData (.i3c 0) 0 4065).wf = false := by decide
theorem test_wf_arbiter : (Instr.arbiterRequest [actT]).wf = true ∧ (Instr.arbiterRequest [{ actT with pus := [48] }]).wf = false ∧
    (Instr.arbiterRequest [{ actT with regions := [8] }]).wf = false ∧ (Instr.arbiterRequest [{ actT with ep := 36 }]).wf = false := by decide
theorem test_wf_monitors : (Instr.replan ⟨List.replicate 64 0, List.replicate 32 20, [(767, 0, 0)], [(35, 179, 0, 0)]⟩).wf = true ∧
    (Instr.replan ⟨[], List.replicate 32 20, [], []⟩).wf = false ∧ (Instr.replan ⟨List.replicate 64 0, [], [], []⟩).wf = false ∧
    (Instr.replan ⟨List.replicate 64 0, List.replicate 32 20, [(768, 0, 0)], []⟩).wf = false := by decide
theorem test_wf_power_on : (Instr.powerOn envT).wf = true ∧ (Instr.powerOn { envT with flash := [] }).wf = false := by decide
theorem test_wf_distinct : (Instr.heartbeat true [1, 2]).wf = true ∧ (Instr.heartbeat true [1, 1]).wf = false := by decide
theorem test_wf_readings : (Instr.sensorRead (List.replicate 32 40) (List.replicate 4 40) 0 0).wf = true ∧
    (Instr.sensorRead [] (List.replicate 4 40) 0 0).wf = false ∧ (Instr.timestampTick [20, 20, 20]).wf = false := by decide

/-! ## Decoding: the table gives no row any bits -/

theorem test_no_word_spells_a_command : decodeTableWord 0 0 = none ∧ decodeTableWord 32 0xFFFFFFFF = none := by decide

/-! ## Figures of the spec's worked examples -/

/-- Worked example of chapter 0: port unit 29 is on die 2, in cluster 14, at 0x2085_0000, with logical ports 116 to 119. -/
theorem test_port_unit_29 : lpPu 116 = 29 ∧ lpPu 119 = 29 ∧ lpDie 116 = 2 ∧ lpClu 116 = 14 ∧
    ((regAt (0x20850000 % 2 ^ 28)).map fun a => regIdx a (0x20850000 / 2 ^ 28)) = some 29 := by decide +kernel

/-- Table 17.1: port unit 30 is local port unit 6 of die 2, and its fixed counters are 96 to 100, enabled after reset; 101 is
programmable. -/
theorem test_fixed_counters : (List.range 1024).filter (fun i => ctrFixed i && i / 16 == 6) = [96, 97, 98, 99, 100] ∧
    rd dyn0 .pmcSelEn (2 * 1024 + 96) = 1 ∧ rd dyn0 .pmcSelEvent (2 * 1024 + 100) = 5 ∧ rd dyn0 .pmcSelEn (2 * 1024 + 101) = 0 := by
  decide +kernel

/-- The entry of chapter 5's example (MAPPED, tier 0, RUN 0b01, DEV 5, BPAGE 0x6180) with each field at its bits of Table 4.2; the
example prints BPAGE four bits lower (assumption 118). -/
theorem test_placement_entry : ptWord ⟨1, false, 0, 1, 0, 5, 0x6180, 0⟩ = 0x440A001860000000 := by decide

/-- Chapter 10: the REQ word at index 0x0B of the interface at (1, 0) is 0x8180_0000, and after the loss of the boundary the new one
at 0x8B is 0xA280_0000. -/
theorem test_route_words : baseWord 0 8 0 11 = 0x81800000 ∧ routeWord 0 1 0 0 5 0 = 0xA2800000 := by decide +kernel

/-- The rules of the worked example of chapter 7. -/
def rulesT : Cfg := (stc [(.gateRuleReqV, 40, 1), (.gateRuleReqLport, 40, 117), (.gateRuleReqHostAny, 40, 1), (.gateRuleTgtTkind, 40, 2),
  (.gateRuleTgtTgt, 40, 5), (.gateRuleBasePage, 40, 0x2000000), (.gateRuleLimitPage, 40, 0x2000000), (.gateRuleReqKinds, 40, 3),
  (.gateRuleReqV, 41, 1), (.gateRuleReqLport, 41, 117), (.gateRuleReqHostAny, 41, 1), (.gateRuleTgtTkind, 41, 2),
  (.gateRuleTgtTgt, 41, 5), (.gateRuleBasePage, 41, 0x2000001), (.gateRuleLimitPage, 41, 0x2000001), (.gateRuleReqKinds, 41, 1),
  (.gateCtlDfltHost, 0, 0)] []).cfg

/-- Step 1 of Table 7.5: 256 B of the 512 B write are permitted, and four parts from 0x20_0000_1000 are refused by rule 41. -/
theorem test_gate_write : let l := checkParts rulesT ⟨8, 117, .ioWr, .host 5, 0x2000000F00, 512, none, .i, false, none, false⟩ none
    permittedRuns l = [(0x2000000F00, 256)] ∧ forbiddenRuns l = [(0x2000001000, 4, some 41)] := by decide +kernel

/-- Step 2 of Table 7.5: the second part of the read lies on a page that no rule covers. -/
theorem test_gate_read : forbiddenRuns (checkParts rulesT ⟨8, 117, .ioRd, .host 5, 0x2000001FC0, 128, none, .i, false, none, false⟩ none) =
    [(0x2000002000, 1, none)] := by decide +kernel

/-- Step 3 of Table 8.4: of 200 reads from tc 8,768 and tp 12,768, 137 are green, 62 yellow and the next is red with tc 0 and tp 32. -/
theorem test_policer : (List.range 137).foldl (fun m _ => policeMark false 0 64 m.2.1 m.2.2) (0, 8768, 12768) = (0, 0, 4000) ∧
    (List.range 62).foldl (fun m _ => policeMark false 0 64 m.2.1 m.2.2) (0, 0, 4000) = (1, 0, 32) ∧
    policeMark false 0 64 0 32 = (2, 0, 32) := by decide +kernel

/-- Chapter 14: an on time of 11.21 ms gives an off time of 1,109.79 ms. -/
theorem test_off_time : (slotGet (slotTrip arrEmpty 29 { dyn0 with now := 111211400, slot := ⟨[(29, { slot0 with onAt := 100001400 })]⟩ }) 29).offFor =
    1109790000 := by decide +kernel

/-! ## One step -/

/-- R500: FREEZE is written, and nothing else. -/
theorem test_freeze_step : step { State.reset with pending := [.freeze true, .refill] } =
    .next { st [(.pmcCtlFreeze, 0, 1)] with pending := [.refill] } := rfl

/-- R533: a pulse of 500 µs stops, one of 50 µs is ignored. -/
theorem test_cold_rst_step : step { State.reset with pending := [.coldRst 500000] } = .fault .coldRstUndefined ∧
    step { State.reset with pending := [.coldRst 50000] } = .next State.reset := ⟨rfl, rfl⟩

/-! ## Witnesses of the statements' hypotheses -/

/-! GateCommandsComplete -/

theorem wit_genInstalled : let s := stOf { dyn0 with gate := ⟨1, [0, 0, 0, 0], [], 0, 0, 0, false, 0, [0, 0, 0, 0]⟩ }
    s.dyn.gate.inForce.length = 4 ∧ genOf s.dyn 3 + 1 ≤ s.dyn.gate.newest := by decide
theorem wit_syncDone : let s := stOf { dyOf [(.gateSyncDoneDone, 0, 0)] with flights := [{ flightT with home := none }] }
    inSwitch s.dyn 8 = false ∧ rd s.dyn .gateSyncDoneDone 0 = 0 := by decide
theorem wit_syncSlow : let s := stOf { dyOf [(.gateSyncDoneDone, 0, 0)] with now := 10000000000 }
    rd s.dyn .gateSyncDoneDone 0 = 0 ∧ s.dyn.gate.warned = false ∧
    s.dyn.gate.syncAt + max 1 (cg s.cfg .gateCtlSyncWarnMs 0) * 1000000 ≤ s.dyn.now := by decide

/-! CounterCommandsComplete -/

theorem wit_refill : refillDue (st [(.dieTstampNs, 0, 1000), (.dieTstampNs, 1, 1000), (.dieTstampNs, 2, 1000), (.dieTstampNs, 3, 1000)]).dyn = true := by decide
theorem wit_selFixed : ctrFixed (180 : Fin 1024) = true := by decide
theorem wit_selListed : ctrFixed (1023 : Fin 1024) = false ∧ evListed (1023 : Fin 1024) (bits (0x80490000 : Word).toNat 16 8) = true := by decide
theorem wit_selBad : ctrFixed (5 : Fin 1024) = false ∧ evListed (5 : Fin 1024) (bits (0x800F0000 : Word).toNat 16 8) = false := by decide

/-! CsrAccessCommandsComplete -/

theorem wit_regWrite : let s := st [(.monDbgStsUnlocked, 3, 1), (.monDbgStsScWrite, 3, 1)]
    accessWaits s.cfg s.dyn 0x4FFFFFFC = false ∧ mayWrite s.cfg s.dyn (.ranger 3) 0x4FFFFFFC = true := by decide
theorem wit_regWriteHeld : let s := stOf { dyn0 with mgmt := { dyn0.mgmt with moving := true } }
    accessWaits s.cfg s.dyn 0x4FFFFFFC = true ∧ 0x4FFFFFFC ≤ 0x4FFFFFFF := by decide
theorem wit_csrRead : accessWaits State.reset.cfg State.reset.dyn 0x3FFFFFFC = false ∧ mayRead State.reset.cfg State.reset.dyn (.ranger 0) = true := by decide
theorem wit_aliasRead : State.reset.dyn.mgmt.moving = false ∧ mayRead State.reset.cfg State.reset.dyn (.ranger 0) = true := by decide
theorem wit_aliasWrite : let s := st [(.monDbgStsUnlocked, 3, 1), (.monDbgStsScWrite, 3, 1)]
    s.dyn.mgmt.moving = false ∧ mayWrite s.cfg s.dyn (.ranger 3) (0x40000000 + 0xFFFFFFF % 2 ^ 28) = true := by decide
theorem wit_counterSample : accessWaits State.reset.cfg State.reset.dyn (3 * 2 ^ 28 + 0x2104000 + 8 * 1023) = false ∧
    mayRead State.reset.cfg State.reset.dyn (.ranger 3) = true := by decide +kernel
theorem wit_tdRead : accessWaits State.reset.cfg State.reset.dyn (3 * 2 ^ 28 + 0x2100100 + 4 * 11) = false ∧
    mayRead State.reset.cfg State.reset.dyn (.ranger 3) = true := by decide +kernel

/-! BootCommandsComplete -/

theorem wit_powerOn : State.reset.dyn.elec.vin = false := by decide
theorem wit_imageLoad : let s := stOf { dyOf [(.secBootStsStage, 0, 2), (.nvmFlashStsPass, 3, 1)] with boot := { boot0 with flash := [flashT, flashT, flashT, flashT] } }
    rd s.dyn .secBootStsStage 0 = 2 ∧ flashSource s.dyn = some 3 ∧ s.dyn.boot.flash[3]? = some flashT ∧ s.dyn.boot.tried = false ∧
    firstSlot s.dyn flashT = some false := by decide +kernel
theorem wit_imageLoadOther : let s := stOf { dyOf [(.secBootStsStage, 0, 2), (.nvmFlashStsPass, 3, 1)] with
      boot := { boot0 with flash := [flashT, flashT, flashT, flashT], tried := true } }
    rd s.dyn .secBootStsStage 0 = 2 ∧ flashSource s.dyn = some 3 ∧ s.dyn.boot.flash[3]? = some flashT ∧ s.dyn.boot.tried = true := by decide +kernel
theorem wit_imageVerify : let s := bootT [(.secBootStsStage, 0, 3), (.secKeyStsEdSet, 0, 1), (.secKeyStsMlSet, 0, 1)] false
    rd s.dyn .secBootStsStage 0 = 3 ∧ s.dyn.boot.cand = some imageT ∧ imgGood s.dyn imageT = true := by decide
theorem wit_imageVerifyBad : let s := bootT [(.secBootStsStage, 0, 3)] false
    rd s.dyn .secBootStsStage 0 = 3 ∧ s.dyn.boot.cand = some imageT ∧ imgGood s.dyn imageT = false ∧ s.dyn.boot.tried = false := by decide
theorem wit_imageVerifyLast : let s := bootT [(.secBootStsStage, 0, 3)] true
    rd s.dyn .secBootStsStage 0 = 3 ∧ s.dyn.boot.cand = some imageT ∧ imgGood s.dyn imageT = false ∧ s.dyn.boot.tried = true := by decide +kernel
theorem wit_recoveryImage : let s := bootT [(.secBootStsStage, 0, 15), (.nvmFlashStsPass, 0, 1), (.secKeyStsEdSet, 0, 1), (.secKeyStsMlSet, 0, 1)] true
    rd s.dyn .secBootStsStage 0 = 15 ∧ flashSource s.dyn = some 0 ∧ s.dyn.boot.flash[0]? = some flashT ∧
    imgGood (slotWrite (!(logBase flashT.log).getD true) imageT s.dyn) imageT = true := by decide +kernel
theorem wit_recoveryImageBad : let s := bootT [(.secBootStsStage, 0, 15), (.nvmFlashStsPass, 0, 1)] true
    rd s.dyn .secBootStsStage 0 = 15 ∧ flashSource s.dyn = some 0 ∧ s.dyn.boot.flash[0]? = some flashT ∧
    imgGood (slotWrite (!(logBase flashT.log).getD true) imageT s.dyn) imageT = false := by decide +kernel

/-! LateStartCommandsComplete -/

theorem wit_registerRecords : let s := stOf { dyOf [(.secBootStsStage, 0, 4)] with boot := { boot0 with image := some imageT } }
    rd s.dyn .secBootStsStage 0 = 4 ∧ s.dyn.boot.image = some imageT := by decide
theorem wit_amendmentReplay : rd (st [(.secBootStsStage, 0, 5)]).dyn .secBootStsStage 0 = 5 := by decide
theorem wit_firmwareStart : rd (st [(.secBootStsStage, 0, 6)]).dyn .secBootStsStage 0 = 6 := by decide
theorem wit_linkEnable : let s := st [(.secBootStsStage, 0, 7)]
    rd s.dyn .secBootStsStage 0 = 7 ∧ s.dyn.noc.bank0.used = false := by decide
theorem wit_deviceReady : let s := stOf { dyOf [(.secBootStsStage, 0, 7)] with noc := { noc0 with bank0 := ⟨true, 0, arrEmpty⟩ } }
    rd s.dyn .secBootStsStage 0 = 7 ∧ s.dyn.noc.bank0.used = true := by decide

/-! PortLinkCommandsComplete -/

theorem wit_presence : let s := State.reset
    lpExists s.cfg (188 : Lport) = true ∧ (if cg s.cfg .portPcfgBif (lpPu (188 : Lport)) = 0 then false || true else true) = true := by decide
theorem wit_presenceLost : let s := st [(.portLstsPrsnt, 188, 1)]
    lpExists s.cfg (188 : Lport) = true ∧ (if cg s.cfg .portPcfgBif (lpPu (188 : Lport)) = 0 then false || false else false) = false ∧
    rd s.dyn .portLstsPrsnt (188 : Lport) = 1 ∧ lpLinkUp s.dyn (188 : Lport) = false := by decide
theorem wit_linkUp : rd (st [(.secBootStsStage, 0, 8)]).dyn .secBootStsStage 0 = 8 := by decide
theorem wit_l0p : let s := stc [(.portLpmCtlL0pEn, 0, 1), (.portLpcfgRole, 188, 2)] [(.portLstsLinkUp, 188, 1), (.portLstsWidth, 188, 5), (.dieRclkStsR1Lock, 3, 1)]
    cg s.cfg .portLpmCtlL0pEn 0 = 1 ∧ portOpen s.cfg s.dyn (188 : Lport) = true ∧ (16 : Fin 17).val ≤ widthLanes (rd s.dyn .portLstsWidth (188 : Lport)) := by decide
theorem wit_l1Entry : let s := stc [(.portLpmCtlL1En, 0, 1), (.portLpcfgRole, 188, 2)] [(.portLstsLinkUp, 188, 1), (.dieRclkStsR1Lock, 3, 1)]
    isDown s.cfg s.dyn (188 : Lport) = true ∧ portOpen s.cfg s.dyn (188 : Lport) = true ∧ cg s.cfg .portLpmCtlL1En 0 = 1 := by decide
theorem wit_l1Exit : domPwr State.reset.dyn (domPu (lpPu (188 : Lport))) < 2 := by decide
theorem wit_l1ExitAsleep : 2 ≤ domPwr (st [(.pwrDomStsState, domPu 47, 2)]).dyn (domPu (lpPu (188 : Lport))) := by decide
theorem wit_linkLossDown : let s := stc [(.portLpcfgRole, 188, 2)] [(.portLstsLinkUp, 188, 1)]
    lpLinkUp s.dyn (188 : Lport) = true ∧ isUp s.cfg s.dyn (188 : Lport) = false := by decide
theorem wit_linkLossUp : let s := stc [(.portLpcfgRole, 188, 1)] [(.portLstsLinkUp, 188, 1)]
    lpLinkUp s.dyn (188 : Lport) = true ∧ isUp s.cfg s.dyn (188 : Lport) = true := by decide

/-! PortContainmentCommandsComplete -/

theorem wit_dpcTrigRelease : let s := st [(.portLstsContained, 191, 1)]
    lpContained s.dyn (191 : Lport) = true ∧ hostHolds s.dyn (191 : Lport) = false := by decide
theorem wit_dpcHeld : hostHolds (stOf { dyn0 with alloc := { alloc0 with bnds := [⟨191, 0, 127, 31, true⟩] } }).dyn (191 : Lport) = true := by decide
theorem wit_vppbRelease : let s := stOf { dyOf [(.portLstsContained, 191, 1)] with alloc := { alloc0 with bnds := [⟨191, 0, 127, 31, true⟩] } }
    s.dyn.alloc.bnds.find? (fun b => b.vcs == (127 : Host).val && b.vppb == (31 : Fin 32).val) = some ⟨191, 0, 127, 31, true⟩ ∧
    lpContained s.dyn 191 = true := by decide
theorem wit_ideFail : let s := stc [(.portLpcfgRole, 188, 2)] [(.portLstsLinkUp, 188, 1), (.portLstsIdeOn, 188, 1)]
    lpLinkUp s.dyn (188 : Lport) = true ∧ rd s.dyn .portLstsIdeOn (188 : Lport) = 1 ∧ isUp s.cfg s.dyn (188 : Lport) = false := by decide
theorem wit_uncorrectable : let s := stc [(.portLpcfgRole, 188, 2)] []
    lpRole s.cfg s.dyn (188 : Lport) = 2 ∧ rd s.dyn .portContNfTrig (188 : Lport) = 0 ∧ aerFns s.cfg s.dyn (188 : Lport) = [] := by decide
theorem wit_uncorrectableBound : let s := stc [(.portLpcfgRole, 188, 2)] []
    let t := { s with dyn := { s.dyn with alloc := { alloc0 with bnds := [⟨188, 0, 127, 31, true⟩] } } }
    lpRole t.cfg t.dyn (188 : Lport) = 2 ∧ rd t.dyn .portContNfTrig (188 : Lport) = 0 ∧ aerFns t.cfg t.dyn (188 : Lport) ≠ [] := by decide

/-! GrantCommandsComplete -/

theorem wit_alloc : let d := ringT 16383 (entT [1, 0, 0, 0, 268435456, 0])
    entReady d (16383 : RingId) 0 1 = some (entT [1, 0, 0, 0, 268435456, 0]) ∧
    (d.alloc.queue.any fun q => q.slice == (16383 : RingId).val / 4) = false ∧
    ((allCtxs d).any fun c => c.slice == (16383 : RingId).val / 4) = false := by decide
theorem wit_allocAcceptPaused : let d := poolT { allocT with paused := [{ ctx0 with slice := 4095 }] }
    rd d .xltPtLocReady 0 = 1 ∧ d.alloc.rebuild = false ∧ quorumLost d = false ∧ leadsSystem d = true ∧ nextSlice d = some 4095 ∧ freeCtx d = some 0 ∧
    d.alloc.paused.find? (fun c => c.slice == 4095) = some { ctx0 with slice := 4095 } := by decide
theorem wit_allocAcceptNew : let d := poolT { allocT with queue := [⟨4095, 16383, 0, 7, 268435456⟩] }
    rd d .xltPtLocReady 0 = 1 ∧ d.alloc.rebuild = false ∧ quorumLost d = false ∧ leadsSystem d = true ∧ nextSlice d = some 4095 ∧ freeCtx d = some 0 ∧
    d.alloc.paused.find? (fun c => c.slice == 4095) = none ∧
    d.alloc.queue.find? (fun q => q.slice == 4095) = some ⟨4095, 16383, 0, 7, 268435456⟩ := by decide
theorem wit_grantPiece : let d := poolT { allocT with ctxs := ⟨[(7, { ctx0 with busy := true, step := 7, pages := 128, done := 128 }),
      (8, { ctx0 with busy := true, step := 7, pages := 128, done := 0 })]⟩ }
    (ctxGet d 7).busy = true ∧ (ctxGet d 7).step = 7 ∧ (ctxGet d 8).busy = true ∧ (ctxGet d 8).step = 7 := by decide
theorem wit_addDcResponse : let d := poolT { allocT with exts := [extT false none] }
    d.alloc.exts.find? (fun e => e.ld == (127 : Host).val && e.tag == 1 && !e.took && e.byAt != 0 && !e.going && !e.quar)
      = some (extT false none) := by decide
theorem wit_release : let d := { ringT 16383 (entT [2, 0, 0, 0, 268435456, 0]) with alloc := { allocT with exts := [{ extT true (some 4095) with ld := 0 }] } }
    let e := entT [2, 0, 0, 0, 268435456, 0]
    entReady d (16383 : RingId) 0 2 = some e ∧ argAt e.w 0 % 268435456 = 0 ∧ argAt e.w 1 % 268435456 = 0 ∧
    rangeIn d (sliceHost arrEmpty d 4095) (argAt e.w 0 / 2097152) (argAt e.w 1 / 2097152)
      (fun x => x.slice == some ((16383 : RingId).val / 4) && !x.going && !x.quar) = true := by decide
theorem wit_releaseBad : let d := ringT 16383 (entT [2, 0, 0, 0, 268435456, 0])
    let e := entT [2, 0, 0, 0, 268435456, 0]
    entReady d (16383 : RingId) 0 2 = some e ∧ (argAt e.w 0 % 268435456 == 0 && argAt e.w 1 % 268435456 == 0 &&
    rangeIn d (sliceHost arrEmpty d 4095) (argAt e.w 0 / 2097152) (argAt e.w 1 / 2097152)
      (fun x => x.slice == some ((16383 : RingId).val / 4) && !x.going && !x.quar)) = false := by decide
theorem wit_releaseDc : let d := poolT { allocT with exts := [extT true none] }
    rangeIn d (127 : Host) 0 128 (fun e => !e.going && !e.quar) = true := by decide
theorem wit_zeroing : let d := poolT { allocT with blks := arrEmpty }
    rd d .xltPtLocReady 0 = 1 ∧ zeroInside d (127 : Dev) 511 1 = false ∧ 511 % 128 + 1 ≤ 128 ∧ 511 / 128 < nblk d (127 : Dev) ∧ (blkGet d (127 : Dev) (511 / 128)).resv = false ∧
    ((blkGet d (127 : Dev) (511 / 128)).dirty &&& pgMask 511 1) = pgMask 511 1 ∧ 511 / 128 ≤ aget 0 d.alloc.front (127 : Dev) ∧
    devOk d (127 : Dev) = true := by decide

/-! PoolAndHostStateCommandsComplete -/

theorem wit_poolReady : let d := { dyOf [(.xltBedevV, 127, 1), (.xltPtLocPrimDev, 0, 127), (.xltPtLocBlocks, 0, 1), (.portLstsLinkUp, 0, 1)] with alloc := allocT }
    rd d .xltPtLocReady 0 = 0 ∧ devUp d (rd d .xltPtLocPrimDev 0) = true ∧ rd d .xltPtLocCopyV 0 = 0 ∧ 0 < rd d .xltPtLocBlocks 0 := by decide +kernel
theorem wit_initialGrant : let g := (stc [(.allocRpolDefined, 1023, 1), (.allocRpolInitBlocks, 1023, 1)] []).cfg
    let d := poolT allocT
    rd d .xltPtLocReady 0 = 1 ∧ (ctxGet d 8).busy = false ∧ (initList g).contains ((127 : Host).val, (7 : Fin 8).val) = true ∧
    d.alloc.inited.contains (127, 7) = false ∧ (((initList g).takeWhile fun x => x != (127, 7)).all fun x => d.alloc.inited.contains x) = true ∧
    cg g .allocRpolShared 1023 = 0 ∧ cg g .allocRpolInitBlocks 1023 ≤ tierFree d (cg g .allocRpolTierPref 1023) ∧
    srDead g { d with alloc := { d.alloc with inited := d.alloc.inited ++ [(127, 7)] } } 127 7 = false ∧
    (planGrant g 127 1023 128 0 { d with alloc := { d.alloc with inited := d.alloc.inited ++ [(127, 7)] } }).isSome = true := by decide +kernel
theorem wit_initialGrantShort : let g := (stc [(.allocRpolDefined, 1023, 1), (.allocRpolInitBlocks, 1023, 1)] []).cfg
    let d := poolT alloc0
    rd d .xltPtLocReady 0 = 1 ∧ (ctxGet d 8).busy = false ∧ (initList g).contains ((127 : Host).val, (7 : Fin 8).val) = true ∧
    d.alloc.inited.contains (127, 7) = false ∧ (((initList g).takeWhile fun x => x != (127, 7)).all fun x => d.alloc.inited.contains x) = true ∧
    tierFree d (cg g .allocRpolTierPref 1023) < cg g .allocRpolInitBlocks 1023 ∧ tierZeroing d (cg g .allocRpolTierPref 1023) = false ∧
    tierZeroing d (1 - cg g .allocRpolTierPref 1023) = false ∧ min (cg g .allocRpolInitBlocks 1023) (polRoom g d 1023 / 128) = 0 := by decide +kernel
theorem wit_graceExpiry : let s := stOf { dyOf [(.allocHostStsState, 127, 1)] with now := 10000000000000 }
    hostState s.dyn (127 : Host) = 1 ∧ aget 0 s.dyn.alloc.hostAt (127 : Host) + cg s.cfg .allocCtlGraceS 0 * 1000000000 ≤ s.dyn.now := by decide
theorem wit_reclaimExpiry : let s := { stc [(.allocCtl2ReclaimS, 0, 1)] [] with dyn := { dyOf [(.allocHostStsState, 127, 2)] with now := 10000000000000 } }
    hostState s.dyn (127 : Host) = 2 ∧ cg s.cfg .allocCtl2ReclaimS 0 ≠ 0 ∧
    aget 0 s.dyn.alloc.hostAt (127 : Host) + cg s.cfg .allocCtl2ReclaimS 0 * 1000000000 ≤ s.dyn.now := by decide
theorem wit_journal : let d := { dyn0 with alloc := { alloc0 with journal := [(3, [1], .grantReserved 8), (4, [1, 11], .nothing)] } }
    (d.alloc.journal.any fun x => x.1 == 3 && x.2.1.contains (1 : Fin 12).val) = true ∧
    d.alloc.journal.find? (fun x => x.1 == 3 && x.2.1.contains (1 : Fin 12).val) = some (3, [1], .grantReserved 8) ∧
    d.alloc.journal.find? (fun x => x.1 == 4 && x.2.1.contains (11 : Fin 12).val) = some (4, [1, 11], .nothing) := by decide
theorem wit_resync : rd (st [(.allocMirStsSyncing, 0, 1)]).dyn .allocMirStsSyncing 0 = 1 := by decide

/-! NetworkPacketCommandsComplete -/

theorem wit_packetHop : let d := netT { netF with rhops := 1 } [(.dieRclkStsR1Lock, 3, 1)]
    let f := { netF with rhops := 1 }
    d.noc.net.find? (fun f => f.nid == 5) = some f ∧ rtrStopped d f.rtr = false ∧ behind d f = false ∧ nextDir f = some 2 ∧ linkLost d f.rtr 2 = false ∧
    rtrStopped d (linkTo f.rtr 2) = false ∧ domPwr d (domRtr (linkTo f.rtr 2)) < 2 ∧ gklOfLink f.rtr 2 = none ∧ inputRoom d f 2 = true := by decide
theorem wit_packetCross : let f := { netF with rtr := 1, chops := 1, cdir := 0, dst := 2 }
    let d := { netT f [(.dieRclkStsR1Lock, 0, 1), (.dieRclkStsR0Lock, 1, 1)] with gkl := arrEmpty }
    d.noc.net.find? (fun f => f.nid == 5) = some f ∧ rtrStopped d f.rtr = false ∧ behind d f = false ∧ nextDir f = some 0 ∧ linkLost d f.rtr 0 = false ∧
    rtrStopped d (linkTo f.rtr 0) = false ∧ domPwr d (domRtr (linkTo f.rtr 0)) < 2 ∧ (gklOfLink f.rtr 0).isSome = true := by decide
theorem wit_packetEject : let d := netT netF [(.dieRclkStsR1Lock, 3, 1)]
    d.noc.net.find? (fun f => f.nid == 5) = some netF ∧ rtrStopped d netF.rtr = false ∧ behind d netF = false ∧ nextDir netF = none ∧
    ejectRoom d netF = true ∧ domPwr d (domRtr netF.rtr) ≤ 1 ∧ (netF.pkt.dst < 192 → domPwr d (domPu (lpPu netF.pkt.dst)) ≤ 1) := by decide
theorem wit_packetLost : let f := { netF with rhops := 1 }
    let d := netT f [(.dieRclkStsR1Lock, 3, 1), (.nocRtrStsLost, rtrIdx 7, 4)]
    d.noc.net.find? (fun f => f.nid == 5) = some f ∧ rtrStopped d f.rtr = false ∧ behind d f = false ∧ nextDir f = some 2 ∧ linkLost d f.rtr 2 = true := by decide
theorem wit_packetParity : let d := netT netF []
    d.noc.net.find? (fun f => f.nid == 5) = some netF ∧ netF.pkt.host = none := by decide
theorem wit_linkLost : linkLost dyn0 (31 : Router) (3 : Fin 4) = false := by decide
theorem wit_resend : let d := { dyn0 with noc := { noc0 with xchs := [⟨9, 0, 7, false⟩] }, now := 100000000 }
    d.noc.xchs.find? (fun x => x.xid == 9) = some ⟨9, 0, 7, false⟩ ∧ 0 + max 1 (cg arrEmpty .nocCtlResendUs 0) * 1000 ≤ d.now := by decide

/-! SpanClosureCommandsComplete -/

theorem wit_spanClose : let s := State.reset
    neverClosed s.cfg s.dyn (59 : Fin 60) = false ∧ fenced s.dyn (59 : Fin 60) = false ∧ s.dyn.noc.spanQ.contains 59 = false ∧
    rd s.dyn .nocSpanStsBusy 0 = 0 ∧ s.dyn.noc.spanQ = [] := by decide +kernel
theorem wit_spanCloseWaits : let s := st [(.nocSpanStsBusy, 0, 1)]
    neverClosed s.cfg s.dyn (59 : Fin 60) = false ∧ fenced s.dyn (59 : Fin 60) = false ∧ s.dyn.noc.spanQ.contains 59 = false ∧
    rd s.dyn .nocSpanStsBusy 0 = 1 := by decide +kernel
theorem wit_fenceMsg : let s := st [(.nocSpanStsBusy, 0, 1), (.nocSpanStsEp, 0, 59)]
    rd s.dyn .nocSpanStsBusy 0 = 1 ∧ rd s.dyn .nocSpanStsEp 0 = (59 : Fin 60).val := by decide
theorem wit_fenceMark : let d := { dyOf [(.nocSpanStsBusy, 0, 1), (.nocSpanStsEp, 0, 59), (.nocSpanStsMarks, 0, 63)] with
      noc := { noc0 with niFence := ⟨[(59 * 32 + 31, 1)]⟩, niSent := ⟨[(31, 1)]⟩ } }
    rd d .nocSpanStsBusy 0 = 1 ∧ aget 0 d.noc.niFence (rd d .nocSpanStsEp 0 * 32 + (31 : Router)) = 1 ∧ aget 0 d.noc.niSent (31 : Router) < 2 ∧
    rd d .nocSpanStsMarks 0 < 64 := by decide
theorem wit_spanClosed : let s := st [(.nocSpanStsBusy, 0, 1), (.nocSpanStsMarks, 0, 64)]
    rd s.dyn .nocSpanStsBusy 0 = 1 ∧ rd s.dyn .nocSpanStsMarks 0 = 64 ∧ s.dyn.noc.spanQ = [] ∧
    s.dyn.noc.reopen.contains (rd s.dyn .nocSpanStsEp 0) = false := by decide
theorem wit_unfence : let s := st [(.nocFenceAlloc, 0, 8)]
    ¬ (rd s.dyn .nocSpanStsBusy 0 = 1 ∧ rd s.dyn .nocSpanStsEp 0 = (59 : Fin 60).val) ∧ fenced s.dyn (59 : Fin 60) = true ∧
    regFail s.dyn (epRegion (59 : Fin 60)) = false ∧ domPwr s.dyn (epDom (59 : Fin 60)) ≤ 1 := by decide

/-! RouteBankCommandsComplete -/

theorem wit_reconfig : let d := { dyn0 with hlth := { hlth0 with running := [⟨4, actReq 5 [] [], 0, 0⟩] } }
    rd d .nocEpochBusy 0 = 0 ∧ (d.hlth.running.find? (fun a => a.q.code == 5)).isSome = true := by decide
theorem wit_bankLoad : let s := st [(.nocEpochBusy, 0, 1)]
    rd s.dyn .nocEpochBusy 0 = 1 ∧ s.dyn.noc.swAt = none ∧ bankValid { s.dyn with noc := { s.dyn.noc with bank1 := ⟨true, 0, arrEmpty⟩ } } ⟨true, 0, arrEmpty⟩ = true := by decide +kernel
theorem wit_bankLoadBad : let s := st [(.nocEpochBusy, 0, 1)]
    let k : Bank := ⟨true, 0, forAll [(0, 0x80800000)] (fun x (a : Arr Nat) => aset 0 a x.1 x.2) arrEmpty⟩
    bankValid { s.dyn with noc := { s.dyn.noc with bank1 := k } } k = false := by decide +kernel
theorem wit_switchTime : let d := { dyn0 with noc := { noc0 with swAt := some 2000 }, now := 2000 }
    d.noc.swAt = some 2000 ∧ 2000 ≤ d.now ∧ rd d .nocEpochSwitched 0 = 0 := by decide
theorem wit_drained : let s := st [(.nocEpochSwitched, 0, 1), (.nocEpochDrained, 0, 3)]
    rd s.dyn .nocEpochSwitched 0 = 1 ∧ oldCount s.dyn (3 : Fin 4) = 0 ∧ bitAt (rd s.dyn .nocEpochDrained 0) (3 : Fin 4) = false ∧
    bitSet (rd s.dyn .nocEpochDrained 0) (3 : Fin 4) ≠ 15 := by decide
theorem wit_drainedLast : let s := st [(.nocEpochSwitched, 0, 1), (.nocEpochDrained, 0, 7)]
    oldCount s.dyn (3 : Fin 4) = 0 ∧ bitAt (rd s.dyn .nocEpochDrained 0) (3 : Fin 4) = false ∧ bitSet (rd s.dyn .nocEpochDrained 0) (3 : Fin 4) = 15 := by decide

/-! SharedLineCommandsComplete -/

theorem wit_sharedRequest : sliceStopped (dyOf lockT) (47 : DSlice) = false := by decide
theorem wit_snoopRecord : let s := cohT (opT 1 [(127, 0)] .rdS) [] []
    hostPort s.cfg s.dyn (127 : Host) = some 188 ∧ earlier s.cfg s.dyn (127 : Host) 5 = false ∧
    (s.dyn.coh.recs.any fun r => r.host == (127 : Host).val && r.key == 5) = false ∧ homeNo s.cfg s.dyn 5 < 48 ∧
    openOf (dirGet s.dyn (homeSlice 5)) 5 = some (opT 1 [(127, 0)] .rdS) ∧
    ((opT 1 [(127, 0)] .rdS).snoops.any fun x => x.1 == (127 : Host).val) = true := by decide +kernel
theorem wit_snoopRecordFar : let s := { cohT (opT 1 [(127, 0)] .rdS) [] [] with cfg := (stc ((.cohSrCfgHomePkg, 0, 1) :: hostCfg) []).cfg }
    hostPort s.cfg s.dyn (127 : Host) = some 188 ∧ earlier s.cfg s.dyn (127 : Host) 5 = false ∧
    (s.dyn.coh.recs.any fun r => r.host == (127 : Host).val && r.key == 5) = false ∧ 48 ≤ homeNo s.cfg s.dyn 5 := by decide +kernel
theorem wit_birsp : let t := cohT (opT 1 [(127, 0)] .rdS) [⟨127, 5, none, none⟩] lockT
    let s := { t with dyn := { t.dyn with flights := [] } }
    homeNo s.cfg s.dyn 5 < 48 ∧ sliceStopped s.dyn (homeSlice 5) = false ∧
    s.dyn.coh.recs.find? (fun r => r.host == (127 : Host).val && r.key == 5) = some ⟨127, 5, none, none⟩ ∧
    pendingWb s.dyn (127 : Host) 5 = none ∧ hostPort s.cfg s.dyn (127 : Host) = some 188 := by decide +kernel
theorem wit_grant : let s := cohT (opT 2 [] .inv) [] []
    openOf (dirGet s.dyn (homeSlice 5)) 5 = some (opT 2 [] .inv) ∧ (opT 2 [] .inv).q = some (sreqT .inv) ∧ (opT 2 [] .inv).phase = 2 ∧
    flightOf s.dyn (sreqT .inv).id = some flightT ∧ flightT.grant = 0 ∧ flightT.home = some (homeSlice 5, 5) := by decide
theorem wit_grantFar : let t := cohT (opT 2 [] .inv) [] []
    let g := (stc ((.cohSrCfgHomePkg, 0, 1) :: hostCfg) []).cfg
    let f := { flightT with home := some (homeNo g t.dyn 5, 5) }
    let d := { t.dyn with flights := [f] }
    flightOf d 8 = some f ∧ f.grant = 0 ∧ homeSlice 5 < 48 ∧ 48 ≤ homeNo g d 5 ∧ f.home = some (homeNo g d 5, 5) := by decide
theorem wit_done : let s := { cohT (opT 2 [] .rdS) [] lockT with dyn := { (cohT (opT 2 [] .rdS) [] lockT).dyn with flights := [] } }
    openOf (dirGet s.dyn (homeSlice 5)) 5 = some (opT 2 [] .rdS) ∧ (opT 2 [] .rdS).phase = 2 ∧ (s.dyn.flights.any fun f => some f.req.id == (some (8 : Nat))) = false ∧ sliceStopped s.dyn (homeSlice 5) = false ∧
    ((opT 2 [] .rdS).q.map fun q => q.host) = some 127 := by decide
theorem wit_biconflict : let s := cohT (opT 1 [] .rdS) [] []
    hostPort s.cfg s.dyn (127 : Host) = some 188 ∧ earlier s.cfg s.dyn (127 : Host) 5 = false := by decide +kernel
theorem wit_bisnpTimeout : let s := cohT (opT 1 [(127, 0)] .rdS) [] []
    ((openOf (dirGet { s.dyn with now := 10000000000 } (homeSlice 5)) 5).any fun o => o.snoops.any fun t =>
      t.1 == (127 : Host).val && decide (t.2 + bisnpTmo s.cfg ≤ 10000000000)) = true := by decide
theorem wit_walkDone : (stOf { dyn0 with coh := ⟨arrEmpty, [], [], [], [127, 3], arrEmpty⟩ }).dyn.coh.walks = [127, 3] := by decide

/-! WritebackAndRetryCommandsComplete -/

theorem wit_snoopWriteback : let s := cohT (opT 1 [(127, 0)] .rdS) [⟨127, 5, none, none⟩] []
    flightOf s.dyn 8 = some flightT ∧ flightT.home = some (homeSlice 5, 5) ∧ reqHost s.cfg s.dyn flightT.req = some 127 ∧
    recOf s.dyn 127 5 = some ⟨127, 5, none, none⟩ ∧ flightT.req.kind = .memWr ∧ flightT.grant = 0 := by decide
theorem wit_ordinaryWriteback : let s := wbT []
    let sl := homeSlice 5
    let u := ungate (48 + sl) s.dyn
    flightOf s.dyn 8 = some flightT ∧ flightT.home = some (sl, 5) ∧ sl < 48 ∧ sliceStopped s.dyn sl = false ∧
    wbSays s.cfg u sl ⟨8, none⟩ = some ⟨127, 5, .i, 47, 0⟩ ∧ wbKnown (dirGet u sl) 8 5 = false ∧ hostFailed u 127 = false ∧
    isOwnerWb (dirGet u sl) 5 127 = true := by decide +kernel
theorem wit_wbGo : let s := wbT [⟨5, 127, 8, false, none, true, 1⟩]
    flightOf s.dyn 8 = some flightT ∧ flightT.home = some (homeSlice 5, 5) ∧ homeSlice 5 < 48 ∧
    (dirGet s.dyn (homeSlice 5)).wbs.find? (fun w => w.id == 8 && w.key == 5 && !w.gone) = some ⟨5, 127, 8, false, none, true, 1⟩ := by decide
theorem wit_wbGoFar : let f := { flightT with home := some (48, 5) }
    flightOf { dyn0 with flights := [f] } 8 = some f ∧ f.home = some (48, 5) ∧ f.req.kind = .memWr ∧ f.grant = 0 := by decide
theorem wit_wbDone : let s := wbT [⟨5, 127, 8, true, none, true, 0⟩]
    (dirGet s.dyn (homeSlice 5)).wbs.find? (fun w => w.key == 5 && w.host == (127 : Host).val && w.gone &&
      !(s.dyn.flights.any fun f => f.home == some (homeSlice 5, 5) && isWb f && f.req.id == w.id)) = some ⟨5, 127, 8, true, none, true, 0⟩ ∧
    sliceStopped s.dyn (homeSlice 5) = false := by decide +kernel
theorem wit_retry : (dyn0.coh.retried.any fun y => y.1 == (47 : DSlice).val && y.2.id == 8) = false := by decide
theorem wit_wake : let d := { dyn0 with coh := ⟨arrEmpty, [], [(47, sreqT .rdS)], [], [], arrEmpty⟩ }
    (rsvUsed (dirGet d (47 : DSlice))).contains (51 : Fin 52).val = false ∧
    oldestRetried d.coh.retried (47 : DSlice) (51 : Fin 52) = some (sreqT .rdS) := by decide
theorem wit_wakeOwed : let d := { dyn0 with coh := ⟨⟨[(47, { dir0 with opens := [{ opT 1 [] .rdS with rsv := true }] })]⟩, [], [(47, sreqT .rdS)], [], [], arrEmpty⟩ }
    (rsvUsed (dirGet d (47 : DSlice))).contains (51 : Fin 52).val = true ∧
    oldestRetried d.coh.retried (47 : DSlice) (51 : Fin 52) = some (sreqT .rdS) := by decide
theorem wit_wakeFar : oldestRetried [(48 * (1 + 7 + 8 * cg arrEmpty .gklSysRouteExitDie 7) + 47, sreqT .rdS)]
    (48 * (1 + 7 + 8 * cg arrEmpty .gklSysRouteExitDie 7) + 47) (51 : Fin 52) = some (sreqT .rdS) := by decide

/-! TranslationCommandsComplete -/

theorem wit_placementRead : let d := { dyn0 with xlt := { xlt0 with miss := [missT] } }
    (missActive d (3 : Die)).find? (fun m => m.ld == (127 : Host).val && m.page == 134217727) = some missT := by decide
theorem wit_placementReadStale : let m := { missT with stale := 1 }
    (missActive { dyn0 with xlt := { xlt0 with miss := [m] } } (3 : Die)).find? (fun m => m.ld == (127 : Host).val && m.page == 134217727) = some m := by decide
theorem wit_placementReadPoison : let d := { dyOf [(.xltPtLocCopyV, 0, 1), (.xltPtLocPrimDev, 0, 127)] with xlt := { xlt0 with miss := [missT] } }
    (missActive d (3 : Die)).find? (fun m => m.ld == (127 : Host).val && m.page == 134217727) = some missT ∧ missT.second = false ∧
    missT.dev = ptReadDev d false ∧ rd d .xltPtLocCopyV 0 = 1 := by decide
theorem wit_placementReadMoved : missT.dev ≠ ptReadDev dyn0 false := by decide
theorem wit_placementReadTwice : let m := { missT with second := true }
    let d := { dyn0 with xlt := { xlt0 with miss := [m] } }
    (missActive d (3 : Die)).find? (fun m => m.ld == (127 : Host).val && m.page == 134217727) = some m ∧ waitersOf d (3 : Die) (127 : Host) 134217727 = [] ∧
    aget 0 (missDrop m d).xlt.rewrite (pgKey (127 : Host) 134217727) ≤ d.now := by decide
theorem wit_rewriteRetry : let d := { dyn0 with xlt := { xlt0 with rewrite := ⟨[(pgKey 127 7, 5)]⟩ }, now := 5 }
    aget 0 d.xlt.rewrite (pgKey (127 : Host) 7) ≠ 0 ∧ aget 0 d.xlt.rewrite (pgKey (127 : Host) 7) ≤ d.now := by decide
theorem wit_placementWrite : let w : PWrite := ⟨4, 127, 7, 1, false, false, .nothing⟩
    ({ xlt0 with pws := [w] } : XltSt).pws.find? (fun w => w.wid == 4) = some w := by decide
theorem wit_shootdown : let x : Shoot := ⟨4, 127, 7, 1, 15, 7, 15, 2, .nothing⟩
    let d := { dyOf lockT with xlt := { xlt0 with shoots := [x] } }
    d.xlt.shoots.find? (fun x => x.rid == 4) = some x ∧ xltHalted d (3 : Die) = false ∧ bitAt x.ran (3 : Fin 12) = true := by decide
theorem wit_secondCopy : let d := poolT { allocT with moveCopy := some 127, blks := ⟨(List.range 4).map fun k => (blkKey 127 k, ⟨true, false, 0, 0⟩)⟩ }
    d.alloc.moveCopy = some 127 ∧ devOk d 127 = true ∧
    ((List.range (ptBlocks arrEmpty)).all fun k => (blkGet d 127 k).resv) = true := by decide +kernel

/-! MigrationCommandsComplete -/

theorem wit_migrationAssign : let a : Assign := ⟨4, 3, 127, 7, 127, 5, false, false, none⟩
    let x : XltSt := { xlt0 with pt := ⟨[(pgKey 127 7, ⟨1, false, 0, 0, 0, 126, 9, 0⟩)]⟩ }
    let d := { dyOf [(.xltBedevLport, 126, 188), (.xltBedevV, 127, 1)] with xlt := x, hlth := { hlth0 with running := [⟨4, actReq 0 [] [], 0, 0⟩], assigns := [a] } }
    d.hlth.assigns.find? (fun a => a.die == (3 : Die).val && granted d a.act) = some a ∧ migState d ((3 : Die).val * 16 + (15 : MigSlot).val) = 0 ∧
    (ptGet d a.ld a.page).state = 1 ∧ (ptGet d a.ld a.page).poison = false ∧ devDie d (ptGet d a.ld a.page).dev = (3 : Die).val ∧
    devOk d a.dstDev = true ∧ (ptGet d a.ld a.page).run = 0 := by decide +kernel
theorem wit_twinRebuild : let x : XltSt := { xlt0 with pt := ⟨[(pgKey 127 7, ⟨1, false, 0, 0, 0, 126, 9, 0⟩)]⟩, degraded := [(127, 8)] }
    let d := { poolT allocT with xlt := x, sts := (dyOf [(.xltBedevV, 127, 1), (.xltBedevFgrp, 127, 1)]).sts }
    let g := (stc [(.allocRpolTwin, 1023, 1)] []).cfg
    let e := ptGet d (127 : Host) 7
    e.state = 1 ∧ e.poison = false ∧ (twGet d e.twin).v = false ∧ cg g .allocRpolTwin (pagePol g (127 : Host) 7) = 1 ∧
    d.xlt.degraded.contains ((127 : Host).val, pageRegion g (127 : Host) 7) = true ∧ migBusy d (127 : Host) 7 = false ∧ twFree d = some 1 ∧
    singlePg d ((tierDevs d e.tier).filter fun b => fgOf d b != fgOf d e.dev) = some (127, 0) := by decide +kernel
theorem wit_watchSet : let d := (st [(.xltMigStsState, 63, 1)]).dyn
    migState d ((3 : Die).val * 16 + (15 : MigSlot).val) = 1 ∧ domPwr d (domSvc (2 * (3 : Fin 12) + 1)) ≤ 1 := by decide +kernel
theorem wit_fellingNotice : let s := st [(.xltMigStsState, 63, 2)]
    migState s.dyn ((3 : Die).val * 16 + (15 : MigSlot).val) = 2 ∧ bitAt (migGet s.dyn ((3 : Die).val * 16 + (15 : MigSlot).val)).todo (511 : Fin 512) = false := by decide +kernel
theorem wit_fellingZero : let d := poolT { allocT with blks := arrEmpty }
    bitAt (blkGet d (127 : Dev) (511 / 128)).dirty (511 % 128) = true ∧ devOk d (127 : Dev) = true := by decide +kernel
theorem wit_holdRequest : let d := dyOf ((.xltMigStsState, 63, 4) :: lockT)
    migState d ((3 : Die).val * 16 + (15 : MigSlot).val) = 4 ∧ xltHalted d (3 : Die) = false := by decide
theorem wit_holdAnswer : let d := { dyOf [(.xltMigStsState, 63, 4)] with xlt := { xlt0 with heldPg := [(3, 0, 0)] } }
    migState d ((3 : Die).val * 16 + (15 : MigSlot).val) = 4 ∧ d.flights = [] ∧
    d.xlt.heldPg.contains ((3 : Fin 12).val, migLd d ((3 : Die).val * 16 + (15 : MigSlot).val), migPage d ((3 : Die).val * 16 + (15 : MigSlot).val)) = true := by decide
theorem wit_holdTimeout : let s := stOf { dyOf [(.xltMigStsState, 63, 4)] with now := 1401 }
    migState s.dyn ((3 : Die).val * 16 + (15 : MigSlot).val) = 4 ∧ (migGet s.dyn ((3 : Die).val * 16 + (15 : MigSlot).val)).holdAt + 1400 < s.dyn.now := by decide
theorem wit_holdRelease : let d := { dyn0 with xlt := { xlt0 with heldPg := [(3, 127, 134217727)] } }
    d.xlt.heldPg.contains ((3 : Die).val, (127 : Host).val, 134217727) = true ∧ slotOf d (127 : Host) 134217727 = none := by decide +kernel
theorem wit_epochEnd : let s := stOf { dyn0 with now := 10000000000000 }
    s.dyn.xlt.epochAt < s.dyn.now / epochNs s.cfg ∧ autoOn s.cfg (hotHalve { s.dyn with xlt := { s.dyn.xlt with
      epochAt := s.dyn.now / epochNs s.cfg, epoch := s.dyn.xlt.epoch + rd s.dyn .xltPtLocReady 0 } }) = false := by decide +kernel

/-! PacketPathCommandsComplete -/

theorem wit_egress : let s := stc [(.portLpcfgRole, 188, 1)] [(.portLstsLinkUp, 188, 1), (.dieRclkStsR1Lock, 3, 1)]
    cluStopped s.dyn (23 : Clu) = false ∧ portOpen s.cfg s.dyn ((23 : Clu).val * 8 + (4 : Fin 40).val) = true := by decide +kernel
theorem wit_s2mResponse : let f := { flightT with devs := [0], home := none }
    let s := { stc [(.portLpcfgRole, 0, 2), (.portLpcfgRole, 188, 1)] [] with dyn := { dyOf [(.portLstsLinkUp, 0, 1), (.dieRclkStsR0Lock, 0, 1), (.xltBedevLport, 0, 0)] with flights := [f] } }
    flightOf s.dyn 8 = some f ∧ f.req.kind = .memWr ∧ f.devs = [(0 : Fin 2192).val] ∧ portOpen s.cfg s.dyn (whoPort s.dyn (0 : Fin 2192)) = true ∧
    stagRoom s.dyn (whoPort s.dyn (0 : Fin 2192)) (rspCls f.req.kind) (rspBytes f.req .cmp) = true ∧ isPoisonWrite 8 = false ∧
    f.page = none ∧ f.via = none ∧ lpContained s.dyn f.req.lport = false := by decide +kernel
theorem wit_writeCount : let m : MirSess := { mir0 with written := 5 }
    m.told < m.written ∧ (m.told = 0 ∨ m.lastAt + 1000 ≤ dyn0.now) := by decide

/-! FederationCommandsComplete -/

theorem wit_hello : let s := stc [(.gklSysIdSystemId, 0, 7)] [(.gklLnkStsState, 35, 3)]
    lnkSt s.dyn (9 * (3 : Die).val + 8) = 3 ∧ (7 : Word).toNat = cg s.cfg .gklSysIdSystemId 0 ∧ s.dyn.sys.joined.contains 7 = false ∧
    ({ s.dyn.sys with joined := [7] } : SysSt).joined.contains 7 = true := by decide +kernel
theorem wit_beat : let s := stOf { dyOf [(.dieDieIdLead, 3, 1)] with now := 100000 }
    (leadDie s.dyn).isSome = true ∧ s.dyn.sys.sentAt + 100000 ≤ s.dyn.now := by decide +kernel
theorem wit_beatIn : let s := stc [(.gklSysCfgMembers, 0, 129)] []
    (7 : Fin 8).val ≠ ownPkg s.dyn ∧ bitAt (members s.cfg) 7 = true ∧ bitAt (rd s.dyn .gklSysStsLost 0) 7 = false := by decide +kernel
theorem wit_pkgLost : let s := stOf { dyOf [(.gklSysStsReach, 0, 128)] with now := 1000000 }
    (7 : Fin 8).val ≠ ownPkg s.dyn ∧ bitAt (rd s.dyn .gklSysStsReach 0) 7 = true ∧ aget 0 s.dyn.sys.beatAt 7 + 1000000 ≤ s.dyn.now := by decide +kernel

/-! ManagementCommandsComplete -/

theorem wit_served : let s := stc [(.mgmtPathCtlMctpEn, 0, 1), (.mgmtPathCtlMctpVcs, 0, 127), (.mgmtPathCtlI3cEn, 3, 1)] []
    let p : Sys2Proof.Path := .mctp 127 255
    served s p (.getVersion 65535) = true ∧ served s p (.getVersion 0) = true ∧ served s p .identify = true ∧
    served s p (.csrRead 0x10 256 false) = true ∧ served s p (.csrWrite 0x10 [1]) = true ∧ served s p (.events 7 true) = true ∧
    served s p .fmSwitch = true ∧ served s p (.fmPort 191) = true ∧ served s p (.fmVcs 127) = true ∧ served s p (.fmOther 65535) = true ∧
    fcfFar s.cfg (mgmtOn s.dyn) p 191 = false ∧ fcfOther p (some 127) = false ∧ cg s.cfg .mgmtPathCtlI3cEn (3 : Die) ≠ 0 := by
  decide +kernel

/-! CommandsTurnedAwayByAPath -/

theorem wit_stray : let g := (stc [(.mgmtPathCtlMctpEn, 0, 1), (.mgmtPathCtlI3cEn, 3, 0)] []).cfg
    mctpStray g (.mctp 127 0) = true ∧ mctpStray g (.mctp 0 0) = false ∧ pathOpen g dyn0 (.mctp 0 0) = true ∧
    pathOpen g dyn0 (.i3c 3) = false ∧ sessOf dyn0 (.mctp 0 0) = 1 ∧ cmdWaits g (mgmtOn dyn0) (.csrRead 0x10 1 true) = false := by decide +kernel
theorem wit_busy : let m : MgmtSt := { dyn0.mgmt with moving := true, held := List.replicate 32 ⟨.mctp 0 0, .identify⟩ }
    let g := (stc [(.mgmtPathCtlMctpEn, 0, 1)] []).cfg
    let d := { dyn0 with mgmt := m }
    mctpStray g (.mctp 0 0) = false ∧ pathOpen g d (.mctp 0 0) = true ∧ d.mgmt.moving = true ∧ 32 ≤ d.mgmt.held.length := by decide +kernel
theorem wit_fcfRead : let s := stc hostCfg [(.portLstsLinkUp, 188, 1)]
    let d := { s.dyn with port := { s.dyn.port with vcs := [127] } }
    pathOpen s.cfg d (.fcf 127) = true ∧ cmdWaits s.cfg (mgmtOn d) (.csrRead 0x10 1 false) = false := by decide +kernel
theorem wit_inRecovery : inRecovery (st [(.secBootStsStage, 0, 15)]).dyn = true := by decide +kernel

/-! AmendmentAndImageCommandsComplete -/

theorem wit_nvmRecord : let b : StartSt := { boot0 with nvq := [.log (.void 5)], flash := [flashT] }
    let d := { dyOf [(.nvmFlashStsPass, 0, 1)] with boot := b }
    d.boot.nvq = [.log (.void 5)] ∧ (flashSource d).isNone = false ∧ nvHeld d = false := by decide +kernel
theorem wit_xfer : let s := stc [(.mgmtPathCtlMctpEn, 0, 1)] [(.nvmFlashStsPass, 0, 1)]
    let p : Sys2Proof.Path := .mctp 0 255
    let b := { s.dyn with boot := { boot0 with flash := [flashT], xfer := some ⟨true, 5400⟩ }, mgmt := { s.dyn.mgmt with sess := [(p, 2)] } }
    let t : State := { s with dyn := b }
    let d := journalNote (mgmtOn b)
    served t p .xferStart = true ∧ served t p (.xferData 5400 4064) = true ∧ served t p .activate = true ∧ rd d .nvmSagStsSag 0 ≠ 1 ∧
    flashSource d = some 0 ∧ d.boot.flash[0]? = some flashT ∧ (flashSource d).isNone = false ∧
    d.boot.fw = none ∧ (mgmtOn b).boot.fw = none ∧ (mgmtOn b).mgmt.bg.contains p = false := by decide +kernel
theorem wit_amendSubmit : let s := stc [(.mgmtPathCtlMctpEn, 0, 1)] []
    let a : Amendment := ⟨0, 0, 0, 0, 0, 0, [], false, [], ⟨[], []⟩, [], [], [], 0, ⟨0, 0, 1, 1, true, true⟩⟩
    let d := mgmtOn s.dyn
    served s (.mctp 0 255) (.submit a) = true ∧ rd d .nvmSagStsSag 0 ≠ 1 ∧ d.boot.amdq.length < 32 ∧
    d.mgmt.bg.contains (.mctp 0 255) = false := by decide +kernel
theorem wit_xferEnd : let s := stc [(.mgmtPathCtlMctpEn, 0, 1)] [(.nvmFlashStsPass, 0, 1), (.secKeyStsEdSet, 0, 1), (.secKeyStsMlSet, 0, 1)]
    let p : Sys2Proof.Path := .mctp 0 255
    let b : StartSt := { boot0 with otp := ⟨[1], [1], 1, 1, 0, 0, 0, [], []⟩, flash := [flashT], xfer := some ⟨true, 5363⟩ }
    let t : State := { s with dyn := { s.dyn with boot := b, mgmt := { s.dyn.mgmt with sess := [(p, 2)] } } }
    let m := imageT
    let d := journalNote (mgmtOn t.dyn)
    let e := slotWrite true m { d with boot := { d.boot with xfer := none } }
    served t p (.xferEnd m) = true ∧ (mgmtOn t.dyn).mgmt.bg.contains p = false ∧ rd d .nvmSagStsSag 0 ≠ 1 ∧ d.boot.xfer = some ⟨true, 5363⟩ ∧
    (flashSource d).isNone = false ∧ m.bodyLen + 5361 ≤ 5363 ∧ imgGood e m = true ∧ rd e .secImgSeqSeq 0 < m.seq := by decide +kernel
theorem wit_handover : let f : FwRun := ⟨.mctp 0 255, 1, imageT, true, 2, 0, [3, 0]⟩
    let d := { dyOf [(.dieDieIdStandby, 3, 1)] with boot := { boot0 with fw := some f } }
    d.boot.fw = some f ∧ f.step = 2 ∧ standbyDie { d with mgmt := { d.mgmt with moving := false } } = some 3 := by decide +kernel
theorem wit_fwSteps : let f : FwRun := ⟨.mctp 0 255, 1, imageT, true, 1, 0, [3, 0]⟩
    let d := { dyOf [(.dieDieIdStandby, 3, 1)] with boot := { boot0 with fw := some f } }
    d.boot.fw = some f ∧ f.step = 1 ∧ fwPaused d = false ∧ standbyDie d = some 3 ∧ f.todo = [(3 : Die).val, (0 : Die).val] := by decide +kernel

/-! LateReleaseAndQuarantineCommandsComplete -/

theorem wit_quar : let s := stc [(.mgmtPathCtlMctpEn, 0, 1)] [(.allocHostStsState, 127, 2)]
    let p : Sys2Proof.Path := .mctp 0 255
    let t : State := { s with dyn := { s.dyn with mgmt := { s.dyn.mgmt with sess := [(p, 3)] } } }
    served t p (.quar (127 : Host) true) = true ∧ served t p (.quar (127 : Host) false) = true ∧ hostState (mgmtOn t.dyn) (127 : Host) = 2 ∧
    hostState (mgmtOn t.dyn) (0 : Host) ≠ 2 ∧ served t p (.quar (0 : Host) true) = true := by decide +kernel
theorem wit_drainComplete : let d := { dyn0 with alloc := { alloc0 with drains := [127] } }
    d.alloc.drains.contains (127 : Dev).val = true ∧ devInUse d (127 : Dev) = false := by decide +kernel
theorem wit_sag : rd dyn0 .nvmSagStsSag 0 = 0 ∧ rd (dyOf [(.nvmSagStsSag, 0, 1)]) .nvmSagStsSag 0 ≠ 0 := by decide +kernel
theorem wit_spdm : let s := stc hostCfg [(.portLstsLinkUp, 188, 1)]
    hostUp s.cfg s.dyn (127 : Host) = true ∧ hostPort s.cfg s.dyn (127 : Host) = some 188 := by decide +kernel

/-! LinkTrainingCommandsComplete -/

theorem wit_phyEnable : phySt dyn0 (35 : Ep) = 0 ∧ rd dyn0 .gklPhyCtlEn (35 : Ep) = 0 := by decide +kernel
theorem wit_training : let d := dyOf [(.gklPhyStsState, 35, 1)]
    phySt d (35 : Ep) = 1 ∧ (gklGet d (35 : Ep)).backAt = none ∧ (35 : Fin 180).val < gklLanes (35 : Ep) ∧ (35 : Fin 180).val % 18 ≠ 16 ∧
    laneFit (35 : Ep) (35 : Fin 180) (35 : Fin 256) = some (false, false) ∧ laneAgrees d (35 : Ep) (35 : Fin 180) (false, false) = true ∧
    aget 0 (gklGet d (35 : Ep)).badBlk (35 : Fin 180) + 1 = 1 := by decide +kernel
theorem wit_endBlock : let x := { gkl0 with locked := true, goodBlk := ⟨(List.range 36).map fun l => (l, 8)⟩ }
    let d := { dyOf [(.gklPhyStsState, 35, 1)] with gkl := ⟨[(35, x)]⟩ }
    phySt d (35 : Ep) = 1 ∧ (gklGet d (35 : Ep)).backAt = none ∧ (gklGet d (35 : Ep)).locked = true ∧ allLocked d (35 : Ep) = true := by
  decide +kernel
theorem wit_trainTimeout : let d := { dyOf [(.gklPhyStsState, 35, 1)] with now := trainTmo arrEmpty 35 }
    phySt d (35 : Ep) = 1 ∧ (gklGet d (35 : Ep)).backAt = none ∧ (gklGet d (35 : Ep)).trainAt + trainTmo arrEmpty (35 : Ep) ≤ d.now := by
  decide +kernel
theorem wit_trainBackoff : let d := { dyOf [(.gklPhyStsState, 35, 1)] with now := 10000, gkl := ⟨[(35, { gkl0 with backAt := some 0 })]⟩ }
    phySt d (35 : Ep) = 1 ∧ (gklGet d (35 : Ep)).backAt = some 0 ∧ 0 + 10000 ≤ d.now := by decide +kernel
theorem wit_lpbkExit : let d := { dyOf [(.gklPhyStsState, 35, 5)] with gkl := ⟨[(35, { gkl0 with looping := true })]⟩ }
    phySt d (35 : Ep) = 5 ∧ (gklGet d (35 : Ep)).looping = true := by decide +kernel

/-! LinkIdleAndSpareCommandsComplete -/

theorem wit_exitBurst : phySt (st [(.gklPhyStsState, 35, 3)]).dyn (35 : Ep) = 3 := by decide +kernel
theorem wit_sleepPattern : phySt (st [(.gklPhyStsState, 35, 4)]).dyn (35 : Ep) = 4 := by decide +kernel
theorem wit_wakeUnanswered : let d := { dyOf [(.gklPhyStsState, 35, 3)] with now := 100000, gkl := ⟨[(35, { gkl0 with wakes := 10 })]⟩ }
    phySt d (35 : Ep) = 3 ∧ (gklGet d (35 : Ep)).wakes ≠ 0 ∧ (gklGet d (35 : Ep)).wakeAt + 100000 ≤ d.now := by decide +kernel
theorem wit_swapGo : let d := put .gklSwapCmdPos 35 15 (put .gklSwapCmdGrp 35 1 dyn0)
    (gklGet d (35 : Ep)).swap = none ∧ (1 : Fin 16).val < gklGroups (35 : Ep) ∧ spareUsed d (35 : Ep) 1 = false ∧
    bitAt (spareBits d (35 : Ep) 1) 4 = false ∧ (gklGet d (35 : Ep)).lost.contains (18 * (1 : Fin 16).val + 17) = false ∧
    gklGroups (35 : Ep) ≤ (2 : Fin 16).val := by decide +kernel
theorem wit_swapReady : let d := dyOf [(.gklPhyStsState, 35, 2)]
    phySt d (35 : Ep) = 2 ∧ spareUsed d (35 : Ep) 1 = false ∧ (34 : Fin 180).val < gklLanes (35 : Ep) ∧ (34 : Fin 180).val % 18 ≠ 17 ∧
    (33 : Fin 180).val % 18 < 16 ∧ (gklGet d (35 : Ep)).lost = [] := by decide +kernel
theorem wit_swapCompare : (gklGet { dyn0 with gkl := ⟨[(35, { gkl0 with cmp := some (1, 15) })]⟩ } (35 : Ep)).cmp = some (1, 15) := by
  decide +kernel
theorem wit_swapDone : let w : Swap := ⟨1, 15, false, true, 7⟩
    (gklGet { dyn0 with gkl := ⟨[(35, { gkl0 with swap := some w })]⟩ } (35 : Ep)).swap = some w ∧ w.told = true ∧
    w.grp = (1 : Fin 16).val ∧ w.pos = (15 : Fin 16).val := by decide +kernel

/-! FlitCommandsComplete -/

theorem wit_dataFlit : let f : GFlit := ⟨0, 0, 7, false, 0, 0, 0, [.data], 0, [], true⟩
    let d := dyOf [(.gklPhyStsState, 35, 2), (.gklLnkStsState, 35, 2)]
    let e := takeWord arrEmpty 35 f.byp (takeAck 35 f.ack (bump .gklLnkFecCorr 35 0 d))
    phySt d (35 : Ep) = 2 ∧ 2 ≤ lnkSt d (35 : Ep) ∧ 2 ≤ lnkSt e (35 : Ep) ∧ mod12 f.seq (rd e .gklLnkStsNes (35 : Ep)) = 0 := by decide +kernel
theorem wit_replayTimeout : let x := { gkl0 with replay := [⟨4095, 7, false, 0, 0, [], 0⟩], expSeq := 4095, exps := 31 }
    let d := { dyOf [(.gklLnkStsState, 35, 3), (.gklLnkStsTxSel, 35, 1)] with gkl := ⟨[(35, x)]⟩, now := 2000 }
    gklGet d (35 : Ep) = x ∧ lnkSt d (35 : Ep) = 3 ∧ x.timer + (if gklIsP (35 : Ep) then 2000 else 200) ≤ d.now ∧
    rd d .gklLnkStsTxSel (35 : Ep) ≠ 0 ∧ x.replay.filter (fun f => decide (mod12 f.seq 4095 < (1 : Fin 65).val)) ≠ [] := by decide +kernel
theorem wit_nakRepeat : let x := { gkl0 with nak := some (5, 1, 0), mode := some (2, 0) }
    let d := { dyOf [(.gklLnkStsState, 35, 3), (.gklLnkStsRxSel, 35, 1), (.gklLnkStsMinor, 35, 1)] with gkl := ⟨[(35, x)]⟩, now := 1000 }
    (gklGet d (35 : Ep)).nak = some (5, 1, 0) ∧ rd d .gklLnkStsRxSel (35 : Ep) = 1 ∧ 0 + 4 * (gklGet d (35 : Ep)).lat ≤ d.now ∧
    lnkSt d (35 : Ep) = 3 ∧ (gklGet d (35 : Ep)).mode = some (2, 0) ∧ 0 + 1000 ≤ d.now ∧ rd d .gklLnkStsMinor (35 : Ep) = 1 := by decide +kernel
theorem wit_ackSel : let x := { gkl0 with mode := some (0, 0) }
    (gklGet { dyn0 with gkl := ⟨[(35, x)]⟩ } (35 : Ep)).mode = some (0, 0) := by decide +kernel
theorem wit_reqSel : cg (stc [(.gklLnkCtlSelEn, 35, 1)] []).cfg .gklLnkCtlSelEn (35 : Ep) = 1 := by decide +kernel
theorem wit_quiet : let d := { dyOf [(.gklLnkStsRxSel, 35, 1)] with now := 1000000 }
    rd d .gklLnkStsRxSel (35 : Ep) = 1 ∧ (gklGet d (35 : Ep)).held = [] ∧ (gklGet d (35 : Ep)).mode = none ∧
    (gklGet d (35 : Ep)).lastEv + 1000000 ≤ d.now := by decide +kernel

/-! LinkStateCommandsComplete -/

theorem wit_credit : let d := dyOf [(.gklLnkStsState, 34, 2)]
    let x := { gkl0 with crdSeen := 127 }
    lnkSt { d with gkl := ⟨[(34, x)]⟩ } (34 : Ep) = 2 ∧ gklIsP (34 : Ep) = false ∧ bitSet x.crdSeen (7 : Fin 8) = 255 := by decide +kernel
theorem wit_gklLinkUp : let d := dyOf [(.gklLnkStsState, 35, 3), (.gklPhyStsState, 35, 2)]
    3 ≤ lnkSt d (35 : Ep) ∧ lnkSt d (35 : Ep) = 3 ∧ phySt d (35 : Ep) = 2 := by decide +kernel
theorem wit_cap : let d := { dyOf [(.gklLnkStsState, 35, 1)] with now := 10000 }
    lnkSt d (35 : Ep) = 1 ∧ (2 : Fin 4).val = b2n (gklIsP (35 : Ep)) + 1 ∧ (7 : Fin 8).val ≠ rd d .dieDieIdPkgId 0 ∧
    (gklGet d (35 : Ep)).initAt + 10000 ≤ d.now := by decide +kernel
theorem wit_idle : let s := stc [(.pwrLimDpIdle, 0, 1), (.gklLnkCtlIdleNs, 35, 1)] [(.gklLnkStsState, 35, 3), (.gklPhyStsState, 35, 2)]
    mayIdle s.cfg { s.dyn with now := 1 } (35 : Ep) = true := by decide +kernel

/-! PowerCommandsComplete -/

theorem wit_clockGate : let n := gateNo (.pu 47)
    gated dyn0 n = false ∧ domPwr dyn0 (unitDom n) = 0 ∧ rd dyn0 .pwrDomStsFail (unitDom n) ≠ 1 ∧ unitBusy dyn0 n = false ∧
    dpLive arrEmpty dyn0 n = false := by decide +kernel
theorem wit_powerRequest : let s := stc [(.pwrCtlGladeIdleUs, 3, 1), (.pwrLimDeepest, 0, 1)] [(.pwrDomStsState, 80, 1)]
    mayAsk s.cfg { s.dyn with now := 1000, elec := { s.dyn.elec with gated := [gateNo (.pu 47)] } } (80 : Fin 92) 2 = true := by decide +kernel
theorem wit_powerAnswer : let d := dyOf [(.pwrDomStsState, 80, 4)]
    (domBlks (80 : Fin 92))[0]? = some ⟨80, none, none⟩ ∧ rd d .pwrDomStsState (80 : Fin 92) = 4 ∧
    (pwrGet d (80 : Fin 92)).accepts.contains 0 = false ∧ (pwrGet d (80 : Fin 92)).delayed.contains 0 = false ∧
    canAccept d ⟨80, none, none⟩ = true := by decide +kernel
theorem wit_delayRetry : let x := { pwr0 with delayed := [0, 1, 2, 3] }
    let d := { dyOf [(.pwrDomStsState, 80, 4)] with pwr := ⟨[(80, x)]⟩ }
    pwrGet d (80 : Fin 92) = x ∧ rd d .pwrDomStsState (80 : Fin 92) = 4 ∧ x.delayed ≠ [] ∧
    (domBlks (80 : Fin 92)).length ≤ x.accepts.length + x.delayed.length ∧ x.stepAt + x.delay * 1000 ≤ d.now := by decide +kernel
theorem wit_answerTimeout : let d := { dyOf [(.pwrDomStsState, 80, 4)] with now := 1000 }
    (domBlks (80 : Fin 92)).length - ((pwrGet d (80 : Fin 92)).accepts.length + (pwrGet d (80 : Fin 92)).delayed.length) ≠ 0 ∧
    (pwrGet d (80 : Fin 92)).reqAt + 1000 ≤ d.now := by decide +kernel
theorem wit_entryRefused : let d := { dyn0 with pwr := ⟨[(80, { pwr0 with refAt := some 0 })]⟩, now := 1000000000 }
    (pwrGet d (80 : Fin 92)).refAt = some 0 ∧ (pwrGet d (80 : Fin 92)).told = false ∧ 0 + 1000000000 ≤ d.now := by decide +kernel
theorem wit_return : let d := { dyOf [(.pwrDomStsState, 91, 5)] with pwr := ⟨[(91, { pwr0 with run := 1, step := 1, from0 := 3 })]⟩, now := 40000 }
    rd d .pwrDomStsState (91 : Fin 92) = 5 ∧ (pwrGet d (91 : Fin 92)).stepAt + 4 * stepNs (91 : Fin 92) 3 1 ≤ d.now := by decide +kernel

/-! SlotSequenceCommandsComplete -/

theorem wit_removed : let d := dyOf [(.slotStsPrsnt, 47, 1)]
    let g := (stc [(.slotCtlPrsntIgn, 47, 0)] []).cfg
    cg g .slotCtlPrsntIgn (47 : Pu) ≠ 1 ∧ rd d .slotStsPrsnt (47 : Pu) ≠ 0 ∧ slotState (put .slotStsPrsnt 47 0 (cycleDrop 47 d)) (47 : Pu) = 0 := by
  decide +kernel
theorem wit_inputWindow : let g := (stc [(.slotCtlEn, 47, 1), (.slotVwinUv, 47, 100), (.slotVwinOv, 47, 140)] []).cfg
    slotEn g (47 : Pu) = true ∧ (slotGet (slotMeas 47 ⟨240, 0, 0, 0⟩ dyn0) (47 : Pu)).inAt = none ∧
    windowSide g (47 : Pu) false (240 : Fin 1024) = true ∧ windowSide g (47 : Pu) true (199 : Fin 1024) = false := by decide +kernel
theorem wit_windowLeft : let x := { slot0 with gate := true, inAt := some 0 }
    let d := slotMeas 47 ⟨199, 0, 0, 0⟩ { dyOf [(.slotStsState, 47, 3)] with slot := ⟨[(47, x)]⟩ }
    (slotGet d (47 : Pu)).inAt.isSome = true ∧ slotOn (cycleDrop 47 (slotSet 47 { slotGet d 47 with inAt := none } d)) (47 : Pu) = true := by
  decide +kernel
theorem wit_insertion : let s := stc [(.slotCtlEn, 47, 1), (.slotVwinUv, 47, 100), (.slotVwinOv, 47, 140)] [(.slotStsState, 47, 1)]
    let d := { s.dyn with slot := ⟨[(47, { slot0 with inAt := some 0 })]⟩, now := 100000000000 }
    (slotGet d (47 : Pu)).inAt = some 0 ∧ slotEn s.cfg (47 : Pu) = true ∧ slotState d (47 : Pu) = 1 ∧
    0 + cg s.cfg .slotTimeInsMs (47 : Pu) * 1000000 ≤ d.now ∧ windowSide s.cfg (47 : Pu) true (240 : Fin 1024) = true := by decide +kernel
theorem wit_offTime : let d := dyOf [(.slotStsState, 47, 4)]
    slotState d (47 : Pu) = 4 ∧ (slotGet d (47 : Pu)).offAt + (slotGet d (47 : Pu)).offFor ≤ d.now := by decide +kernel
theorem wit_powerGood : let d := dyOf [(.slotStsState, 47, 2)]
    slotOn d (47 : Pu) = true ∧ rd d .slotStsPgInt (47 : Pu) = 0 ∧ rd d .slotStsLim (47 : Pu) = 0 ∧ 160 ≤ (160 : Fin 1024).val ∧
    (240 : Fin 1024).val * 95 ≤ (228 : Fin 1024).val * 100 := by decide +kernel
theorem wit_pgDrop : let d := { dyOf [(.slotStsState, 47, 3), (.slotStsPgInt, 47, 1)] with now := 1000000000 }
    rd d .slotStsPgInt (47 : Pu) = 1 ∧ rd d .slotStsLim (47 : Pu) = 0 ∧ slotState d (47 : Pu) = 3 ∧
    (215 : Fin 1024).val * 100 < (240 : Fin 1024).val * 90 ∧ (slotGet d (47 : Pu)).calmAt + 1000000000 ≤ d.now ∧
    (slotGet d (47 : Pu)).perst = true ∧ (slotGet d (47 : Pu)).pgAt + 100000000 ≤ d.now := by decide +kernel
theorem wit_dischargeArm : let g := (stc [(.slotCtlEn, 47, 1)] []).cfg
    (slotGet dyn0 (47 : Pu)).gate = false ∧ slotEn g (47 : Pu) = true ∧
    (slotGet dyn0 (47 : Pu)).offAt + cg g .slotTimeDischMs (47 : Pu) * 1000000 ≤ 100000000000 := by decide +kernel
theorem wit_earlyWarning : let d := slotMeas 47 ⟨100, 0, 0, 0⟩ { dyOf [(.slotStsState, 47, 3)] with slot := ⟨[(47, { slot0 with start := 240 })]⟩ }
    slotOn d (47 : Pu) = true ∧ rd d .slotStsEw (47 : Pu) = 0 ∧
    (100 : Fin 1024).val * 100 < (slotGet d (47 : Pu)).start * clamp 50 99 (cg arrEmpty .slotLimEwPct (47 : Pu)) ∧
    (slotGet d (47 : Pu)).start * clamp 50 99 (cg arrEmpty .slotLimEwPct (47 : Pu)) + (slotGet d (47 : Pu)).start * 2 ≤ (500 : Fin 1024).val * 100 := by
  decide +kernel

/-! SlotProtectionCommandsComplete -/

theorem wit_limit : let d := dyOf [(.slotStsState, 47, 3)]
    slotOn d (47 : Pu) = true ∧ rd d .slotStsLim (47 : Pu) = 0 ∧ rd (dyOf [(.slotStsLim, 47, 1)]) .slotStsLim (47 : Pu) = 1 := by decide +kernel
theorem wit_fastTrip : let d := dyOf [(.slotStsState, 47, 2)]
    slotOn d (47 : Pu) = true ∧ (max 1 (cg arrEmpty .slotCtlFtMult (47 : Pu)) + 1) * clamp 10 100 (cg arrEmpty .slotLimVlim (47 : Pu)) * 5 <
      (65535 : Fin 65536).val := by decide +kernel
theorem wit_faultTimer : let d := { dyOf [(.slotStsState, 47, 3)] with slot := ⟨[(47, { slot0 with limAt := some 0 })]⟩, now := 50000000 }
    (slotGet d (47 : Pu)).limAt = some 0 ∧ slotOn d (47 : Pu) = true ∧ 0 + clamp 1 50 (cg arrEmpty .slotLimFltMs (47 : Pu)) * 1000000 ≤ d.now := by
  decide +kernel
theorem wit_fetShort : let d := { dyn0 with slot := ⟨[(47, { slot0 with armed := true })]⟩ }
    (slotGet d (47 : Pu)).armed = true ∧ slotState d (47 : Pu) = 0 ∧ 200 < 10 * (25 : Fin 1024).val ∧ (240 : Fin 1024).val < 10 * (25 : Fin 1024).val := by
  decide +kernel
theorem wit_cycle : let s := stc [(.slotCtlEn, 47, 1)] [(.slotStsState, 47, 3)]
    (slotGet s.dyn (47 : Pu)).act = none ∧ (slotGet s.dyn (47 : Pu)).cycling = false ∧ slotEn s.cfg (47 : Pu) = true ∧
    slotOn s.dyn (47 : Pu) = true ∧ mayPowerOff s.cfg s.dyn (47 : Pu) = true ∧ slotOn dyn0 (47 : Pu) = false := by decide +kernel
theorem wit_clear : slotState (st [(.slotStsState, 47, 5)]).dyn (47 : Pu) = 5 ∧ slotState (st [(.slotStsState, 47, 6)]).dyn (47 : Pu) = 6 ∧
    slotState dyn0 (47 : Pu) = 0 := by decide +kernel

/-! DoorbellPageCommandsComplete -/

theorem wit_page : let s := stc ([(.qosSliceKeyV, 4095, 1), (.qosSliceKeyHost, 4095, 127), (.pmcCtlPmuUser, 0, 1)] ++ hostCfg) []
    let d := { s.dyn with ring := { s.dyn.ring with rings := ⟨[(16383, { ring0 with state := 2 })]⟩, res := ⟨[(4095, { res0 with on := true, cbDirty := true })]⟩ } }
    owns (qCfg s.cfg d) d (127 : Host) (4095 : Slc) = true ∧ owns (qCfg s.cfg d) d (0 : Host) (4095 : Slc) = false ∧
    (ringGet d (4 * (4095 : Slc).val + (3 : Fin 4).val)).state = 2 ∧ (resGet d (4095 : Slc)).on = true ∧
    (ringGet s.dyn (4 * (4095 : Slc).val + (3 : Fin 5).val)).state = 0 ∧ cg s.cfg .pmcCtlPmuUser 0 = 1 ∧
    (ringGet s.dyn 16383).rbase % 4096 = 0 ∧ (ringGet s.dyn 16383).rcba % 64 = 0 := by decide +kernel
theorem wit_cbWrite : let d := { dyn0 with ring := { dyn0.ring with rings := ⟨[(16383, { ring0 with cbDirty := true })]⟩, res := ⟨[(4095, { res0 with cbDirty := true })]⟩ }, now := 1000 }
    (resGet d (4095 : Slc)).cbDirty = true ∧ (resGet d (4095 : Slc)).cbAt + 1000 ≤ d.now ∧
    (ringGet d (4 * (4095 : Slc).val + (3 : Fin 5).val)).cbDirty = true ∧ (ringGet d 16383).cbAt + 1000 ≤ d.now := by decide +kernel

/-! RingWorkCommandsComplete -/

theorem wit_controlBlock : let d := { dyn0 with ring := { dyn0.ring with rings := ⟨[(16383, { ring0 with state := 1, cbBusy := true })]⟩, res := ⟨[(4095, { res0 with on := true, cbBusy := true })]⟩ } }
    (ringGet d (4 * (4095 : Slc).val + (3 : Fin 5).val)).cbBusy = true ∧ (ringGet d 16383).cbAgain = false ∧ (resGet d (4095 : Slc)).cbBusy = true ∧
    (resGet d (4095 : Slc)).on = true := by decide +kernel
theorem wit_poll : let r := { ring0 with state := 1, poll := 1, tail := 1, stale := [(0, 999, 0)], heldAt := some 0 }
    let d := { dyn0 with ring := { dyn0.ring with rings := ⟨[(16383, r)]⟩ }, now := 1000000 }
    ringGet d (16383 : RingId) = r ∧ r.state = 1 ∧ r.taking = false ∧ 0 < r.poll ∧ r.pollAt + pollNs r ≤ d.now ∧ slotWanted r 0 = true ∧
    belowTail r 0 = true ∧ (r.stale.any fun y => y.1 == 1) = false ∧ r.stale.find? (fun y => y.1 == 0) = some (0, 999, 0) ∧ 0 + 1000 ≤ d.now ∧
    r.heldAt = some 0 ∧ r.heldTold = false ∧ phaseOf [2 ^ 31] = expMark r.log2 0 ∧ phaseOf [0] ≠ expMark r.log2 0 ∧ slcHolds d 4095 = true := by
  decide +kernel
theorem wit_notStale : let r := { ring0 with state := 1, tail := 1 }
    slotWanted r 0 = true ∧ belowTail r 0 = true ∧ (r.stale.any fun y => y.1 == 0) = false := by decide +kernel
theorem wit_dispatch : let r := { ring0 with state := 1, die := 3, fetched := [⟨0, some [2 ^ 31, 0, 0, 0, 0, 0, 0, 0, 0, 0, 0, 0, 0, 0, 0, 0], []⟩] }
    let d := { dyOf lockT with ring := { dyn0.ring with rings := ⟨[(16383, r)]⟩ } }
    xltHalted d (3 : Die) = false ∧
    ringTurn d (3 : Die) (mayTurn d (3 : Die)) = some 16383 ∧
    ringNext d 16383 = some (.inr ([2 ^ 31, 0, 0, 0, 0, 0, 0, 0, 0, 0, 0, 0, 0, 0, 0, 0], [])) := by decide +kernel
theorem wit_dispatchBad : let r := { ring0 with state := 1, die := 3, fetched := [⟨0, none, []⟩] }
    let d := { dyOf lockT with ring := { dyn0.ring with rings := ⟨[(16383, r)]⟩ } }
    xltHalted d (3 : Die) = false ∧
    ringTurn d (3 : Die) (mayTurn d (3 : Die)) = some 16383 ∧ ringNext d 16383 = some (.inl 7) := by decide +kernel
theorem wit_resultRetry : let r := { ring0 with heldAt := some 0 }
    let d := { dyn0 with ring := { dyn0.ring with rings := ⟨[(16383, r)]⟩, res := ⟨[(4095, { res0 with on := true })]⟩ }, now := 10 ^ 12 }
    (resGet d (4095 : Slc)).on = true ∧ slcHolds d (4095 : Slc) = true ∧
    (resGet d (4095 : Slc)).retryAt + resRetryNs arrEmpty (((hostPort arrEmpty d (resGet d (4095 : Slc)).host).getD 0) / 48) ≤ d.now := by
  decide +kernel

/-! RingEntryCommandsComplete -/

theorem wit_nop : entReady (ringT 16383 (entT [0])) (16383 : RingId) 0 0 = some (entT [0]) ∧
    entReady (ringT 16383 (entT [7])) (16383 : RingId) 0 7 = some (entT [7]) := by decide +kernel
theorem wit_copyStops : let e := entT [3, 0, 0, 0, 0, 0, 64, 0]
    let f := entT [4, 0, 0, 0, 0, 0, 64, 0]
    entReady (ringT 16383 e) (16383 : RingId) 0 3 = some e ∧ moveCheck arrEmpty (ringT 16383 e) (16383 : RingId) e = some (5, none) ∧
    entReady (ringT 16383 f) (16383 : RingId) 0 4 = some f ∧ moveCheck arrEmpty (ringT 16383 f) (16383 : RingId) f = some (5, none) := by decide +kernel
theorem wit_hint : let e := entT [5, 0, 0, 0, 2, 0]
    let g := (stc [(.qosSliceKeyPriv, 4095, 1)] []).cfg
    entReady (ringT 16383 e) (16383 : RingId) 0 5 = some e ∧ ringPriv g (ringT 16383 e) (16383 : RingId) = true ∧
    ringPriv arrEmpty (ringT 16383 e) (16383 : RingId) = false := by decide +kernel
theorem wit_migrate : let e := entT [6, 0, 0, 0, 1, 0]
    let g := (stc [(.xltCtlMigEn, 0, 1)] []).cfg
    let d := ringT 16383 e
    entReady d (16383 : RingId) 0 6 = some e ∧ cg (stc [(.xltCtlMigEn, 0, 0)] []).cfg .xltCtlMigEn 0 = 0 ∧ cg g .xltCtlMigEn 0 ≠ 0 ∧
    (ptGet d 0 0).state = 0 ∧ sharedPage g 0 0 = false ∧ rd d .nvmSagStsSag 0 ≠ 1 := by decide +kernel
theorem wit_query : entReady (ringT 16383 (entT [8])) (16383 : RingId) 0 8 = some (entT [8]) ∧
    entReady (ringT 16383 (entT [9])) (16383 : RingId) 0 9 = some (entT [9]) ∧
    entReady (ringT 16383 (entT [10])) (16383 : RingId) 0 10 = some (entT [10]) := by decide +kernel

/-! ControlStateAndArbiterCommandsComplete -/

theorem wit_rewrite : let x : EccHit := ⟨.routeWord, 31, 7, true⟩
    let y : EccHit := ⟨.gateRule, 3, 7, true⟩
    let d := { dyOf [(.dieDieIdLead, 3, 1)] with hlth := { hlth0 with fixes := [x, y] } }
    d.hlth.fixes.contains x = true ∧ d.hlth.fixes.contains y = true ∧ (leadDie d).isSome = true ∧
    ruleInError { d with hlth := { d.hlth with fixes := d.hlth.fixes.filter fun z => z != y } } y.inst = false := by decide +kernel
theorem wit_scrub : let a : Act := ⟨4, { actReq 1 [] [] with strukt := 111 }, 0, 0⟩
    let b : Act := ⟨5, { actReq 9 [] [] with strukt := 47 }, 0, 16383⟩
    let l : List Act := [a, b]
    l.find? (fun a => a.q.code == 1 && a.q.strukt == (111 : Fin 112).val) = some a ∧ aget 0 hlth0.scrubs (111 : Fin 112) + scrubNs arrEmpty ≤ 10 ^ 12 ∧
    l.find? (fun a => a.q.code == 9 && a.q.strukt == (47 : DSlice).val && a.tag == (16383 : Fin 16384).val) = some b := by decide +kernel
theorem wit_arbiter : let a : Act := ⟨4, actReq 4 [] [], 0, askTag⟩
    let b : Act := ⟨5, { actReq 5 [] [] with lostLink := true }, 0, 0⟩
    let l : List Act := [a, b]
    (l.any fun a => a.id == 4 && a.tag == askTag) = true ∧ l.find? (fun a => a.id == 4) = some a ∧ l.find? (fun a => a.id == 5) = some b ∧
    a.q.lostLink = false ∧ b.q.lostLink = true ∧ a.at0 + 100000000 ≤ 100000000 := by decide +kernel

/-! AgeingCommandsComplete -/

theorem wit_replan : let d := { dyOf [(.secBootStsStage, 0, 8)] with now := 5 }
    rd d .secBootStsStage 0 = 8 ∧ d.hlth.planOpen = false ∧ d.hlth.planAt ≤ d.now := by decide +kernel
theorem wit_planDone : let d := planKick { dyn0 with hlth := { hlth0 with planOpen := true, planActs := [7] } }
    d.hlth.planOpen = true ∧ d.hlth.planSwaps = [] ∧ (d.hlth.planActs.any fun id => arbKnown d id) = false := by decide +kernel
theorem wit_avStep : let a : Act := ⟨4, actReq 2 [] [7], 0, 15⟩
    let d := { dyn0 with hlth := { hlth0 with running := [a] } }
    d.hlth.running.find? (fun a => a.q.code == 2 && a.tag / 2 == (7 : Region).val && !(d.hlth.avRun.any fun x => x.2.2 == a.id)) = some a ∧
    regionSleeps arrEmpty d (7 : Region) = false := by decide +kernel
theorem wit_avStepComplete : let l : List (Nat × Nat × Nat) := [(7, 0, 4)]
    l.find? (fun x => x.1 == (7 : Region).val) = some (7, 0, 4) ∧ 0 + 50000 ≤ 50000 ∧ hlth0.planOpen = false := by decide
theorem wit_avEmergency : let s := stc [(.hlthCtlAvEn, 0, 1), (.hlthSlackEmergPs, 0, 1)] [(.secBootStsStage, 0, 8)]
    rd s.dyn .secBootStsStage 0 = 8 ∧ s.dyn.hlth.planOpen = false ∧ cg s.cfg .hlthCtlAvEn 0 ≠ 0 ∧ 5 * (0 : Fin 64).val < cg s.cfg .hlthSlackEmergPs 0 ∧
    ((s.dyn.hlth.running ++ s.dyn.hlth.waiting).any fun a => a.q.emerg && a.tag / 2 == 7) = false := by decide +kernel
theorem wit_reequalisation : let a : Act := ⟨4, actReq 4 [47] [7], 0, 188⟩
    let d := { dyOf [(.portLstsLinkUp, 188, 1)] with hlth := { hlth0 with running := [a] } }
    runningOf d 4 (188 : Lport) = some a ∧ (d.hlth.reeq.any fun x => x.1 == (188 : Lport).val) = false ∧ inL0 d (188 : Lport) = true := by decide +kernel
theorem wit_reeqDone : let l : List (Nat × Nat × Nat) := [(188, 0, 4)]
    l.find? (fun x => x.1 == (188 : Lport).val) = some (188, 0, 4) ∧ lpLinkUp (dyOf [(.portLstsLinkUp, 188, 1)]) (188 : Lport) = true ∧
    1999999 < 0 + 2000000 ∧ 0 + 2000000 ≤ 2000000 := by decide +kernel

/-! LeadAndEventLogCommandsComplete -/

theorem wit_heartbeat : let d := { dyOf [(.dieDieIdLead, 3, 1), (.secBootStsStage, 0, 8), (.dieDieIdStandby, 1, 1)] with now := 1000000 }
    leadDie d = some 3 ∧ d.hlth.withdrawn.contains 3 = false ∧ d.hlth.down.contains 3 = false ∧ rd d .secBootStsStage 0 = 8 ∧
    d.hlth.hbLead + 500000 ≤ d.now ∧ d.hlth.hbWord + 1000000 ≤ d.now ∧
    (standbyDie (withdraw 3 d)).filter (fun j => dieHealthy (withdraw 3 d) j) = some 1 ∧ (0 : Die).val ≠ 3 ∧ (0 : Die).val ≠ 1 ∧
    dieHealthy (withdraw 3 d) (0 : Die) = true := by decide +kernel
theorem wit_mgmtReload : let d := { dyOf [(.nvmFlashStsPass, 0, 1), (.dieDieIdLead, 0, 1)] with hlth := { hlth0 with down := [3] } }
    d.hlth.down.contains (3 : Die).val = true ∧ regFail d (2 * (3 : Die).val) = false ∧ (flashSource d).isNone = false ∧ leadDie d ≠ some (3 : Die).val ∧
    leadDie (mgmtBack (3 : Die) d) = some 0 ∧ standbyDie (mgmtBack (3 : Die) d) = none ∧
    (standbyDie (mgmtBack (3 : Die) (put .dieDieIdStandby 1 1 d))).isSome = true := by
  decide +kernel
theorem wit_eventLog : let e : Ev := ⟨5, 0x0901, 3, [7]⟩
    let d := elogFill { dyOf [(.dieDieIdLead, 3, 1)] with ev := [e], hlth := { hlth0 with elogTok := 1 } }
    d.ev = [e] ∧ d.hlth.elogTok ≠ 0 ∧ (leadDie d).isSome = true ∧ (elogFill dyn0).ev = [] := by decide +kernel

/-! RangerCommandsComplete -/

theorem wit_ranger : let d := dyOf [(.secBootStsStage, 0, 8)]
    rangerUp d (3 : Die) false = true ∧ rangerUp d (3 : Die) true = true ∧ accessWaits arrEmpty d 0x30000010 = false ∧ dyn0.hlth.plans = [] := by decide +kernel
theorem wit_wr : let s := st [(.secBootStsStage, 0, 8)]
    ([0x32400000].all fun x => mayWrite s.cfg s.dyn (.ranger 3) x) = false ∧ (([] : List Nat).all fun x => mayWrite s.cfg s.dyn (.ranger 3) x) = true := by
  decide +kernel
theorem wit_expiry : let d := dyOf [(.monDbgStsLockout, 3, 1)]
    (aget mon0 d.mon (3 : Die)).until0 ≤ d.now ∧ rd d .monDbgStsLockout (3 : Die) = 1 ∧ (aget mon0 d.mon (3 : Die)).outEnd ≤ d.now := by decide +kernel

/-! ClockResetAndSupplyCommandsComplete -/

theorem wit_pll : let d := { dyOf [(.dieRclkStsR1Lock, 3, 1)] with elec := { dyn0.elec with relock := ⟨[(6, 3)]⟩ } }
    rgnLock d (7 : Region) ≠ 0 ∧ regFail d (7 : Region) = false ∧ relockOf d (6 : Region) = 3 := by decide +kernel
theorem wit_tick : let d := { dyn0 with elec := { dyn0.elec with vin := true } }
    d.elec.vin = true ∧ d.elec.reset = false ∧ d.elec.trip = false ∧ rd d .secBootStsStage 0 = 0 ∧
    ({ d.elec with reset := true } : ElecSt).reset = true := by decide +kernel

/-! EveryCommandAnswersNext -/

theorem wit_pulse : pulseUndefined (.coldRst 1000000) = false ∧ pulseUndefined (.coldRst 100000) = true ∧
  pulseUndefined (.coldRst 999999) = true ∧ pulseUndefined (.coldRst 99999) = false := by decide

/-! ConfigurationChangesOnlyAtStartOrByAVerifiedChange -/

theorem wit_writesCfg : writesCfg .refill = false ∧ exec .refill State.reset = .next State.reset := ⟨by decide, rfl⟩

/-! LockedFieldsKeepTheirValueOnceReady -/

theorem wit_ready : ready (st [(.secBootStsStage, 0, 8)]) = true ∧ cfgAcc .portLpcfgRole = .rwl ∧
  step { st [(.secBootStsStage, 0, 8)] with pending := [.freeze true] } =
    .next (st [(.secBootStsStage, 0, 8), (.pmcCtlFreeze, 0, 1)]) ∧
  ready (st [(.secBootStsStage, 0, 8), (.pmcCtlFreeze, 0, 1)]) = true := ⟨by decide, by decide, rfl, by decide⟩

/-! ConfigurationKeepsItsForm -/

theorem wit_cfgForm : cfgForm (cput .hlthCtlPlanH 0 5 arrEmpty) ∧ step State.reset = .next State.reset := by
  refine ⟨⟨by decide, fun f i v h => ?_⟩, rfl⟩
  have hk : cKey f i = cKey .hlthCtlPlanH 0 := by
    by_contra hne
    have hc : (cput .hlthCtlPlanH 0 5 arrEmpty : Cfg).cells = [(cKey .hlthCtlPlanH 0, 5)] := by decide
    rw [hc] at h
    simp only [cellsFind] at h
    rw [if_neg (fun e => hne e.symm)] at h
    exact absurd h (by simp)
  have hc : (cput .hlthCtlPlanH 0 5 arrEmpty : Cfg).cells = [(cKey .hlthCtlPlanH 0, 5)] := by decide
  rw [hc, hk] at h
  obtain ⟨rfl, rfl⟩ := cKey_inj.mp hk
  simp only [cellsFind, if_true, Option.some.injEq] at h
  subst h
  decide

/-! EventsEnterInTimestampOrder -/

theorem wit_evFull : (List.replicate 1024 (⟨0, 0x0B01, 0, []⟩ : Ev)).length = 1024 ∧
  (List.replicate 1024 (⟨0, 0x0B01, 0, []⟩ : Ev)).Pairwise (fun a b => a.ts ≤ b.ts) :=
  ⟨List.length_replicate, List.pairwise_replicate.mpr (.inr (le_refl _))⟩

/-! CountersStopAtTheirMaximumAndFreeze -/

theorem wit_ctr : rd (dyOf [(.pmcValCount, 7, 281474976710655)]) .pmcCtlFreeze 0 ≠ 1 ∧
  rd (dyOf [(.pmcValCount, 7, 281474976710655)]) .pmcValOvf 7 ≠ 1 ∧
  281474976710655 < rd (dyOf [(.pmcValCount, 7, 281474976710655)]) .pmcValCount 7 + 1 ∧
  rd (dyOf [(.pmcValCount, 7, 281474976710654)]) .pmcValCount 7 + 1 ≤ 281474976710655 ∧
  rd (dyOf [(.pmcCtlFreeze, 0, 1)]) .pmcCtlFreeze 0 = 1 := by decide

/-! TimestampCopiesFollowTheMaster -/

theorem wit_copy : copyAt 48 40 20 = 48 ∧ copyAt 0 40 20 = 40 ∧ copyAt 38 40 24 = 48 ∧ copyAt 90 80 30 = 90 := by decide

/-! GrantsNeverExcludeEachOther -/

theorem wit_actsOk : actsOk [⟨0, ⟨6, [], [], 0, 0, false, false⟩, 0, 0⟩, ⟨1, ⟨5, [], [], 0, 0, false, true⟩, 0, 0⟩] := by
  unfold actsOk; decide

/-! LowestMatchingRuleDecides -/

theorem wit_rule : cg (stc [(.gateRuleReqV, 5, 1), (.gateRuleReqLportAny, 5, 1), (.gateRuleReqHostAny, 5, 1), (.gateRuleLimitPage, 5, 9),
    (.gateRuleReqKinds, 5, 1)] []).cfg .gateRuleReqV 5 = 1 ∧
  ruleMatch (stc [(.gateRuleReqV, 5, 1), (.gateRuleReqLportAny, 5, 1), (.gateRuleReqHostAny, 5, 1), (.gateRuleLimitPage, 5, 9),
    (.gateRuleReqKinds, 5, 1)] []).cfg 5 ⟨8, 188, .memRd, .ld 0, 0x9FC0, 64, none, .a, false, none, false⟩ none = true ∧
  ruleCovers (stc [(.gateRuleReqV, 5, 1), (.gateRuleReqLportAny, 5, 1), (.gateRuleReqHostAny, 5, 1), (.gateRuleLimitPage, 5, 9),
    (.gateRuleReqKinds, 5, 1)] []).cfg 5 0x9FC0 = true ∧
  ruleCovers (stc [(.gateRuleReqV, 5, 1), (.gateRuleReqLportAny, 5, 1), (.gateRuleReqHostAny, 5, 1), (.gateRuleLimitPage, 5, 9),
    (.gateRuleReqKinds, 5, 1)] []).cfg 5 0xA000 = false := by decide

/-! PolicerColoursAndBuckets -/

theorem wit_police : cg (stc [(.qosPolRateCir, 3, 9)] []).cfg .qosPolPirPir 3 < cg (stc [(.qosPolRateCir, 3, 9)] []).cfg .qosPolRateCir 3 ∧
  cg (stc [(.qosPolBktCbs, 3, 0)] []).cfg .qosPolBktCbs 3 = 0 ∧ cg (stc [(.qosPolBktPbs, 3, 0)] []).cfg .qosPolBktPbs 3 = 0 ∧
  policeMark true 1 64 64 64 = (1, 64, 0) ∧ policeMark true 2 64 64 64 = (2, 64, 64) ∧ policeMark false 2 64 64 64 = (0, 0, 0) := by decide

/-! SharedKeysHaveOneHomeAndPlace -/

theorem wit_key : keyTag 5 = keyTag 6 ∧ keySet 5 ≠ keySet 6 := by decide

/-! AccessesOutsideTheMapHaveNoEffect -/

theorem wit_outside : mayRead arrEmpty dyn0 (.i3c 0) = true ∧ mayWrite arrEmpty dyn0 (.i3c 0) 0x50000000 = true ∧
  accessWaits arrEmpty dyn0 2 = false ∧ mayWrite arrEmpty dyn0 (.i3c 0) 2 = true := by decide +kernel

/-! PackageWideRegistersAnswerThroughTheAlias -/

theorem wit_pkgWide : ∃ r, regAt 0x2100000 = some r ∧ mgmtAnswers dyn0 3 = true ∧ accessWaits arrEmpty dyn0 0x32100000 = false ∧
  mayWrite arrEmpty dyn0 (.i3c 0) 0x32100000 = true := by decide +kernel

/-! LowestPassingFlashLeads -/

theorem wit_flash : flashPass flashT = true ∧ flashPass { flashT with octal := false } = false ∧
  (∀ r : Fin 8, regFail dyn0 r = false) ∧ rd dyn0 .secBootStsStage 0 = 0 ∧ dyn0.alloc.journal = [] := by decide

/-! HostDpcSettingsReachTheBoundPort -/

theorem wit_dpcHost : ([⟨117, 0, 5, 3, true⟩] : List Bnd).find? (fun b => b.vcs == 5 && b.vppb == 3) = some ⟨117, 0, 5, 3, true⟩ ∧
  aget 0 dyn0.port.dpcCtl (5 * 32 + 4) = 0 := by decide

end Sys2Proof.Tests
end

section
/-! PROOFS. What a command can do to the configuration registers, said once (R4, R453, R457, R463, R519, R533); from it O41, O42 and
O43. -/


namespace Sys2Proof
namespace Machine

/-! ## Writes to configuration fields -/

/-- `g'` comes from `g` by one write to a field that a record may write, at start or by an amendment (R4, R457). -/
def OneWrite (start : Bool) (g g' : Cfg) : Prop :=
  ∃ f i v, recTakes start (cfgAcc f) = true ∧ g' = cput f i v g

/-- `g'` comes from `g` by some number of such writes. -/
def CfgWrites (start : Bool) : Cfg → Cfg → Prop := Relation.ReflTransGen (OneWrite start)

theorem CfgWrites.refl (start : Bool) (g : Cfg) : CfgWrites start g g := Relation.ReflTransGen.refl

theorem CfgWrites.trans {start : Bool} {g g' g'' : Cfg} (h : CfgWrites start g g') (h' : CfgWrites start g' g'') :
    CfgWrites start g g'' := Relation.ReflTransGen.trans h h'

/-- One more write of a field that may be written. -/
theorem CfgWrites.put {start : Bool} {g g' : Cfg} {f : CFld} (hf : recTakes start (cfgAcc f) = true) (h : CfgWrites start g g')
    (i v : Nat) : CfgWrites start g (cput f i v g') := Relation.ReflTransGen.tail h ⟨f, i, v, hf, rfl⟩

/-- Every configuration field is RWL or RWA, and so is written by the records of the image. -/
theorem recTakes_start (f : CFld) : recTakes true (cfgAcc f) = true := by cases f <;> rfl

theorem CfgWrites.putStart {g g' : Cfg} (h : CfgWrites true g g') (f : CFld) (i v : Nat) : CfgWrites true g (cput f i v g') :=
  h.put (recTakes_start f) i v

/-- What an amendment may write, start may write too. -/
theorem CfgWrites.toStart {g g' : Cfg} (h : CfgWrites false g g') : CfgWrites true g g' :=
  Relation.ReflTransGen.mono (fun _ _ ⟨f, i, v, _, e⟩ => ⟨f, i, v, recTakes_start f, e⟩) _ _ h

/-- A loop whose rounds only write fields that may be written does no more itself. -/
theorem CfgWrites.of_forAll {α σ : Type} {start : Bool} {g : Cfg} (r : σ → Cfg) (l : List α) (f : α → σ → σ)
    (hf : ∀ x s, CfgWrites start (r s) (r (f x s))) {s : σ} (h : CfgWrites start g (r s)) :
    CfgWrites start g (r (forAll l f s)) :=
  forAll_inv (fun s => CfgWrites start g (r s)) l f (fun x s hs => hs.trans (hf x s)) s h

/-- RWL fields keep their values under the writes of amendments (R4). -/
theorem CfgWrites.cg_rwl {g g' : Cfg} (h : CfgWrites false g g') {f : CFld} (hf : cfgAcc f = .rwl) (i : Nat) :
    cg g' f i = cg g f i := by
  induction h with
  | refl => rfl
  | tail _ hw ih =>
    obtain ⟨f', j, v, htake, rfl⟩ := hw
    have hne : f ≠ f' := by
      rintro rfl
      rw [hf] at htake
      exact absurd htake (by decide)
    rw [cg_cput_ne (fun e => hne e.1), ih]

/-! ## The form of the configuration -/

/-- The array that lists nothing is in the form. -/
theorem cfgForm_arrEmpty : cfgForm arrEmpty := ⟨rfl, fun _ _ _ h => nomatch h⟩

/-- The cell of a field after a write to it is the value cut to its width, and is listed only where that is not the reset value. -/
theorem cellsFind_cput_same {f : CFld} {i v x : Nat} {g : Cfg} (h : cellsFind (cKey f i) (cput f i v g).cells = some x) :
    x ≠ cfgReset f i ∧ x = v % 2 ^ cfgWidth f := by
  by_cases hv : v % 2 ^ cfgWidth f = cfgReset f i
  · simp [cput, aset, hv, cellsFind_drop_same] at h
  · simp only [cput, aset, hv, if_false, cellsFind_put_same _ _ _ (cellsFind_drop_same _ _), Option.some.injEq] at h
    exact ⟨h ▸ hv, h.symm⟩

/-- A write leaves the cell of every other key as it was. -/
theorem cellsFind_cput_ne {f : CFld} {i k : Nat} (h : k ≠ cKey f i) (v : Nat) (g : Cfg) :
    cellsFind k (cput f i v g).cells = cellsFind k g.cells := by
  by_cases hv : v % 2 ^ cfgWidth f = cfgReset f i
  · simp [cput, aset, hv, cellsFind_drop_ne h]
  · simp [cput, aset, hv, cellsFind_put_ne h, cellsFind_drop_ne h]

/-- A write keeps the keys strictly rising. -/
theorem cellsSorted_cput (f : CFld) (i v : Nat) {g : Cfg} (h : cellsSorted 0 g.cells = true) :
    cellsSorted 0 (cput f i v g).cells = true := by
  by_cases hv : v % 2 ^ cfgWidth f = cfgReset f i
  · simpa [cput, aset, hv] using cellsSorted_drop 0 _ _ h
  · simpa [cput, aset, hv] using
      cellsSorted_put 0 _ _ _ (Nat.zero_le _) (cellsSorted_drop 0 _ _ h) (cellsFind_drop_same _ _)

/-- Every write keeps the form (R3, R5). -/
theorem cfgForm_cput (f : CFld) (i v : Nat) {g : Cfg} (h : cfgForm g) : cfgForm (cput f i v g) := by
  obtain ⟨hsorted, hcell⟩ := h
  refine ⟨cellsSorted_cput f i v hsorted, fun f' j x hx => ?_⟩
  by_cases hk : cKey f' j = cKey f i
  · obtain ⟨rfl, rfl⟩ := cKey_inj.mp hk
    obtain ⟨hreset, rfl⟩ := cellsFind_cput_same hx
    exact ⟨hreset, Nat.mod_lt _ (Nat.two_pow_pos _)⟩
  · rw [cellsFind_cput_ne hk] at hx
    exact hcell f' j x hx

/-- Any number of writes keeps the form. -/
theorem CfgWrites.keeps_form {start : Bool} {g g' : Cfg} (h : CfgWrites start g g') (hg : cfgForm g) : cfgForm g' := by
  induction h with
  | refl => exact hg
  | tail _ hw ih =>
    obtain ⟨f, i, v, _, rfl⟩ := hw
    exact cfgForm_cput f i v ih

/-! ## Records (R4, R453, R457) -/

/-- One field of a record's word: written only where the record's word acts on fields of its access type. -/
theorem recFld_writes (start : Bool) (k w v : Nat) (e : FEnt) (s : Cfg × Dyn) :
    CfgWrites start s.1 (recFld start k w v e s).1 := by
  unfold recFld
  split
  · exact .refl _ _
  next htake =>
    split
    next f hf =>
      refine (CfgWrites.refl start s.1).put ?_ _ _
      simp only [entAcc, hf, Bool.or_eq_true, Bool.not_eq_true', not_or, Bool.not_eq_false] at htake
      exact htake.2
    next => split <;> exact .refl _ _

theorem recReg_writes (start : Bool) (a : RegAt) (v die : Nat) (s : Cfg × Dyn) :
    CfgWrites start s.1 (recReg start a v die s).1 :=
  CfgWrites.of_forAll Prod.fst _ _ (fun e s => recFld_writes start _ _ _ e s) (.refl _ _)

theorem recWord_writes (start : Bool) (addr v : Nat) (s : Cfg × Dyn) : CfgWrites start s.1 (recWord start addr v s).1 := by
  unfold recWord
  split
  · exact .refl _ _
  · exact CfgWrites.of_forAll Prod.fst _ _ (fun die s => recReg_writes start _ _ die s) (.refl _ _)

theorem recsApply_writes (start : Bool) (l : List RegRec) (s : Cfg × Dyn) : CfgWrites start s.1 (recsApply start l s).1 :=
  CfgWrites.of_forAll Prod.fst _ _
    (fun _ _ => CfgWrites.of_forAll Prod.fst _ _ (fun (x : Nat × Nat) s => recWord_writes start x.1 x.2 s) (.refl _ _)) (.refl _ _)

/-! ## What start makes of the values (R42, R46, R103, R132, R453) -/

theorem profileDefaults_writes (p : Nat) (g : Cfg) : CfgWrites true g (profileDefaults p g) := by
  unfold profileDefaults
  iterate 9 refine CfgWrites.putStart ?_ _ _ _
  exact CfgWrites.of_forAll id _ _ (fun _ g => (CfgWrites.refl true g).putStart _ _ _) (.refl _ _)

theorem profileStore_writes (p : Nat) (bad : Bool) (s : Cfg × Dyn) : CfgWrites true s.1 (profileStore p bad s).1 :=
  CfgWrites.of_forAll id _ _ (fun _ g => (CfgWrites.refl true g).putStart _ _ _) (.refl _ _)

theorem cminCheck_writes (cl : Nat) (s : Cfg × Dyn) : CfgWrites true s.1 (cminCheck cl s).1 := by
  refine CfgWrites.of_forAll id _ _ (fun q g => ?_) (.refl _ _)
  simp only [cminPut]
  split <;> exact (CfgWrites.refl true g).putStart _ _ _

theorem ldEmpty_writes (n : Nat) (s : Cfg × Dyn) : CfgWrites true s.1 (ldEmpty n s).1 := by
  induction n generalizing s with
  | zero => exact .refl _ _
  | succ n ih =>
    simp only [ldEmpty]
    split
    · exact .refl _ _
    · split
      · exact ih s
      · exact ((CfgWrites.refl true s.1).putStart .xltLdtPages n 0).trans (ih (cput .xltLdtPages n 0 s.1, _))

theorem ldCheck_writes (s : Cfg × Dyn) : CfgWrites true s.1 (ldCheck s).1 := by
  refine CfgWrites.trans (CfgWrites.of_forAll Prod.fst _ _ (fun n s => ?_) (.refl _ _)) (ldEmpty_writes 128 _)
  split
  · exact (CfgWrites.refl true s.1).putStart .xltLdtPages n (2 ^ 27)
  · exact .refl _ _

/-- The configuration after the register records of the image: defaults of the profile, records, the profile, class minimums, LDs. -/
theorem recsStart_writes (l : List RegRec) (s : Cfg × Dyn) : CfgWrites true s.1 (recsStart l s).1 := by
  simp only [recsStart]
  refine CfgWrites.trans ?_ (ldCheck_writes _)
  refine CfgWrites.of_forAll Prod.fst _ _ cminCheck_writes ?_
  dsimp only
  refine CfgWrites.trans ?_ (profileStore_writes _ (badProfile l) _)
  refine CfgWrites.trans ?_ (recsApply_writes true l _)
  exact profileDefaults_writes _ s.1

/-! ## Amendments and activations (R457, R461, R463) -/

theorem amdApply_writes (a : Amendment) (s : Cfg × Dyn) : CfgWrites false s.1 (amdApply a s).1 :=
  recsApply_writes false (amdRegs a) s

theorem fwEnd_writes (f : FwRun) (s : Cfg × Dyn) : CfgWrites false s.1 (fwEnd f s).1 :=
  recsApply_writes false f.img.regs s

theorem fwReloaded_writes (k : Nat) (s : Cfg × Dyn) : CfgWrites false s.1 (fwReloaded k s).1 := by
  unfold fwReloaded
  split
  · split
    · exact .refl _ _
    · simp only
      split
      · exact fwEnd_writes _ (s.1, fwLoad k s.2)
      · exact .refl _ _
  · exact .refl _ _

theorem amdCommitted_writes (s : Cfg × Dyn) : CfgWrites false s.1 (amdCommitted s).1 := by
  unfold amdCommitted
  split
  next r _ =>
    split
    · exact .refl _ _
    · exact amdApply_writes r.amd s
  · exact .refl _ _

/-- A record that passes its checks takes effect, and replay goes on (R461). -/
theorem replayLog_amd_pass {a : Amendment} {s : Cfg × Dyn} (h : amdCheck s.1 s.2 a = none) (t : List LogBody) :
    replayLog (.amd a :: t) s = replayLog t ((amdApply a s).1, installAll (amdApply a s).1 (amdApply a s).2) := by
  conv_lhs => unfold replayLog
  simp only [h]

/-- A record that fails stops replay, and the configuration stays (R461). -/
theorem replayLog_amd_fail {a : Amendment} {s : Cfg × Dyn} {why : Nat} (h : amdCheck s.1 s.2 a = some why) (t : List LogBody) :
    (replayLog (.amd a :: t) s).1 = s.1 := by
  unfold replayLog
  simp only [h]

/-- Replay writes what the replayed amendments write. -/
theorem replayLog_writes (l : List LogBody) (s : Cfg × Dyn) : CfgWrites false s.1 (replayLog l s).1 := by
  induction l generalizing s with
  | nil => exact .refl _ _
  | cons b t ih =>
    match b with
    | .base _ _ => exact ih s
    | .void _ => exact CfgWrites.refl false s.1
    | .amd a =>
      cases h : amdCheck s.1 s.2 a with
      | none =>
        have hrest := ih ((amdApply a s).1, installAll (amdApply a s).1 (amdApply a s).2)
        rw [replayLog_amd_pass h]
        exact CfgWrites.trans (amdApply_writes a s) hrest
      | some why =>
        rw [replayLog_amd_fail h]
        exact .refl _ _

/-! ## Restarts leave the start sequence at its beginning -/

/-- The boot ROM leaves the stage of the start sequence. -/
theorem rd_romStart_stage (p : Nat) (d : Dyn) : rd (romStart p d) .secBootStsStage 0 = rd d .secBootStsStage 0 := by
  simp only [romStart]
  simp only [rd_put_fld, ne_eq, reduceCtorEq, not_false_eq_true, rd_mk]
  rw [forAll_keep (fun d => rd d .secBootStsStage 0) _ _ (fun _ _ => by simp),
    forAll_keep (fun d => rd d .secBootStsStage 0) _ _ (fun k d => ?_)]
  rw [rd_newChal k (by decide)]
  simp

/-- What a restart carries over holds no status field. -/
theorem rd_carry_stage (d : Dyn) : rd (carry d) .secBootStsStage 0 = 0 := rfl

/-! ## What a command can do to the configuration -/

/-- What one command can make of the configuration registers and the changing part, as a pair: leave the configuration; clear it in a
restart, which puts the start sequence back to its beginning; write any field before device ready; or write what an amendment may
write. -/
inductive CfgStep (s : State) (r : Cfg × Dyn) : Prop
  | kept (hcfg : r.1 = s.cfg)
  | cleared (hcfg : r.1 = arrEmpty) (hstage : rd r.2 .secBootStsStage 0 = 0)
  | started (hstage : ready s = false) (hcfg : CfgWrites true s.cfg r.1)
  | amended (hcfg : CfgWrites false s.cfg r.1)

/-- Every outcome keeps the form of the configuration. -/
theorem CfgStep.keeps_form {s : State} {r : Cfg × Dyn} (h : CfgStep s r) (hs : cfgForm s.cfg) : cfgForm r.1 := by
  cases h with
  | kept hcfg => exact hcfg ▸ hs
  | cleared hcfg _ => exact hcfg ▸ cfgForm_arrEmpty
  | started _ hcfg => exact hcfg.keeps_form hs
  | amended hcfg => exact hcfg.keeps_form hs

/-- Between two ready states the RWL fields keep their values. -/
theorem CfgStep.keeps_rwl {s : State} {r : Cfg × Dyn} (h : CfgStep s r) (hs : ready s = true)
    (hr : rd r.2 .secBootStsStage 0 = 8) {f : CFld} (hf : cfgAcc f = .rwl) (i : Nat) : cg r.1 f i = cg s.cfg f i := by
  cases h with
  | kept hcfg => rw [hcfg]
  | cleared _ hstage => rw [hr] at hstage; exact absurd hstage (by decide)
  | started hstage _ => rw [hs] at hstage; exact absurd hstage (by decide)
  | amended hcfg => exact hcfg.cg_rwl hf i

/-- A command outside `writesCfg` is of the form that leaves the configuration registers out (R4). -/
theorem exec_nextDyn (c : Instr) (s : State) (hc : writesCfg c = false) : ∃ f, exec c s = nextDyn s f := by
  unfold exec
  cases c
  case powerOn | recoveryImageTransfer | registerRecords | amendmentReplay | amendmentApply | dieFwReload | coldRst | coldRstRelease
      | powerLoss | sensorRead => exact nomatch hc
  all_goals exact ⟨_, rfl⟩

theorem exec_keeps_cfg {c : Instr} {s t : State} (hc : writesCfg c = false) (h : exec c s = .next t) : t.cfg = s.cfg := by
  obtain ⟨f, hf⟩ := exec_nextDyn c s hc
  exact (nextDyn_frame (hf ▸ h)).1

/-- A command of the second form makes what its function makes of configuration and changing part. -/
theorem CfgStep.of_nextCfg {s t : State} {f : Cfg → Dyn → Cfg × Dyn} (hf : CfgStep s (f s.cfg s.dyn)) (h : nextCfg s f = .next t) :
    CfgStep s (t.cfg, t.dyn) := by
  cases h; exact hf

/-- A restart that a condition guards, the configuration kept where it fails. -/
theorem CfgStep.restart_or_kept (s : State) (b : Bool) (pkg : Nat) (d e : Dyn) :
    CfgStep s (if b then (arrEmpty, romStart pkg (carry d)) else (s.cfg, e)) := by
  split
  · exact .cleared rfl (rd_romStart_stage _ _)
  · exact .kept rfl

/-- A package in a stage of the start sequence other than 8 is not ready. -/
theorem not_ready_of_stage {s : State} {n : Nat} (h : ¬ rd s.dyn .secBootStsStage 0 ≠ n) (hn : n ≠ 8) : ready s = false := by
  simpa [ready, not_not.mp h] using hn

theorem execPowerOn_cfg {env : PowerEnv} {s t : State} (h : execPowerOn env s = .next t) : CfgStep s (t.cfg, t.dyn) := by
  refine .of_nextCfg ?_ h
  dsimp only
  split
  · exact .kept rfl
  · exact .cleared rfl (rd_romStart_stage _ _)

theorem execRecoveryImageTransfer_cfg {m : Image} {s t : State} (h : execRecoveryImageTransfer m s = .next t) :
    CfgStep s (t.cfg, t.dyn) := by
  refine .of_nextCfg ?_ h
  dsimp only
  split
  · exact .kept rfl
  · split
    · exact .kept rfl
    · exact .restart_or_kept _ _ _ _ _

theorem execRegisterRecords_cfg {s t : State} (h : execRegisterRecords s = .next t) : CfgStep s (t.cfg, t.dyn) := by
  refine .of_nextCfg ?_ h
  dsimp only
  split
  · exact .kept rfl
  next hstage =>
    split
    · exact .kept rfl
    · exact .started (not_ready_of_stage hstage (by decide)) (recsStart_writes _ (s.cfg, _))

theorem execAmendmentReplay_cfg {s t : State} (h : execAmendmentReplay s = .next t) : CfgStep s (t.cfg, t.dyn) := by
  refine .of_nextCfg ?_ h
  dsimp only
  split
  · exact .kept rfl
  · exact .amended (replayLog_writes _ (s.cfg, s.dyn))

theorem execAmendmentApply_cfg {s t : State} (h : execAmendmentApply s = .next t) : CfgStep s (t.cfg, t.dyn) :=
  .of_nextCfg (.amended (amdCommitted_writes (s.cfg, s.dyn))) h

theorem execDieFwReload_cfg {k : Die} {s t : State} (h : execDieFwReload k s = .next t) : CfgStep s (t.cfg, t.dyn) :=
  .of_nextCfg (.amended (fwReloaded_writes k (s.cfg, s.dyn))) h

theorem execColdRst_cfg {low : Nat} {s t : State} (h : execColdRst low s = .next t) : CfgStep s (t.cfg, t.dyn) := by
  unfold execColdRst at h
  split at h
  · exact .kept (nextDyn_frame h).1
  · split at h
    · exact nomatch h
    · refine .of_nextCfg ?_ h
      dsimp only
      split
      · exact .kept rfl
      · split
        · exact .kept rfl
        · exact .cleared rfl rfl

theorem execColdRstRelease_cfg {pkg : Fin 8} {s t : State} (h : execColdRstRelease pkg s = .next t) : CfgStep s (t.cfg, t.dyn) := by
  refine .of_nextCfg ?_ h
  dsimp only
  split
  · exact .kept rfl
  · split
    · exact .kept rfl
    · exact .cleared rfl (rd_romStart_stage _ _)

theorem execPowerLoss_cfg {s t : State} (h : execPowerLoss s = .next t) : CfgStep s (t.cfg, t.dyn) := by
  refine .of_nextCfg ?_ h
  dsimp only
  split
  · exact .kept rfl
  · exact .cleared rfl rfl

theorem execSensorRead_cfg {temps aon : List (Fin 256)} {vin iin : Fin 65536} {s t : State}
    (h : execSensorRead temps aon vin iin s = .next t) : CfgStep s (t.cfg, t.dyn) := by
  refine .of_nextCfg ?_ h
  dsimp only
  split
  · exact .kept rfl
  · split
    · exact .kept rfl
    · split
      · exact .cleared rfl rfl
      · exact .kept rfl

/-- The one lemma on commands and configuration: each of the commands in `writesCfg` has its own, and all others leave it (R4). -/
theorem exec_cfgStep {c : Instr} {s t : State} (h : exec c s = .next t) : CfgStep s (t.cfg, t.dyn) := by
  by_cases hc : writesCfg c = false
  · exact .kept (exec_keeps_cfg hc h)
  · cases c
    case powerOn => exact execPowerOn_cfg h
    case recoveryImageTransfer => exact execRecoveryImageTransfer_cfg h
    case registerRecords => exact execRegisterRecords_cfg h
    case amendmentReplay => exact execAmendmentReplay_cfg h
    case amendmentApply => exact execAmendmentApply_cfg h
    case dieFwReload => exact execDieFwReload_cfg h
    case coldRst => exact execColdRst_cfg h
    case coldRstRelease => exact execColdRstRelease_cfg h
    case powerLoss => exact execPowerLoss_cfg h
    case sensorRead => exact execSensorRead_cfg h
    all_goals exact absurd rfl hc

/-- A step runs a command or idles, and either way is one of the four outcomes. -/
theorem step_cfgStep {s t : State} (h : step s = .next t) : CfgStep s (t.cfg, t.dyn) := by
  unfold step at h
  split at h
  · cases h; exact .kept rfl
  · cases exec_cfgStep h with
    | kept hcfg => exact .kept hcfg
    | cleared hcfg hstage => exact .cleared hcfg hstage
    | started hstage hcfg => exact .started hstage hcfg
    | amended hcfg => exact .amended hcfg

/-- Settles O41: a command outside `writesCfg` is built with `nextDyn`. -/
theorem configurationChangesOnlyAtStartOrByAVerifiedChange : Obligations.ConfigurationChangesOnlyAtStartOrByAVerifiedChange := by
  unfold Obligations.ConfigurationChangesOnlyAtStartOrByAVerifiedChange
  intro c s t hc h
  exact exec_keeps_cfg hc h

/-- Settles O42: of the four things a step can do, only the writes of an amendment join two ready states, and they leave RWL fields. -/
theorem lockedFieldsKeepTheirValueOnceReady : Obligations.LockedFieldsKeepTheirValueOnceReady := by
  unfold Obligations.LockedFieldsKeepTheirValueOnceReady
  intro s t hs h ht f i hf
  exact (step_cfgStep h).keeps_rwl hs (by simpa [ready] using ht) hf i

/-- Settles O43: each of the four things a step can do keeps the form. -/
theorem configurationKeepsItsForm : Obligations.ConfigurationKeepsItsForm := by
  unfold Obligations.ConfigurationKeepsItsForm
  intro s t hs h
  exact (step_cfgStep h).keeps_form hs

end Machine
end Sys2Proof
end

section
/-! PROOFS. Single CSR accesses and steps (R6, R10, R11, R510): O4, O39 and O52. -/


namespace Sys2Proof
namespace Machine

section

variable {g : Cfg} {d : Dyn} {p : Path} {addr : Nat}

/-- An access that need not wait, or lies above the map, runs at once. -/
theorem wordAccess_now (h : accessWaits g d addr = false ∨ 0x4FFFFFFF < addr) (size : Nat) (v : Option Nat) :
    wordAccess g p addr size v d = wordRun g p addr size v d := by
  unfold wordAccess
  rw [if_neg]
  rcases h with h | h
  · simp [h]
  · simp only [Bool.and_eq_true, decide_eq_true_eq]; omega

/-- An access inside the map that has to wait is held. -/
theorem wordAccess_held (h : accessWaits g d addr = true) (ha : addr ≤ 0x4FFFFFFF) (size : Nat) (v : Option Nat) :
    wordAccess g p addr size v d = holdCmd g p (.word addr size v) d := by
  simp [wordAccess, h, ha]

/-- A write by a path that may make it. -/
theorem wordRun_write (h : mayWrite g d p addr = true) (size v : Nat) :
    wordRun g p addr size (some v) d = csrWrite g p addr size v d := by
  simp [wordRun, h]

/-- A read by a path that may make it sends the path the word read. -/
theorem wordRun_read (h : mayRead g d p = true) (size : Nat) :
    wordRun g p addr size none d =
      emit (.csrData p [(csrRead g p false addr size d).1]) (csrRead g p false addr size d).2 := by
  simp [wordRun, h]

/-- Through the package's window an access waits for a handover or failover alone (R10). -/
theorem accessWaits_packageWindow (h : d.mgmt.moving = false) (off : Nat) : accessWaits g d (0x40000000 + off) = false := by
  simp [accessWaits, h]

theorem csrRead_outside {size : Nat} (h : size ≠ 4 ∨ addr % 4 ≠ 0 ∨ 0x4FFFFFFF < addr) (peek : Bool) :
    csrRead g p peek addr size d = (0xFFFFFFFF, d) := if_pos h

theorem csrWrite_outside {size : Nat} (h : size ≠ 4 ∨ addr % 4 ≠ 0 ∨ 0x4FFFFFFF < addr) (v : Nat) :
    csrWrite g p addr size v d = d := if_pos h

end

/-- A command that reads a word sends it and leaves what the read leaves. -/
theorem nextDyn_read {s : State} {p : Path} {a : Nat} (hnow : accessWaits s.cfg s.dyn a = false ∨ 0x4FFFFFFF < a)
    (hp : mayRead s.cfg s.dyn p = true) (n : Nat) :
    nextDyn s (fun g d => wordAccess g p a n none d) = .next (s.setDyn
      (emit (.csrData p [(csrRead s.cfg p false a n s.dyn).1]) (csrRead s.cfg p false a n s.dyn).2)) := by
  rw [nextDyn_eq, wordAccess_now hnow, wordRun_read hp]; rfl

/-- A command that writes a word applies it. -/
theorem nextDyn_write {s : State} {p : Path} {a : Nat} (hnow : accessWaits s.cfg s.dyn a = false ∨ 0x4FFFFFFF < a)
    (hp : mayWrite s.cfg s.dyn p a = true) (n v : Nat) :
    nextDyn s (fun g d => wordAccess g p a n (some v) d) = .next (s.setDyn (csrWrite s.cfg p a n v s.dyn)) := by
  rw [nextDyn_eq, wordAccess_now hnow, wordRun_write hp]; rfl

/-- A command whose access has to wait puts it into the lead's queue. -/
theorem nextDyn_held {s : State} {a : Nat} (hw : accessWaits s.cfg s.dyn a = true) (ha : a ≤ 0x4FFFFFFF) (p : Path) (n : Nat)
    (v : Option Nat) :
    nextDyn s (fun g d => wordAccess g p a n v d) = .next (s.setDyn (holdCmd s.cfg p (.word a n v) s.dyn)) := by
  rw [nextDyn_eq, wordAccess_held hw ha]; rfl

/-- Settles O4: each command is a read or a write of one word, at once or held. -/
theorem csrAccessCommandsComplete : Obligations.CsrAccessCommandsComplete := by
  unfold Obligations.CsrAccessCommandsComplete
  exact ⟨fun _ _ _ n v hw hp => nextDyn_write (.inl hw) hp n v.toNat,
    fun _ p _ n v hw ha => nextDyn_held hw ha p n (some v.toNat),
    fun _ _ _ n hw hp => ⟨nextDyn_read (.inl hw) hp n, nextDyn_read (.inl hw) hp n⟩,
    fun _ _ _ n hm hp => nextDyn_read (.inl (accessWaits_packageWindow hm _)) hp n,
    fun _ _ _ n v hm hp => nextDyn_write (.inl (accessWaits_packageWindow hm _)) hp n v.toNat,
    fun _ _ _ _ hw hp => nextDyn_read (.inl hw) hp 4, fun _ _ _ _ hw hp => nextDyn_read (.inl hw) hp 4⟩

/-- Settles O52: outside the map `csrRead` and `csrWrite` end in their first branch, and the access runs at once. -/
theorem accessesOutsideTheMapHaveNoEffect : Obligations.AccessesOutsideTheMapHaveNoEffect := by
  unfold Obligations.AccessesOutsideTheMapHaveNoEffect
  intro s p a n v hout
  have hread (hnow : accessWaits s.cfg s.dyn a = false ∨ 0x4FFFFFFF < a) (hp : mayRead s.cfg s.dyn p = true) :
      nextDyn s (fun g d => wordAccess g p a n none d) = .next (s.setDyn (emit (.csrData p [0xFFFFFFFF]) s.dyn)) := by
    rw [nextDyn_read hnow hp, csrRead_outside hout]
  refine ⟨fun peek => csrRead_outside hout peek, csrWrite_outside hout _, fun hnow hp => ?_,
    fun hnow hp => ⟨hread hnow hp, hread hnow hp⟩⟩
  have hwrite := nextDyn_write hnow hp n v.toNat
  rwa [csrWrite_outside hout] at hwrite

/-- Settles O39, by the two branches of `step`. -/
theorem stepRunsTheFrontCommand : Obligations.StepRunsTheFrontCommand := by
  unfold Obligations.StepRunsTheFrontCommand
  exact ⟨fun _ _ _ _ => rfl, fun _ _ => rfl⟩

end Machine
end Sys2Proof
end

section
/-! PROOFS. The lead's event queue (R9, R492): O45. -/


namespace Sys2Proof
namespace Machine

/-- Events in timestamp order. -/
def evSorted (l : List Ev) : Prop := l.Pairwise fun a b => a.ts ≤ b.ts

/-- Inserting adds the event and nothing else. -/
theorem evInsert_perm (e : Ev) (l : List Ev) : (evInsert e l).Perm (e :: l) := by
  induction l with
  | nil => exact .refl _
  | cons x t ih =>
    simp only [evInsert]
    split
    · exact .refl _
    · exact (ih.cons x).trans (.swap e x t)

/-- Inserting keeps timestamp order. -/
theorem evInsert_sorted (e : Ev) {l : List Ev} (h : evSorted l) : evSorted (evInsert e l) := by
  induction l with
  | nil => exact List.pairwise_singleton _ _
  | cons x t ih =>
    obtain ⟨hx, ht⟩ := List.pairwise_cons.mp h
    simp only [evInsert]
    split
    next hlt =>
      refine List.pairwise_cons.mpr ⟨fun y hy => ?_, h⟩
      rcases List.mem_cons.mp hy with rfl | hy
      · omega
      · have := hx y hy; omega
    next hge =>
      refine List.pairwise_cons.mpr ⟨fun y hy => ?_, ih ht⟩
      rcases List.mem_cons.mp ((evInsert_perm e t).mem_iff.mp hy) with rfl | hy
      · omega
      · exact hx y hy

/-- With room in the queue the event is inserted, and nothing is lost. -/
theorem raise_room {d : Dyn} (h : d.ev.length < 1024) (code die : Nat) (args : List Nat) :
    raise code die args d = { d with ev := evInsert ⟨dieTs d die, code, die, args⟩ d.ev } := by
  simp only [raise, h, if_true]

/-- A full queue loses its oldest event to the new one; within 1 s of the last event 0x0C0C the loss is only counted. -/
theorem raise_full_told {d : Dyn} (h : d.ev.length = 1024) (ht : d.now < d.hlth.lossAt) (code die : Nat) (args : List Nat) :
    raise code die args d =
      bump .hlthElogDropCount 0 1 { d with ev := evInsert ⟨dieTs d die, code, die, args⟩ (d.ev.drop 1) } := by
  simp [raise, h, ht]

/-- Else event 0x0C0C tells of the loss, and takes the place of another record. -/
theorem raise_full_tell {d : Dyn} (h : d.ev.length = 1024) (ht : d.hlth.lossAt ≤ d.now) (code die : Nat) (args : List Nat) :
    raise code die args d = bump .hlthElogDropCount 0 1 { bump .hlthElogDropCount 0 1 d with
      ev := evInsert ⟨dieTs d die, 0x0C0C, die, []⟩ ((evInsert ⟨dieTs d die, code, die, args⟩ (d.ev.drop 1)).drop 1)
      hlth := { d.hlth with lossAt := d.now + 1000000000 } } := by
  simp only [raise, h, Nat.lt_irrefl, if_false, bump_now, bump_hlth, bump_ev, Nat.not_lt.mpr ht]
  rfl

/-- Raising an event keeps the queue in timestamp order. -/
theorem raise_sorted (code die : Nat) (args : List Nat) {d : Dyn} (hlen : d.ev.length ≤ 1024) (hs : evSorted d.ev) :
    evSorted (raise code die args d).ev := by
  rcases Nat.lt_or_eq_of_le hlen with hroom | hfull
  · rw [raise_room hroom]
    exact evInsert_sorted _ hs
  · have hnew : evSorted (evInsert ⟨dieTs d die, code, die, args⟩ (d.ev.drop 1)) := evInsert_sorted _ hs.drop
    rcases Nat.lt_or_ge d.now d.hlth.lossAt with ht | ht
    · rw [raise_full_told hfull ht]
      exact hnew
    · rw [raise_full_tell hfull ht]
      exact evInsert_sorted _ hnew.drop

/-- Settles O45: the queue before is full or has room, and a full one tells of the loss or does not. -/
theorem eventsEnterInTimestampOrder : Obligations.EventsEnterInTimestampOrder := by
  unfold Obligations.EventsEnterInTimestampOrder
  intro code die args d hlen hs
  refine ⟨raise_ev_le d code die args hlen, raise_sorted code die args hlen hs, fun hroom => ?_, fun hfull ht => ?_,
    fun hfull ht => ?_⟩
  · rw [raise_room hroom]
    exact ⟨evInsert_perm _ _, rfl⟩
  · rw [raise_full_told hfull ht]
    exact ⟨evInsert_perm _ _, rd_bump_same _ _ _ _⟩
  · rw [raise_full_tell hfull ht]
    refine ⟨(evInsert_perm _ _).mem_iff.mpr (List.mem_cons_self ..), rfl, ?_⟩
    rw [rd_bump_same, rd_mk, rd_bump_same]

end Machine
end Sys2Proof
end

section
/-! PROOFS. The reset state and the commands of leadership and the event log (R10, R27, R488 to R492): O36 and O44. -/


namespace Sys2Proof
namespace Machine

/-- Settles O44: both register arrays list nothing at reset, and the rest is read off the reset state. -/
theorem resetState : Obligations.ResetState := by
  unfold Obligations.ResetState
  exact ⟨fun f i => aget_arrEmpty (cfgReset f i) (cKey f i), fun f i => aget_arrEmpty (stsReset f i) (sKey f i), cfgForm_arrEmpty,
    rfl, rfl, rfl, rfl, rfl, rfl, rfl, rfl, rfl, rfl, rfl, rfl, rfl, rfl⟩

/-! ## Leadership and the event log -/

theorem execHeartbeat_done {s : State} {k : Nat} (fresh : Bool) (ans : List Die) {d e : Dyn} (hlead : leadDie s.dyn = some k)
    (hw : s.dyn.hlth.withdrawn.contains k = false) (hdown : s.dyn.hlth.down.contains k = false)
    (hd : d = emit (.heartbeat k true) { s.dyn with hlth := { s.dyn.hlth with hbWord := s.dyn.now } })
    (he : e = if fresh then { d with hlth := { d.hlth with hbLead := d.now } } else d) :
    execHeartbeat fresh ans s = .next (s.setDyn (if ans.any fun j => j.val != k && !e.hlth.down.contains j.val then
      { e with hlth := { e.hlth with hbAns := e.now } } else e)) := by
  subst hd
  subst he
  simp only [execHeartbeat, nextDyn_eq, hlead, hw, hdown, Bool.or_self, Bool.false_eq_true, if_false]
  rfl

theorem execLeadWithdraw_done {s : State} {k : Nat} (hlead : leadDie s.dyn = some k)
    (hw : s.dyn.hlth.withdrawn.contains k = false) (hstage : rd s.dyn .secBootStsStage 0 = 8)
    (hlate : s.dyn.hlth.hbLead + 500000 ≤ s.dyn.now ∨ s.dyn.hlth.hbAns + 500000 ≤ s.dyn.now) :
    execLeadWithdraw s = .next (s.setDyn (withdraw k s.dyn)) := by
  simp only [execLeadWithdraw, nextDyn_eq, hlead, hw, hstage, bne_self_eq_false, Bool.or_self, Bool.false_eq_true, if_false, hlate, if_true]
  rfl

theorem execLeadFailover_done {s : State} {k n : Nat} {agree : Die} {sb : Option Nat} (hlead : leadDie s.dyn = some k)
    (hstage : rd s.dyn .secBootStsStage 0 = 8) (hlate : s.dyn.hlth.hbWord + 1000000 ≤ s.dyn.now)
    (hsb : sb = (standbyDie (withdraw k s.dyn)).filter fun j => dieHealthy (withdraw k s.dyn) j)
    (hnew : (if sb.isSome then sb else nextHealthy (withdraw k s.dyn) k) = some n) (hk : agree.val ≠ k) (hn : agree.val ≠ n)
    (hagree : dieHealthy (withdraw k s.dyn) agree = true) :
    execLeadFailover agree s =
      .next (s.setDyn (heldRun s.cfg (fwDies (takeOver s.cfg k n sb.isNone (withdraw k s.dyn))))) := by
  subst hsb
  simp only [execLeadFailover, nextDyn_eq, hlead, hstage, ne_eq, not_true_eq_false, Nat.not_lt.mpr hlate, or_self, if_false, hnew, hk, hn,
    hagree, Bool.not_true, Bool.false_eq_true]
  rfl

theorem execMgmtReload_done {s : State} {k : Die}
    (hgone : s.dyn.hlth.down.contains k.val = true ∨ s.dyn.hlth.withdrawn.contains k.val = true)
    (hreg : regFail s.dyn (2 * k.val) = false) (hflash : (flashSource s.dyn).isNone = false) (hlead : leadDie s.dyn ≠ some k.val) :
    execMgmtReload k s = .next (s.setDyn (match leadDie (mgmtBack k s.dyn), standbyDie (mgmtBack k s.dyn) with
      | some l, none => setStandby s.cfg l (mgmtBack k s.dyn)
      | _, _ => mgmtBack k s.dyn)) := by
  have hgone' : (s.dyn.hlth.down.contains k.val || s.dyn.hlth.withdrawn.contains k.val) = true := (Bool.or_eq_true _ _).mpr hgone
  simp only [execMgmtReload, nextDyn_eq, hgone', hreg, hflash, beq_eq_false_iff_ne.mpr hlead, Bool.not_true, Bool.or_self,
    Bool.false_eq_true, if_false]
  rfl

/-- Settles O36: each command runs to the branch that its premises select. -/
theorem leadAndEventLogCommandsComplete : Obligations.LeadAndEventLogCommandsComplete := by
  unfold Obligations.LeadAndEventLogCommandsComplete
  refine ⟨fun s fresh ans k d e hlead hw hdown hd he => execHeartbeat_done fresh ans hlead hw hdown hd he,
    fun s k hlead hw hstage hlate => execLeadWithdraw_done hlead hw hstage hlate,
    fun s k n agree sb hlead hstage hlate hsb hnew hk hn hagree =>
      execLeadFailover_done hlead hstage hlate hsb hnew hk hn hagree,
    fun s k d hgone hreg hflash hlead hd => ?_, fun s d hd => ?_⟩
  · subst hd
    have hexec : exec (.mgmtReload k) s = _ := execMgmtReload_done hgone hreg hflash hlead
    refine ⟨fun l hl hsb => ?_, fun hsb => ?_⟩
    · rw [hexec, hl, hsb]
    · obtain ⟨x, hx⟩ := Option.isSome_iff_exists.mp hsb
      rw [hexec, hx]
      cases leadDie (mgmtBack k s.dyn) <;> rfl
  · subst hd
    refine ⟨fun hev => ?_, fun e t hev htok hlead => ?_⟩
    · show execEventLogWrite s = _
      simp only [execEventLogWrite, nextDyn_eq, hev]
      rfl
    · show execEventLogWrite s = _
      obtain ⟨l, hl⟩ := Option.isSome_iff_exists.mp hlead
      simp only [execEventLogWrite, nextDyn_eq, hev, htok, hl, Option.isNone_some, Bool.false_eq_true, or_self, if_false]
      rfl

end Machine
end Sys2Proof
end

section
/-! PROOFS. A die's copy of the package timestamp at a tick (R34, R35): O47. -/

namespace Sys2Proof
namespace Machine

section

variable {c m n : Nat}

/-- A copy never moves backward. -/
theorem le_copyAt (c m n : Nat) : c ≤ copyAt c m n := le_max_left ..

/-- The corrected copy is never below the master. -/
theorem master_le_copyAt (c m n : Nat) : m ≤ copyAt c m n := (le_max_left ..).trans (le_max_right ..)

/-- The correction itself takes a copy no further than 8 ns past the master. -/
theorem copyAt_le_max (c m n : Nat) : copyAt c m n ≤ max c (m + 8) := by
  unfold copyAt; omega

/-- A copy that is 8 ns ahead or more holds. -/
theorem copyAt_far_ahead (h : m + 8 ≤ c) (n : Nat) : copyAt c m n = c :=
  Nat.le_antisymm ((copyAt_le_max c m n).trans (by omega)) (le_copyAt c m n)

/-- A die whose clock gives no more than the master's 40 ns moves its copy to the master, unless the copy is ahead of it. -/
theorem copyAt_slow (hm : 40 ≤ m) (hn : n ≤ 20) (c : Nat) : copyAt c m n = max c m := by
  unfold copyAt; omega

/-- A copy that is at most 8 ns ahead stays so. -/
theorem copyAt_near (h : c ≤ m + 8) (n : Nat) : copyAt c m n ≤ m + 8 :=
  (copyAt_le_max c m n).trans (by omega)

end

/-- Settles O47, from the two bounds of the correction below and the one above. -/
theorem timestampCopiesFollowTheMaster : Obligations.TimestampCopiesFollowTheMaster := by
  unfold Obligations.TimestampCopiesFollowTheMaster
  intro c m n
  refine ⟨le_copyAt c m n, master_le_copyAt c m n, fun h => copyAt_far_ahead h n, fun h hm hn => ?_, fun h hm hn => ?_,
    fun h => copyAt_near h n, fun k => le_copyAt _ _ k, fun h k => ⟨master_le_copyAt _ _ k, ?_⟩⟩
  · rw [copyAt_slow hm hn, max_eq_left h]
  · rw [copyAt_slow hm hn, max_eq_right h]
  · have hnear : copyAt c m n ≤ m + 40 + 8 := (copyAt_near h n).trans (by omega)
    exact copyAt_near hnear k

end Machine
end Sys2Proof
end

section
/-! PROOFS. Lead election (R27, R443, R444, R446): O54. -/

namespace Sys2Proof
namespace Machine

/-! ## The first index that passes a test -/

theorem firstFrom_eq_none {p : Nat → Bool} {k n : Nat} (h : ∀ i, k ≤ i → i < k + n → p i = false) : firstFrom p k n = none := by
  induction n generalizing k with
  | zero => rfl
  | succ n ih =>
    have hk : p k = false := h k (Nat.le_refl k) (by omega)
    simp only [firstFrom, hk, Bool.false_eq_true, if_false]
    exact ih fun i hi hn => h i (by omega) (by omega)

theorem firstFrom_eq_some {p : Nat → Bool} {k n j : Nat} (hk : k ≤ j) (hj : j < k + n) (hp : p j = true)
    (hlow : ∀ i, k ≤ i → i < j → p i = false) : firstFrom p k n = some j := by
  induction n generalizing k with
  | zero => omega
  | succ n ih =>
    rcases Nat.eq_or_lt_of_le hk with rfl | hlt
    · simp only [firstFrom, hp, if_true]
    · have hpk : p k = false := hlow k (Nat.le_refl k) hlt
      simp only [firstFrom, hpk, Bool.false_eq_true, if_false]
      exact ih hlt (by omega) fun i hi => hlow i (by omega)

/-! ## A loop in which one round writes what is read -/

/-- A reading that the round of `x` sets to `v`, and that no other element's round changes, is `v` after a loop over a list that holds
`x`, and after any loop if it was `v` before. -/
theorem forAll_writer {α σ β : Type} {r : σ → β} {l : List α} {f : α → σ → σ} {x : α} {v : β} (hset : ∀ d, r (f x d) = v)
    (hkeep : ∀ y ∈ l, y ≠ x → ∀ d, r (f y d) = r d) {s : σ} (h : x ∈ l ∨ r s = v) : r (forAll l f s) = v := by
  induction l generalizing s with
  | nil => exact h.resolve_left List.not_mem_nil
  | cons a t ih =>
    refine ih (fun y hy => hkeep y (List.mem_cons_of_mem a hy)) ?_
    by_cases hax : a = x
    · exact .inr (hax ▸ hset s)
    · rcases h with hx | hv
      · exact .inl ((List.mem_cons.mp hx).resolve_left fun e => hax e.symm)
      · exact .inr ((hkeep a (List.mem_cons_self ..) hax s).trans hv)

/-! ## What the check of the flashes shows (R443, R444) -/

/-- What the check of one flash, with its die's number, leaves. -/
def flashNote (x : FlashIn × Nat) (d : Dyn) : Dyn :=
  let d := put .nvmFlashStsPresent x.2 (b2n x.1.answers) (put .nvmFlashStsPass x.2 (b2n (flashPass x.1)) d)
  let d := if x.1.answers then put .nvmFlashStsLog2Mbit x.2 x.1.log2Mbit d else d
  putBit .secBootStsNvmOk 0 x.2 (flashPass x.1) d

/-- The check of the flashes is that of each, die by die. -/
theorem flashCheck_eq (d : Dyn) : flashCheck d = forAll (d.boot.flash.zipIdx.take 4) flashNote d := rfl

/-- A check of one flash writes what it shows and its bit of NVM_OK, and nothing else. -/
theorem rd_flashNote {f : SFld} (hpres : f ≠ .nvmFlashStsPresent) (hsize : f ≠ .nvmFlashStsLog2Mbit) (hok : f ≠ .secBootStsNvmOk)
    (x : FlashIn × Nat) (i : Nat) (d : Dyn) :
    rd (flashNote x d) f i = rd (put .nvmFlashStsPass x.2 (b2n (flashPass x.1)) d) f i := by
  simp only [flashNote, rd_putBit_fld hok]
  split
  · rw [rd_put_fld hsize, rd_put_fld hpres]
  · rw [rd_put_fld hpres]

theorem rd_flashNote_pass_same (x : FlashIn × Nat) (d : Dyn) :
    rd (flashNote x d) .nvmFlashStsPass x.2 = b2n (flashPass x.1) := by
  rw [rd_flashNote (by decide) (by decide) (by decide), rd_put_same]
  cases flashPass x.1 <;> rfl

theorem rd_flashNote_pass_ne {x : FlashIn × Nat} {i : Nat} (h : i ≠ x.2) (d : Dyn) :
    rd (flashNote x d) .nvmFlashStsPass i = rd d .nvmFlashStsPass i := by
  rw [rd_flashNote (by decide) (by decide) (by decide), rd_put_idx h]

theorem flashNote_alloc (x : FlashIn × Nat) (d : Dyn) : (flashNote x d).alloc = d.alloc := by
  simp only [flashNote]; split <;> rfl

theorem flashCheck_alloc (d : Dyn) : (flashCheck d).alloc = d.alloc :=
  forAll_keep (fun d => d.alloc) _ _ flashNote_alloc d

/-- A check of the flashes leaves every region as it was. -/
theorem regFail_flashCheck (d : Dyn) (r : Nat) : regFail (flashCheck d) r = regFail d r := by
  refine forAll_keep (fun d => regFail d r) _ flashNote (fun x d => ?_) d
  simp only [regFail]
  rw [rd_flashNote (by decide) (by decide) (by decide), rd_put_fld (by decide),
    rd_flashNote (by decide) (by decide) (by decide), rd_put_fld (by decide)]

/-- PASS of a die says whether its flash passed. -/
theorem rd_flashCheck_pass {d : Dyn} {fl : Fin 4 → FlashIn} (h : d.boot.flash = [fl 0, fl 1, fl 2, fl 3]) (k : Fin 4) :
    rd (flashCheck d) .nvmFlashStsPass k = b2n (flashPass (fl k)) := by
  have hlist : d.boot.flash.zipIdx.take 4 = (List.finRange 4).map fun j => (fl j, j.val) := by rw [h]; rfl
  rw [flashCheck_eq, hlist]
  have hmem : (fl k, k.val) ∈ (List.finRange 4).map fun j => (fl j, j.val) := List.mem_map.mpr ⟨k, List.mem_finRange k, rfl⟩
  refine forAll_writer (r := fun d => rd d .nvmFlashStsPass k) (rd_flashNote_pass_same (fl k, k.val)) (fun y hy hne => ?_)
    (.inl hmem)
  obtain ⟨j, -, rfl⟩ := List.mem_map.mp hy
  exact rd_flashNote_pass_ne fun hk => hne (by rw [Fin.ext hk])

section

variable {d : Dyn} {fl : Fin 4 → FlashIn}

/-- With every region working, a die serves as flash source after the check exactly when its flash passed. -/
theorem sourceTest_flashCheck (h : d.boot.flash = [fl 0, fl 1, fl 2, fl 3]) (hreg : ∀ r, r < 8 → regFail d r = false) (k : Fin 4) :
    (rd (flashCheck d) .nvmFlashStsPass k == 1 && !regFail (flashCheck d) (2 * k)) = flashPass (fl k) := by
  rw [rd_flashCheck_pass h, regFail_flashCheck, hreg _ (by omega)]
  cases flashPass (fl k) <;> rfl

/-- The flash source is the lowest die whose flash passed (R448). -/
theorem flashSource_flashCheck_some (h : d.boot.flash = [fl 0, fl 1, fl 2, fl 3]) (hreg : ∀ r, r < 8 → regFail d r = false)
    {k : Fin 4} (hk : flashPass (fl k) = true) (hlow : ∀ j, j < k → flashPass (fl j) = false) :
    flashSource (flashCheck d) = some k.val := by
  refine firstFrom_eq_some (Nat.zero_le _) (by omega) ((sourceTest_flashCheck h hreg k).trans hk) fun i _ hi => ?_
  exact (sourceTest_flashCheck h hreg ⟨i, by omega⟩).trans (hlow _ hi)

/-- With no flash that passed there is no source. -/
theorem flashSource_flashCheck_none (h : d.boot.flash = [fl 0, fl 1, fl 2, fl 3]) (hreg : ∀ r, r < 8 → regFail d r = false)
    (hnone : ∀ k, flashPass (fl k) = false) : flashSource (flashCheck d) = none :=
  firstFrom_eq_none fun i _ hi => (sourceTest_flashCheck h hreg ⟨i, by omega⟩).trans (hnone _)

end

/-! ## The LEAD bits and the standby (R26, R27) -/

/-- The LEAD bits name the die and no other. -/
theorem rd_setLead (k j : Fin 4) (d : Dyn) : rd (setLead k d) .dieDieIdLead j = if j = k then 1 else 0 := by
  refine forAll_writer (r := fun d => rd d .dieDieIdLead j) (x := j.val) (fun e => ?_) (fun i _ hi => rd_put_idx hi.symm _ _)
    (.inl (List.mem_range.mpr j.isLt))
  rw [rd_put_same]
  by_cases h : j = k
  · simp [h, b2n, stsWidth]
  · simp [h, Fin.val_inj, b2n]

theorem rd_setLead_fld {f : SFld} (h : f ≠ .dieDieIdLead) (k i : Nat) (d : Dyn) : rd (setLead k d) f i = rd d f i :=
  forAll_keep (fun d => rd d f i) _ _ (fun _ _ => rd_put_fld h _ _ _ _) d

theorem setLead_alloc (k : Nat) (d : Dyn) : (setLead k d).alloc = d.alloc :=
  forAll_keep (fun d => d.alloc) _ (fun j => put .dieDieIdLead j (b2n (j == k))) (fun _ _ => rfl) d

/-- With no record waiting there is none to let go. -/
theorem journalFlush_nil {d : Dyn} (h : d.alloc.journal = []) (g : Cfg) : journalFlush g d = d := by
  simp only [journalFlush, journalDrop, h, List.filter_nil, forAll_nil]

/-- The fields that the choice of a standby writes, and the loss counter of the event it may raise (R27, R220). -/
def standbyFlds : List SFld :=
  [.dieDieIdStandby, .allocMirStsMirrored, .allocMirStsSyncing, .allocMirStsStbyDie, .hlthElogDropCount]

/-- With no journal record waiting the choice of a standby leaves every other field as it was. -/
theorem rd_setStandby {f : SFld} (hf : f ∉ standbyFlds) {d : Dyn} (hj : d.alloc.journal = []) (g : Cfg) (lead i : Nat) :
    rd (setStandby g lead d) f i = rd d f i := by
  simp only [standbyFlds, List.mem_cons, List.not_mem_nil, or_false, not_or] at hf
  obtain ⟨hstby, hmir, hsync, hdie, hdrop⟩ := hf
  have hclear : rd (forAll (List.range 4) (fun k d => put .dieDieIdStandby k 0 d) d) f i = rd d f i :=
    forAll_keep (fun d => rd d f i) _ _ (fun _ _ => rd_put_fld hstby _ _ _ _) d
  have hjournal : (forAll (List.range 4) (fun k d => put .dieDieIdStandby k 0 d) d).alloc.journal = [] := by
    rw [forAll_keep (fun d : Dyn => d.alloc) _ (fun k => put .dieDieIdStandby k 0) (fun _ _ => rfl) d, hj]
  simp only [setStandby]
  split
  · rw [journalFlush_nil (by simpa only [put_alloc] using hjournal), rd_put_fld hsync, rd_put_fld hdie, rd_put_fld hstby,
      rd_put_fld hmir, rd_put_fld hsync, hclear]
  · rw [rd_raise hdrop, journalFlush_nil (by simpa only [put_alloc] using hjournal), rd_put_fld hdie, rd_put_fld hmir,
      rd_put_fld hsync, hclear]

/-! ## The election -/

/-- The standby set aside, an election writes the stage, LEAD0 and the LEAD bits. -/
theorem rd_electDie {f : SFld} (hf : f ∉ standbyFlds) {d : Dyn} (hj : d.alloc.journal = []) (g : Cfg) (k i : Nat) :
    rd (electDie g k d) f i = rd (setLead k (put .secBootStsLead0 0 k (put .secBootStsStage 0 2 d))) f i := by
  have hdrop : f ≠ .hlthElogDropCount := fun h => hf (h ▸ by decide)
  simp only [electDie]
  rw [rd_setStandby hf (by rw [raise_alloc, setLead_alloc, put_alloc, put_alloc, hj]), rd_raise hdrop]

section

variable {s : State} (hvin : s.dyn.elec.vin = true) (hreset : s.dyn.elec.reset = false) (htrip : s.dyn.elec.trip = false)
  (hstage : rd s.dyn .secBootStsStage 0 = 0)

include hvin hreset htrip hstage

/-- LEAD_ELECTION with a flash that passed: its die is elected (R444). -/
theorem execLeadElection_some {k : Nat} (hsrc : flashSource (flashCheck s.dyn) = some k) :
    exec .leadElection s = .next (s.setDyn (electDie s.cfg k (flashCheck s.dyn))) := by
  show execLeadElection s = _
  simp only [execLeadElection, nextDyn_eq, hvin, hreset, htrip, hstage, hsrc, Bool.not_true, Bool.or_self, Bool.false_eq_true, ne_eq,
    not_true_eq_false, decide_false, if_false]
  rfl

/-- LEAD_ELECTION with none: the package enters RECOVERY (R446). -/
theorem execLeadElection_none (hsrc : flashSource (flashCheck s.dyn) = none) :
    exec .leadElection s = .next (s.setDyn (recovery (flashCheck s.dyn))) := by
  show execLeadElection s = _
  simp only [execLeadElection, nextDyn_eq, hvin, hreset, htrip, hstage, hsrc, Bool.not_true, Bool.or_self, Bool.false_eq_true, ne_eq,
    not_true_eq_false, decide_false, if_false]
  rfl

end

/-- RECOVERY is stage 15. -/
theorem rd_recovery_stage (d : Dyn) : rd (recovery d) .secBootStsStage 0 = 15 := by
  rw [recovery, rd_raise (by decide), rd_put_same]; rfl

/-- Settles O54: the flash source after the check is the lowest die that passed, and the election writes its number. -/
theorem lowestPassingFlashLeads : Obligations.LowestPassingFlashLeads := by
  unfold Obligations.LowestPassingFlashLeads
  intro s fl hfl hvin hreset htrip hstage hreg hj
  have hj' : (flashCheck s.dyn).alloc.journal = [] := by rw [flashCheck_alloc, hj]
  refine ⟨fun k hk hlow => ?_, fun hnone => ?_⟩
  · refine ⟨_, execLeadElection_some hvin hreset htrip hstage (flashSource_flashCheck_some hfl hreg hk hlow), fun j => ?_, ?_, ?_⟩
    · exact (rd_electDie (by decide) hj' _ _ _).trans (rd_setLead k j _)
    · refine (rd_electDie (by decide) hj' _ _ _).trans ?_
      rw [rd_setLead_fld (by decide), rd_put_fld (by decide), rd_put_same]; rfl
    · refine (rd_electDie (by decide) hj' _ _ _).trans ?_
      rw [rd_setLead_fld (by decide), rd_put_same]
      exact Nat.mod_eq_of_lt k.isLt
  · exact ⟨_, execLeadElection_none hvin hreset htrip hstage (flashSource_flashCheck_none hfl hreg hnone), rd_recovery_stage _⟩

end Machine
end Sys2Proof
end

section
/-! PROOFS. Region clocks, time, cold reset, supply and sensors (R34 to R41, R528, R533, R534, R541, R542): O38. -/

namespace Sys2Proof
namespace Machine

/-! ## Region PLLs (R38 to R40) -/

theorem execPllUnlock_done {s : State} {r : Region} (hlock : rgnLock s.dyn r ≠ 0) (hreg : regFail s.dyn r = false) :
    execPllUnlock r s = .next (s.setDyn (setRelock r 1 (raise 0x0901 (r / 2) [r.val] (setRgnUnlock r (setRgnLock r 0 s.dyn))))) := by
  simp only [execPllUnlock, nextDyn_eq, hlock, hreg, Bool.false_eq_true, or_self, if_false]
  rfl

section

variable {s : State} {r : Region} (hrun : relockOf s.dyn r ≠ 0)

include hrun

/-- A re-lock that succeeds resumes the region. -/
theorem execRelockAttemptEnd_locked :
    execRelockAttemptEnd r true s = .next (s.setDyn (if r.val % 2 = 1 then
      xltDrain s.cfg (r / 2) (setRgnLock r 1 (setRelock r 0 s.dyn)) else setRgnLock r 1 (setRelock r 0 s.dyn))) := by
  simp only [execRelockAttemptEnd, nextDyn_eq, hrun, if_true, if_false]
  rfl

/-- A re-lock that fails is tried again, the third one fails the region. -/
theorem execRelockAttemptEnd_failed :
    execRelockAttemptEnd r false s = .next (s.setDyn (if relockOf s.dyn r < 3 then setRelock r (relockOf s.dyn r + 1) s.dyn
      else heldRun s.cfg (fwDies (regionFailed s.cfg r (raise 0x0902 (r / 2) [r.val] (setRelock r 0 s.dyn)))))) := by
  simp only [execRelockAttemptEnd, nextDyn_eq, hrun, Bool.false_eq_true, if_false]
  rfl

end

/-! ## Time (R34) -/

/-- The copies of the four dies after an edge of the AON clock, each corrected by its MGMT cycles since the last. -/
def copiesTicked (cyc : List (Fin 64)) (d : Dyn) : Dyn :=
  forAll (List.range 4) (fun k d => put .dieTstampNs k (copyAt (dieTs d k) d.now (((cyc[k]?).map fun x => x.val).getD 20)) d)
    { d with now := d.now + 40 }

theorem execTimestampTick_done {s : State} (cyc : List (Fin 64)) (hvin : s.dyn.elec.vin = true) (hreset : s.dyn.elec.reset = false)
    (htrip : s.dyn.elec.trip = false) :
    execTimestampTick cyc s = .next (s.setDyn (serveGrants s.cfg (planKick (tickCounts s.cfg (tickSlots (l0pLate
      (forAll (stsListed (copiesTicked cyc s.dyn) .gklLpbkCtlMode) (fun n d => lpbkCount n d) (copiesTicked cyc s.dyn)))))))) := by
  simp only [execTimestampTick, nextDyn_eq, hvin, hreset, htrip, Bool.not_true, Bool.or_self, Bool.false_eq_true, if_false]
  rfl

/-! ## Cold reset and supply (R528, R533, R534) -/

theorem execColdRst_short {low : Nat} (h : low < 100000) (s : State) : execColdRst low s = .next s := by
  simp only [execColdRst, h, if_true, nextDyn_eq]

theorem execColdRst_long {s : State} {low : Nat} (h : 1000000 ≤ low) (hreset : s.dyn.elec.reset = false)
    (htrip : s.dyn.elec.trip = false) (hvin : s.dyn.elec.vin = true) :
    execColdRst low s = .next ⟨arrEmpty,
      { carry (pinsDown s.cfg s.dyn) with elec := { (carry (pinsDown s.cfg s.dyn)).elec with reset := true } }, s.pending⟩ := by
  have hshort : ¬ low < 100000 := by omega
  simp only [execColdRst, hshort, Nat.not_lt.mpr h, nextCfg, hreset, htrip, hvin, Bool.false_and, Bool.or_self, Bool.not_true,
    Bool.false_eq_true, if_false]

theorem execColdRstRelease_done {s : State} (pkg : Fin 8) (hreset : s.dyn.elec.reset = true) (hvin : s.dyn.elec.vin = true) :
    execColdRstRelease pkg s = .next ⟨arrEmpty,
      romStart pkg { carry s.dyn with elec := { (carry s.dyn).elec with reset := false } }, s.pending⟩ := by
  simp only [execColdRstRelease, nextCfg, hreset, hvin, Bool.not_true, Bool.false_eq_true, if_false]

theorem execPowerLoss_done {s : State} (hvin : s.dyn.elec.vin = true) (htrip : s.dyn.elec.trip = false) :
    execPowerLoss s = .next ⟨arrEmpty,
      { carry s.dyn with elec := { (carry s.dyn).elec with vin := false, trip := false, warn := [] } }, s.pending⟩ := by
  simp only [execPowerLoss, nextCfg, hvin, htrip, Bool.false_and, Bool.or_self, Bool.not_true, Bool.false_eq_true, if_false]

/-! ## Temperature (R541, R542) -/

section

variable {s : State} {t aon : List (Fin 256)} {vin iin : Fin 65536} {d : Dyn} (hvin : s.dyn.elec.vin = true)
  (htrip : s.dyn.elec.trip = false) (hd : d = sensorsIn s.cfg t vin iin (aonNote aon s.dyn))

include hvin htrip hd

/-- Without a sensor that is hot a second time the hot ones are noted. -/
theorem execSensorRead_noted (hhot : ((hotSensors t).any fun i => d.elec.hot.contains i) = false) :
    execSensorRead t aon vin iin s = .next (s.setDyn { d with elec := { d.elec with hot := hotSensors t } }) := by
  subst hd
  simp only [execSensorRead, nextCfg, hvin, htrip, hhot, Bool.not_true, Bool.false_eq_true, if_false]
  rfl

/-- With one the package trips and loses what is volatile. -/
theorem execSensorRead_trips {f : Dyn} (hhot : ((hotSensors t).any fun i => d.elec.hot.contains i) = true)
    (hf : f = carry (emit (.pin (.thermtrip true)) (pinsDown s.cfg d))) :
    execSensorRead t aon vin iin s = .next ⟨arrEmpty, { f with elec := { f.elec with trip := true } }, s.pending⟩ := by
  subst hf hd
  simp only [execSensorRead, nextCfg, hvin, htrip, hhot, Bool.not_true, Bool.false_eq_true, if_false, if_true]

end

/-- Settles O38: the state of the supply, of COLD_RST# and of the thermal latch selects the branch that each command runs to. -/
theorem clockResetAndSupplyCommandsComplete : Obligations.ClockResetAndSupplyCommandsComplete := by
  unfold Obligations.ClockResetAndSupplyCommandsComplete
  refine ⟨fun s r hlock hreg => execPllUnlock_done hlock hreg, fun s r n hn hrun => ?_, fun s cyc d hvin hreset htrip hd => ?_,
    fun s hvin hreset htrip hstage => ⟨execLeadElection_none hvin hreset htrip hstage,
      fun k => execLeadElection_some hvin hreset htrip hstage⟩,
    fun s low hlow => execColdRst_short hlow s, fun s low hlow hreset htrip hvin => execColdRst_long hlow hreset htrip hvin,
    fun s pkg hreset hvin => execColdRstRelease_done pkg hreset hvin, fun s hvin htrip => execPowerLoss_done hvin htrip,
    fun s t aon vin iin d f hvin htrip hd hf =>
      ⟨execSensorRead_noted hvin htrip hd, fun hhot => execSensorRead_trips hvin htrip hd hhot hf⟩⟩
  · subst hn
    exact ⟨execRelockAttemptEnd_locked hrun, execRelockAttemptEnd_failed hrun⟩
  · subst hd
    exact execTimestampTick_done cyc hvin hreset htrip

end Machine
end Sys2Proof
end

section
/-! PROOFS. Federation of packages (R30, R395, R397 to R399): O19. -/

namespace Sys2Proof
namespace Machine

/-! ## HELLO (R397) -/

section

variable {s : State} {die : Die} {pkg : Fin 8} {sysid : Word} {fresh : Bool} {vcs : List Host} {d : Dyn}
  (hlink : lnkSt s.dyn (9 * die + 8) = 3)

include hlink

/-- HELLO of a package that is a member of the federation already. -/
theorem execHello_known (hsys : sysid.toNat = cg s.cfg .gklSysIdSystemId 0) (hknown : s.dyn.sys.joined.contains pkg.val = true)
    (hd : d = put .gklSysStsFresh 0 0 (putBit .gklSysStsLost 0 pkg false s.dyn)) :
    execHello die pkg sysid true fresh vcs s = .next (s.setDyn (gklPump (9 * die + 8) (helloSet die 1
      (sysSettle s.cfg (if bitAt (members s.cfg) pkg then pkgReach pkg d else d))))) := by
  subst hd
  simp only [execHello, nextDyn_eq, hlink, hsys, hknown, ne_eq, not_true_eq_false, or_true, and_self, if_true, if_false]
  rfl

/-- HELLO of a package that is FRESH and new here: it joins, with its VCS numbers. -/
theorem execHello_new {v : Dyn} (hsys : sysid.toNat = cg s.cfg .gklSysIdSystemId 0)
    (hnew : s.dyn.sys.joined.contains pkg.val = false) (hv : v = vcsTaken s.cfg pkg vcs s.dyn)
    (hd : d = put .gklSysStsFresh 0 0 (putBit .gklSysStsLost 0 pkg false
      { v with sys := { v.sys with joined := v.sys.joined ++ [pkg.val] } })) :
    execHello die pkg sysid true true vcs s = .next (s.setDyn (gklPump (9 * die + 8) (helloSet die 1 (sysSettle s.cfg
      (if bitAt (members s.cfg) pkg then pkgReach pkg (raise 0x0816 (leadOr0 d) [pkg] d) else raise 0x0816 (leadOr0 d) [pkg] d))))) := by
  subst hd hv
  simp only [execHello, nextDyn_eq, hlink, hsys, hnew, ne_eq, not_true_eq_false, Bool.false_eq_true, or_false, and_self, if_true, if_false]
  rfl

/-- HELLO of another system, with a digest that fails, or of a package that is neither FRESH nor a member. -/
theorem execHello_refused {digestOk : Bool}
    (hbad : sysid.toNat ≠ cg s.cfg .gklSysIdSystemId 0 ∨ digestOk = false ∨ fresh = false ∧ s.dyn.sys.joined.contains pkg.val = false) :
    execHello die pkg sysid digestOk fresh vcs s =
      .next (s.setDyn (helloRefuse s.cfg die (raise 0x081B (leadOr0 s.dyn) [die] s.dyn))) := by
  have hno : ¬ (sysid.toNat = cg s.cfg .gklSysIdSystemId 0 ∧ digestOk = true ∧
      (fresh = true ∨ s.dyn.sys.joined.contains pkg.val = true)) := by
    rintro ⟨hsys, hdig, hin⟩
    rcases hbad with h | h | ⟨hf, hj⟩
    · exact h hsys
    · exact absurd (hdig.symm.trans h) (by decide)
    · rcases hin with h | h
      · exact absurd (h.symm.trans hf) (by decide)
      · exact absurd (h.symm.trans hj) (by decide)
  simp only [execHello, nextDyn_eq, hlink, ne_eq, not_true_eq_false, hno, if_false]
  rfl

end

/-! ## BEAT and the loss of a package (R398, R399) -/

theorem execBeat_sent {s : State} {d : Dyn} (hlead : (leadDie s.dyn).isSome = true) (hdue : s.dyn.sys.sentAt + 100000 ≤ s.dyn.now)
    (hd : d = { s.dyn with sys := { s.dyn.sys with sentAt := s.dyn.now } }) :
    execBeat none s = .next (s.setDyn (forAll ((List.range 8).filter fun p => bitAt (members s.cfg) p && p != ownPkg d &&
      cg s.cfg .gklSysRouteV p == 1 && rd d .gklSysRouteBad p == 0)
      (fun p d => sysSay (cg s.cfg .gklSysRouteExitDie p) p 2 [ownPkg d] d) d)) := by
  subst hd
  simp only [execBeat, nextDyn_eq, hlead, hdue, and_self, if_true]
  rfl

theorem execBeat_heard {s : State} {p : Fin 8} (hother : p.val ≠ ownPkg s.dyn) (hmem : bitAt (members s.cfg) p = true)
    (hlost : bitAt (rd s.dyn .gklSysStsLost 0) p = false) :
    execBeat (some p) s = .next (s.setDyn (sysSettle s.cfg (pkgReach p s.dyn))) := by
  simp only [execBeat, nextDyn_eq, hother, hmem, hlost, Bool.not_true, Bool.false_eq_true, or_self, if_false]
  rfl

theorem execPkgLost_done {s : State} {pkg : Fin 8} {d : Dyn} (hosts : List Host) (hother : pkg.val ≠ ownPkg s.dyn)
    (hreach : bitAt (rd s.dyn .gklSysStsReach 0) pkg = true) (hsilent : aget 0 s.dyn.sys.beatAt pkg + 1000000 ≤ s.dyn.now)
    (hd : d = putBit .gklSysStsLost 0 pkg true (putBit .gklSysStsReach 0 pkg false s.dyn)) :
    execPkgLost pkg hosts s = .next (s.setDyn (peerGone s.cfg pkg (sysSettle s.cfg (remoteLost pkg (homesLost s.cfg pkg
      (forAll hosts (fun h d => hostFail s.cfg h d) (raise 0x0819 (leadOr0 d) [pkg]
        { d with sys := { d.sys with joined := dropOne pkg.val d.sys.joined } }))))))) := by
  subst hd
  simp only [execPkgLost, nextDyn_eq, hother, hreach, Nat.not_lt.mpr hsilent, Bool.not_true, Bool.false_eq_true, or_self, if_false]
  rfl

/-- Settles O19: HELLO joins or refuses, BEAT goes or is heard, and a package silent for 1 ms is lost. -/
theorem federationCommandsComplete : Obligations.FederationCommandsComplete := by
  unfold Obligations.FederationCommandsComplete
  exact ⟨fun s die pkg sysid fresh vcs d hlink hsys hknown hd => execHello_known hlink hsys hknown hd,
    fun s die pkg sysid vcs d v hlink hsys hnew hv hd => execHello_new hlink hsys hnew hv hd,
    fun s die pkg sysid digestOk fresh vcs hlink hbad => execHello_refused hlink hbad,
    fun s d hlead hdue hd => execBeat_sent hlead hdue hd, fun s p hother hmem hlost => execBeat_heard hother hmem hlost,
    fun s pkg hosts d hother hreach hsilent hd => execPkgLost_done hosts hother hreach hsilent hd⟩

end Machine
end Sys2Proof
end

section
/-! PROOFS. Control words in error, sparing and the arbiter's commands (R31, R478 to R486): O34. -/

namespace Sys2Proof
namespace Machine

/-! ## Control words (R478, R479) -/

theorem execM2sRequest_done (hits : List EccHit) (r : Req) (s : State) :
    execM2sRequest hits r s = .next (s.setDyn (arrive s.cfg r (forAll hits (eccHit s.cfg) s.dyn))) := by
  rw [execM2sRequest, nextDyn_eq]; rfl

theorem execControlWordRewrite_done {s : State} {x : EccHit} {d e : Dyn} (hfix : s.dyn.hlth.fixes.contains x = true)
    (hlead : (leadDie s.dyn).isSome = true)
    (hd : d = { s.dyn with
      hlth := { s.dyn.hlth with fixes := s.dyn.hlth.fixes.filter fun y => y != x }
      noc := { s.dyn.noc with
        badWord := s.dyn.noc.badWord.filter fun y => !(x.kind == .routeWord && y == (x.inst, x.index)) } })
    (he : e = { d with hlth := { d.hlth with gateWait := d.hlth.gateWait.filter fun r => lpDie r.lport != x.inst } }) :
    execControlWordRewrite x s = .next (s.setDyn (if x.kind == .gateRule && !ruleInError d x.inst then
      forAll (d.hlth.gateWait.filter fun r => lpDie r.lport == x.inst) (requestIn s.cfg) e else d)) := by
  have hlead' : (leadDie s.dyn).isNone = false := by rw [← Option.not_isSome, hlead]; rfl
  subst he hd
  simp only [execControlWordRewrite, nextDyn_eq, hfix, hlead', Bool.not_true, Bool.or_self, Bool.false_eq_true, if_false]
  rfl

theorem execScrubSweep_done {s : State} {k : Fin 112} {hits l : List EccHit} {a : Act} {sets : List Nat} {d e : Dyn}
    (hrun : s.dyn.hlth.running.find? (fun a => a.q.code == 1 && a.q.strukt == k.val) = some a)
    (hdue : aget 0 s.dyn.hlth.scrubs k + scrubNs s.cfg ≤ s.dyn.now) (hl : l = hits.filter (fun x => struktOf x == k.val))
    (hd : d = forAll l (eccHit s.cfg) (if k.val < 48 then waysBack s.cfg k s.dyn else s.dyn))
    (hsets : sets = ((l.filter fun x => x.kind == .dirEntry && !x.ue).map fun x => x.index / 16 % 16384).dedup)
    (he : e = { d with hlth := { d.hlth with
      ceSeen := (d.hlth.ceSeen.filter fun y => y / 16384 != k.val) ++ sets.map (fun y => k.val * 16384 + y)
      scrubs := aset 0 d.hlth.scrubs k d.now } }) :
    execScrubSweep k hits s = .next (s.setDyn (arbFree a.id
      (forAll (sets.filter fun y => d.hlth.ceSeen.contains (k.val * 16384 + y)) (spareAsk k) e))) := by
  subst he hsets hd hl
  simp only [execScrubSweep, nextDyn_eq, hrun, Nat.not_lt.mpr hdue, if_false]
  rfl

theorem execSliceSparing_done {s : State} {sl : DSlice} {set : Fin 16384} {a : Act} {x : DirSt} {d : Dyn}
    (hrun : s.dyn.hlth.running.find? (fun a => a.q.code == 9 && a.q.strukt == sl.val && a.tag == set.val) = some a)
    (hx : x = dirGet s.dyn sl) (hd : d = dirSet sl { x with spared := x.spared ++ [set.val] } s.dyn) :
    execSliceSparing sl set s = .next (s.setDyn (if 16 ≤ x.spared.length then
      arbFree a.id (raise 0x0C06 (sl / 12) [sl.val, set.val] s.dyn)
    else arbFree a.id (raise 0x0C0B (sl / 12) [sl.val, set.val]
      (put .hlthScrubStsSpareUsed (sl / 12) (rd d .hlthScrubStsSpareUsed (sl / 12) + 1) d)))) := by
  subst hd hx
  simp only [execSliceSparing, nextDyn_eq, hrun]
  rfl

/-! ## The arbiter (R482 to R486) -/

theorem execArbiterRequest_done (qs : List ActReq) (s : State) :
    execArbiterRequest qs s = .next (s.setDyn (serveGrants s.cfg (arbScan (forAll (rankSort qs)
      (fun q d => { d with hlth := { d.hlth with
        nextAct := d.hlth.nextAct + 1, waiting := arbPut ⟨d.hlth.nextAct, q, d.now, askTag⟩ d.hlth.waiting } }) s.dyn)))) := by
  rw [execArbiterRequest, nextDyn_eq]; rfl

theorem execArbiterRelease_done {s : State} {id : Nat} (hrun : (s.dyn.hlth.running.any fun a => a.id == id && a.tag == askTag) = true) :
    execArbiterRelease id s = .next (s.setDyn (serveGrants s.cfg (arbFree id s.dyn))) := by
  simp only [execArbiterRelease, nextDyn_eq, hrun, if_true]
  rfl

section

variable {s : State} {id : Nat} {a : Act} (hwait : s.dyn.hlth.waiting.find? (fun a => a.id == id) = some a)

include hwait

/-- A lost link's reconfiguration is never abandoned (R486). -/
theorem execArbAbandon_lostLink (hlost : a.q.lostLink = true) : execArbAbandon id s = .next s := by
  simp only [execArbAbandon, nextDyn_eq, hwait, hlost, or_true, if_true]

/-- Another request that has waited 100 ms is (R485). -/
theorem execArbAbandon_done {d : Dyn} (hlost : a.q.lostLink = false) (hdue : a.at0 + 100000000 ≤ s.dyn.now)
    (hd : d = { s.dyn with hlth := { s.dyn.hlth with waiting := dropOne a s.dyn.hlth.waiting } }) :
    execArbAbandon id s = .next (s.setDyn (serveGrants s.cfg (arbScan (abandon s.cfg a
      (raise 0x0C08 (leadOr0 d) [a.q.code.val] (bump .hlthArbStsAbandoned 0 1 d)))))) := by
  subst hd
  simp only [execArbAbandon, nextDyn_eq, hwait, hlost, Nat.not_lt.mpr hdue, Bool.false_eq_true, or_self, if_false]
  rfl

end

/-- Settles O34: a granted activity or a word that waits selects each command's working branch, and 100 ms ARB_ABANDON's. -/
theorem controlStateAndArbiterCommandsComplete : Obligations.ControlStateAndArbiterCommandsComplete := by
  unfold Obligations.ControlStateAndArbiterCommandsComplete
  exact ⟨fun s hits r => execM2sRequest_done hits r s, fun s x d e hfix hlead hd he => execControlWordRewrite_done hfix hlead hd he,
    fun s k hits l a sets d e hrun hdue hl hd hsets he => execScrubSweep_done hrun hdue hl hd hsets he,
    fun s sl set a x d hrun hx hd => execSliceSparing_done hrun hx hd, fun s qs => execArbiterRequest_done qs s,
    fun s id hrun => execArbiterRelease_done hrun,
    fun s id a d hwait => ⟨execArbAbandon_lostLink hwait, execArbAbandon_done hwait⟩⟩

end Machine
end Sys2Proof
end

section
/-! PROOFS. Links, containment and DPC settings of logical ports (R52, R68 to R94, R114): O7, O8 and O55. -/

namespace Sys2Proof
namespace Machine

/-- A command of the first form makes what its function answers the changing part. -/
theorem nextDyn_setDyn {s : State} {f : Cfg → Dyn → Dyn} {d : Dyn} (h : f s.cfg s.dyn = d) : nextDyn s f = .next (s.setDyn d) := by
  rw [nextDyn_eq, h]; rfl

/-! ## Presence and training (R52, R68, R81) -/

section

variable {s : State} {lp : Lport} {prsnt rx : Bool} (hlp : lpExists s.cfg lp = true)

include hlp

/-- A sign of presence is noted, and that is all. -/
theorem execPresenceDetect_here (hsign : (if cg s.cfg .portPcfgBif (lpPu lp) = 0 then prsnt || rx else rx) = true) :
    execPresenceDetect lp prsnt rx s = .next (s.setDyn (put .portLstsPrsnt lp 1 s.dyn)) :=
  nextDyn_setDyn (by simp only [hlp, hsign, Bool.not_true, Bool.false_eq_true, if_false, if_true])

/-- With its link down a port whose last sign went away has lost its device. -/
theorem execPresenceDetect_gone (hsign : (if cg s.cfg .portPcfgBif (lpPu lp) = 0 then prsnt || rx else rx) = false)
    (hwas : rd s.dyn .portLstsPrsnt lp = 1) (hlink : lpLinkUp s.dyn lp = false) :
    execPresenceDetect lp prsnt rx s = .next (s.setDyn (presenceLost s.cfg lp s.dyn)) :=
  nextDyn_setDyn (by simp only [hlp, hsign, hwas, hlink, Bool.not_true, Bool.and_false, Bool.false_and, Bool.false_eq_true,
    one_ne_zero, if_false])

end

theorem execLinkUp_started {s : State} (hstage : rd s.dyn .secBootStsStage 0 = 8) (lp : Lport) (p : Partner) :
    execLinkUp lp p s = .next (s.setDyn (linkUpAt s.cfg lp p false s.dyn)) :=
  nextDyn_setDyn (if_pos hstage)

/-! ## Link power states (R71, R114) -/

/-- The widths of L0p as lane counts. -/
theorem l0pWidth_val {n : Fin 17} (h : n = 1 ∨ n = 2 ∨ n = 4 ∨ n = 8 ∨ n = 16) :
    n.val = 1 ∨ n.val = 2 ∨ n.val = 4 ∨ n.val = 8 ∨ n.val = 16 := by
  rcases h with rfl | rfl | rfl | rfl | rfl <;> decide

/-- A width that L0p may take is taken at once, but for a reduction during a cut-through, which is noted. -/
theorem execL0pWidthChange_done {s : State} {lp : Lport} {n : Fin 17} (hen : cg s.cfg .portLpmCtlL0pEn 0 = 1)
    (hopen : portOpen s.cfg s.dyn lp = true) (hn : n = 1 ∨ n = 2 ∨ n = 4 ∨ n = 8 ∨ n = 16)
    (hfull : n.val ≤ widthLanes (rd s.dyn .portLstsWidth lp)) :
    execL0pWidthChange lp n s = .next (s.setDyn (if cutNow s.dyn lp ∧ n.val < lpLanes s.dyn lp then
      { s.dyn with port := { s.dyn.port with l0pWish := aset 0 s.dyn.port.l0pWish lp n.val } } else l0pSet lp n s.dyn)) :=
  nextDyn_setDyn (if_pos ⟨hen, hopen, l0pWidth_val hn, hfull⟩)

theorem execL1Entry_done {s : State} {lp : Lport} (hdown : isDown s.cfg s.dyn lp = true) (hopen : portOpen s.cfg s.dyn lp = true)
    (hen : cg s.cfg .portLpmCtlL1En 0 = 1) :
    execL1Entry lp s = .next (s.setDyn { s.dyn with port := { s.dyn.port with
      l1 := s.dyn.port.l1 ++ [lp.val], l0p := aset 0 s.dyn.port.l0p lp 0 } }) :=
  nextDyn_setDyn (if_pos ⟨hdown, hopen, hen⟩)

theorem execL1Exit_awake {s : State} {lp : Lport} (hpwr : domPwr s.dyn (domPu (lpPu lp)) < 2) :
    execL1Exit lp s = .next (s.setDyn { s.dyn with port := { s.dyn.port with l1 := s.dyn.port.l1.filter fun x => x != lp.val } }) :=
  nextDyn_setDyn (if_neg (Nat.not_le.mpr hpwr))

theorem execL1Exit_asleep {s : State} {lp : Lport} (hpwr : 2 ≤ domPwr s.dyn (domPu (lpPu lp))) :
    execL1Exit lp s = .next (s.setDyn (emit (.wake (3000 + lpPu lp)) s.dyn)) :=
  nextDyn_setDyn (if_pos hpwr)

/-! ## Link loss (R84, R89) -/

/-- An upstream port that loses its link: its host, a member of a shared region, has failed, and another enters GRACE. -/
theorem upLost_up {g : Cfg} {d e : Dyn} {lp h : Nat} (hlink : lpLinkUp d lp = true) (hup : isUp g d lp = true)
    (hh : h = cg g .portLpcfgVcs lp) (he : e = upDown g lp h d) :
    upLost g lp d = if isMember g e h then hostFail g h e else enterGrace g h e := by
  rw [he, hh]
  simp only [upLost, hlink, hup, Bool.not_true, Bool.or_self, Bool.false_eq_true, if_false]

section

variable {s : State} {lp : Lport} (hlink : lpLinkUp s.dyn lp = true)

include hlink

/-- A port that is not upstream is contained with reason 1. -/
theorem execLinkLoss_down (hup : isUp s.cfg s.dyn lp = false) (gone : Bool) :
    execLinkLoss lp gone s = .next (s.setDyn (dpc s.cfg lp 1 gone s.dyn)) :=
  nextDyn_setDyn (by simp only [hlink, hup, Bool.not_true, Bool.false_eq_true, if_false])

variable (hup : isUp s.cfg s.dyn lp = true)

include hup

/-- At an upstream port LINK_LOSS and LINK_DOWN are the same loss. -/
theorem execLinkLoss_up (gone : Bool) : execLinkLoss lp gone s = execLinkDown lp s :=
  nextDyn_setDyn (by simp only [hlink, hup, Bool.not_true, Bool.false_eq_true, if_false, if_true])

theorem execLinkDown_done {h : Nat} {d : Dyn} (hh : h = cg s.cfg .portLpcfgVcs lp) (hd : d = upDown s.cfg lp h s.dyn) :
    execLinkDown lp s = .next (s.setDyn (if isMember s.cfg d h then hostFail s.cfg h d else enterGrace s.cfg h d)) :=
  nextDyn_setDyn (upLost_up hlink hup hh hd)

end

/-- Settles O7: the port's role, its link and its domain's power state select the branch that each command runs to. -/
theorem portLinkCommandsComplete : Obligations.PortLinkCommandsComplete := by
  unfold Obligations.PortLinkCommandsComplete
  exact ⟨fun s lp prsnt rx hlp hsign => execPresenceDetect_here hlp hsign,
    fun s lp prsnt rx hlp hsign hwas hlink => execPresenceDetect_gone hlp hsign hwas hlink,
    fun s lp p hstage => execLinkUp_started hstage lp p,
    fun s lp n hen hopen hn hfull => execL0pWidthChange_done hen hopen hn hfull,
    fun s lp hdown hopen hen => execL1Entry_done hdown hopen hen, fun s lp hpwr => execL1Exit_awake hpwr,
    fun s lp hpwr => execL1Exit_asleep hpwr, fun s lp gone hlink hup => execLinkLoss_down hlink hup gone,
    fun s lp gone hlink hup => execLinkLoss_up hlink hup gone,
    fun s lp h d hlink hup hh hd => execLinkDown_done hlink hup hh hd⟩

/-! ## Containment and its release (R84, R87) -/

/-- The release of a port clears its containment in LSTS and CONT. -/
theorem rd_releaseDpc (lp : Nat) (d : Dyn) : rd (releaseDpc lp d) .portLstsContained lp = 0 ∧
    rd (releaseDpc lp d) .portContDpcTrig lp = 0 ∧ rd (releaseDpc lp d) .portContReason lp = 0 := by
  simp [releaseDpc]

theorem releaseDpc_ev (lp : Nat) (d : Dyn) : (releaseDpc lp d).ev = d.ev := rfl
theorem releaseDpc_out (lp : Nat) (d : Dyn) : (releaseDpc lp d).out = d.out := rfl
theorem releaseDpc_alloc (lp : Nat) (d : Dyn) : (releaseDpc lp d).alloc = d.alloc := rfl

/-- A command that releases a port clears its containment and tells nobody. -/
theorem releaseDpc_complete {r : Host.Outcome State Fault Refusal} {s : State} {lp : Nat}
    (h : r = .next (s.setDyn (releaseDpc lp s.dyn))) :
    ∃ d, r = .next (s.setDyn d) ∧ rd d .portLstsContained lp = 0 ∧ rd d .portContDpcTrig lp = 0 ∧
      rd d .portContReason lp = 0 ∧ d.ev = s.dyn.ev ∧ d.out = s.dyn.out ∧ d.alloc = s.dyn.alloc := by
  obtain ⟨hcont, htrig, hreason⟩ := rd_releaseDpc lp s.dyn
  exact ⟨_, h, hcont, htrig, hreason, releaseDpc_ev _ _, releaseDpc_out _ _, releaseDpc_alloc _ _⟩

theorem execSwTrig_done (lp : Lport) (s : State) : execSwTrig lp s = .next (s.setDyn (dpc s.cfg lp 6 false s.dyn)) :=
  nextDyn_setDyn rfl

theorem execDpcTrigRelease_done {s : State} {lp : Lport} (hcont : lpContained s.dyn lp = true) (hfree : hostHolds s.dyn lp = false) :
    execDpcTrigRelease lp s = .next (s.setDyn (releaseDpc lp s.dyn)) :=
  nextDyn_setDyn (by simp only [dpcTrigRelease, hcont, hfree, Bool.not_false, Bool.and_self, if_true])

/-- A port with a passthrough binding is its host's to release. -/
theorem execDpcTrigRelease_held {s : State} {lp : Lport} (hheld : hostHolds s.dyn lp = true) : execDpcTrigRelease lp s = .next s :=
  nextDyn_setDyn (by simp only [dpcTrigRelease, hheld, Bool.not_true, Bool.and_false, Bool.false_eq_true, if_false])

theorem execVppbDpcRelease_done {s : State} {v : Host} {k : Fin 32} {b : Bnd}
    (hbnd : s.dyn.alloc.bnds.find? (fun b => b.vcs == v.val && b.vppb == k.val) = some b) (hcont : lpContained s.dyn b.lport = true) :
    execVppbDpcRelease v k s = .next (s.setDyn (releaseDpc b.lport s.dyn)) :=
  nextDyn_setDyn (by simp only [hbnd, hcont, if_true])

/-! ## Errors and resets (R80, R92, R93, R516) -/

/-- The role in force of a port hangs on the configuration and its CFG_BAD alone. -/
theorem lpRole_congr {d d' : Dyn} {lp : Nat} (h : rd d' .portLstsCfgBad lp = rd d .portLstsCfgBad lp) (g : Cfg) :
    lpRole g d' lp = lpRole g d lp := by
  simp only [lpRole, h]

theorem isUp_congr {d d' : Dyn} {lp : Nat} (h : rd d' .portLstsCfgBad lp = rd d .portLstsCfgBad lp) (g : Cfg) :
    isUp g d' lp = isUp g d lp := by
  simp only [isUp, lpRole_congr h]

/-- A failed MAC check on a secured downstream link ends its stream and contains the port with reason 5. -/
theorem execIdeFail_down {s : State} {lp : Lport} {d : Dyn} (hlink : lpLinkUp s.dyn lp = true)
    (hide : rd s.dyn .portLstsIdeOn lp = 1) (hup : isUp s.cfg s.dyn lp = false)
    (hd : d = raise 0x0108 (lpDie lp) [lp.val] (put .portLstsIdeOn lp 0 s.dyn)) :
    execIdeFail lp s = .next (s.setDyn (dpc s.cfg lp 5 false { d with port := { d.port with
      insecure := d.port.insecure.filter (fun x => x != lp.val) ++ [lp.val], ide := adel d.port.ide lp } })) := by
  have hbad : rd d .portLstsCfgBad lp = rd s.dyn .portLstsCfgBad lp := by simp [hd]
  have hup' : isUp s.cfg { d with port := { d.port with
      insecure := d.port.insecure.filter (fun x => x != lp.val) ++ [lp.val], ide := adel d.port.ide lp } } lp = false := by
    rw [← hup]; exact isUp_congr hbad _
  subst hd
  exact nextDyn_setDyn (by simp only [hlink, hide, hup', Bool.not_true, Bool.or_false, Nat.reduceBEq, Bool.false_eq_true, if_false])

section

variable {s : State} {lp : Lport} (hrole : lpRole s.cfg s.dyn lp = 2)

include hrole

section

variable (hnf : rd s.dyn .portContNfTrig lp = 0)

include hnf

/-- A non-fatal error that does not contain the port shows in the functions concerned. -/
theorem execUncorrectableError_told (hfns : aerFns s.cfg s.dyn lp ≠ []) :
    execUncorrectableError lp false s = .next (s.setDyn (forAll (aerFns s.cfg s.dyn lp) (fun x => aerTell x.1 x.2 0) s.dyn)) := by
  have hsome : (aerFns s.cfg s.dyn lp).isEmpty = false := List.isEmpty_eq_false_iff.mpr hfns
  exact nextDyn_setDyn (by
    simp only [hrole, hnf, hsome, doIf, OfNat.ofNat_ne_zero, Nat.reduceBEq, Bool.or_self, Bool.false_and, Bool.false_eq_true, if_false]
    rfl)

/-- With no function concerned it enters the event log alone. -/
theorem execUncorrectableError_alone (hfns : aerFns s.cfg s.dyn lp = []) :
    execUncorrectableError lp false s = .next (s.setDyn (errAlone (lpDie lp) [lp.val, 0] s.dyn)) :=
  nextDyn_setDyn (by
    simp only [hrole, hnf, hfns, OfNat.ofNat_ne_zero, Nat.reduceBEq, Bool.or_self, Bool.not_false, Bool.true_or, List.isEmpty_nil,
      Bool.and_self, Bool.false_eq_true, if_false, if_true]
    rfl)

end

/-- A fatal error shows in the functions concerned, brings viral and contains the port with reason 4. -/
theorem execUncorrectableError_fatal {d : Dyn}
    (hd : d = forAll (aerFns s.cfg s.dyn lp) (fun x d => raiseViral x.1 (aerTell x.1 x.2 1 d)) s.dyn) :
    execUncorrectableError lp true s = .next (s.setDyn (dpc s.cfg lp 4 false
      (if (aerFns s.cfg s.dyn lp).isEmpty && lpContained d lp then errAlone (lpDie lp) [lp.val, 1] d else d))) := by
  subst hd
  exact nextDyn_setDyn (by
    simp only [hrole, doIf, OfNat.ofNat_ne_zero, Bool.true_or, Bool.not_true, Bool.false_or, if_false, if_true]
    rfl)

end

theorem execVcsReset_done (v : Host) (s : State) : execVcsReset v s = .next (s.setDyn { s.dyn with
    port := { s.dyn.port with viral := s.dyn.port.viral.filter fun x => x != v.val },
    mgmt := { s.dyn.mgmt with sess := s.dyn.mgmt.sess.filter fun x => x.1 != .fcf v } }) :=
  nextDyn_setDyn rfl

/-- Settles O8: containment, bindings and the error's kind select the branch that each command runs to. -/
theorem portContainmentCommandsComplete : Obligations.PortContainmentCommandsComplete := by
  unfold Obligations.PortContainmentCommandsComplete
  exact ⟨fun s lp => execSwTrig_done lp s,
    fun s lp hcont hfree => releaseDpc_complete (execDpcTrigRelease_done hcont hfree),
    fun s lp hheld => execDpcTrigRelease_held hheld,
    fun s v k b hbnd hcont => releaseDpc_complete (execVppbDpcRelease_done hbnd hcont),
    fun s lp d hlink hide hup hd => execIdeFail_down hlink hide hup hd,
    fun s lp hrole hnf hfns => execUncorrectableError_told hrole hnf hfns,
    fun s lp hrole hnf hfns => execUncorrectableError_alone hrole hnf hfns,
    fun s lp d hrole hd => execUncorrectableError_fatal hrole hd, fun s v => execVcsReset_done v s⟩

/-! ## DPC settings of a host (R94) -/

/-- A flag fits a field of one bit. -/
theorem b2n_mod_two (b : Bool) : b2n b % 2 = b2n b := by cases b <;> rfl

theorem dpcFollow_unwritten {d : Dyn} {v k : Nat} (h : aget 0 d.port.dpcCtl (v * 32 + k) = 0) (lp : Nat) :
    dpcFollow v k lp d = d := by
  simp only [dpcFollow, h, if_true]

/-- What a host writes to the DPC control of a bound vPPB reaches CONT of the bound port. -/
theorem dpcHostSet_bound {d : Dyn} {v k : Nat} {b : Bnd} (h : d.alloc.bnds.find? (fun b => b.vcs == v && b.vppb == k) = some b)
    (ca nf : Bool) :
    dpcHostSet v k ca nf d = put .portContCaSel b.lport (b2n ca) (put .portContNfTrig b.lport (b2n nf)
      { d with port := { d.port with dpcCtl := aset 0 d.port.dpcCtl (v * 32 + k) (4 + 2 * b2n ca + b2n nf) } }) := by
  simp only [dpcHostSet, dpcFollow, h, aget_aset_same]
  cases ca <;> cases nf <;> rfl

/-- Settles O55: a host's write ends in the two writes to CONT of the bound port, and without one there is nothing to follow. -/
theorem hostDpcSettingsReachTheBoundPort : Obligations.HostDpcSettingsReachTheBoundPort := by
  unfold Obligations.HostDpcSettingsReachTheBoundPort
  refine ⟨fun d v k ca nf b hbnd => ?_, fun d v k lp hctl => dpcFollow_unwritten hctl lp⟩
  rw [dpcHostSet_bound hbnd]
  refine ⟨?_, ?_, fun lp hlp => ⟨?_, ?_⟩, rfl, rfl⟩
  · simp [stsWidth, b2n_mod_two]
  · simp [stsWidth, b2n_mod_two]
  · simp [hlp]
  · simp [hlp]

end Machine
end Sys2Proof
end

section
/-! PROOFS. Doorbell pages and the FCF's BARs (R72 to R74, R79, R312 to R335, R506): O31. -/

namespace Sys2Proof
namespace Machine

/-! ## Pages and their owners (R73) -/

/-- A page of the host's own does what is asked of it. -/
theorem pageWrite_own {g : Cfg} {d : Dyn} {h s : Nat} (hown : owns (qCfg g d) d h s = true) (f : Dyn → Dyn) :
    pageWrite g h s f d = f d := if_pos hown

/-- Another's page only counts the access. -/
theorem pageWrite_foreign {g : Cfg} {d : Dyn} {h s : Nat} (hown : owns (qCfg g d) d h s = false) (f : Dyn → Dyn) :
    pageWrite g h s f d = bump .gateHviolCount h 1 d := if_neg (Bool.eq_false_iff.mp hown)

/-! ## Doorbells (R330, R332) -/

theorem ringBell_read {g : Cfg} {d : Dyn} {n : Nat} (h : (ringGet d n).state = 1 ∨ (ringGet d n).state = 2) :
    ringBell g n d = readRcb g n (engineIn (ringGet d n).die d) := if_pos h

theorem resBell_read {g : Cfg} {d : Dyn} {s : Nat} (hon : (resGet d s).on = true) (h : Nat) :
    resBell g h s d = readRes g h s d := if_pos hon

/-! ## ENABLE and RESUME_RETRY of a ring (R312, R334) -/

/-- A ring that a host enables: ACTIVE, with nothing left of an earlier run. -/
def ringEnabled (g : Cfg) (h : Nat) (d : Dyn) (r : Ring) : Ring :=
  { r with state := 1, why := 0, err := 0, host := h, die := ((hostPort g d h).getD 0) / 48, taking := true
           cbBusy := true, cbAgain := false, cbDirty := true, fetched := [], stale := [], ents := []
           heldAt := none, heldTold := false, errPend := false, pollAt := d.now }

theorem ringEnable_aligned {g : Cfg} {d : Dyn} {n : Nat} {r : Ring} (hr : r = ringGet d n) (hoff : r.state = 0)
    (hbase : r.rbase % 4096 = 0) (hrcb : r.rcba % 64 = 0) (h : Nat) :
    ringEnable g h n d = hostSend g h (.hostRd h r.rcba 64) (ringSet n (ringEnabled g h d r) d) := by
  subst hr
  simp only [ringEnable, hoff, hbase, hrcb, ne_eq, not_true_eq_false, or_self, if_false]
  rfl

/-- A ring in ERROR that takes its latched entry up again. -/
def ringRetried (r : Ring) : Ring :=
  { r with state := 1, err := 0, errPend := false, cbDirty := true, fetched := r.fetched.filter fun f => f.idx != r.ridx
           stale := r.stale.filter fun x => x.1 != r.ridx }

theorem ringRetry_error {g : Cfg} {d : Dyn} {n : Nat} {r : Ring} (hr : r = ringGet d n) (herr : r.state = 2) :
    ringRetry g n d = readSlots g n (readRcb g n (ringSet n (ringRetried r) d)) := by
  subst hr
  simp only [ringRetry, herr, ne_eq, not_true_eq_false, if_false]
  rfl

/-! ## Ring commands as writes of a page (R73, R330, R332, R334) -/

section

variable (h : Host) (sl : Slc) (s : State)

theorem execRdb_page (k : Fin 4) :
    execRdb h sl k s = .next (s.setDyn (pageWrite s.cfg h sl (ringBell s.cfg (4 * sl.val + k.val)) s.dyn)) := nextDyn_setDyn rfl

theorem execResdb_page : execResdb h sl s = .next (s.setDyn (pageWrite s.cfg h sl (resBell s.cfg h sl) s.dyn)) := nextDyn_setDyn rfl

theorem execEnable_page (w : Fin 5) :
    execEnable h sl w s = .next (s.setDyn (pageWrite s.cfg h sl
      (if w.val = 4 then resEnable s.cfg h sl else ringEnable s.cfg h (4 * sl.val + w.val)) s.dyn)) := nextDyn_setDyn rfl

theorem execDisable_page (w : Fin 5) :
    execDisable h sl w s = .next (s.setDyn (pageWrite s.cfg h sl
      (if w.val = 4 then resDisable sl else ringDisable s.cfg (4 * sl.val + w.val)) s.dyn)) := nextDyn_setDyn rfl

theorem execResumeSkip_page (k : Fin 4) :
    execResumeSkip h sl k s = .next (s.setDyn (pageWrite s.cfg h sl (ringSkip s.cfg (4 * sl.val + k.val)) s.dyn)) := nextDyn_setDyn rfl

theorem execResumeRetry_page (k : Fin 4) :
    execResumeRetry h sl k s = .next (s.setDyn (pageWrite s.cfg h sl (ringRetry s.cfg (4 * sl.val + k.val)) s.dyn)) :=
  nextDyn_setDyn rfl

end

/-! ## Ring commands of the slice's owner (R312, R330, R332, R334) -/

section

variable {s : State} {h : Host} {sl : Slc} (hown : owns (qCfg s.cfg s.dyn) s.dyn h sl = true)

include hown

theorem execRdb_own {k : Fin 4}
    (hst : (ringGet s.dyn (4 * sl.val + k.val)).state = 1 ∨ (ringGet s.dyn (4 * sl.val + k.val)).state = 2) :
    execRdb h sl k s = .next (s.setDyn (readRcb s.cfg (4 * sl.val + k.val)
      (engineIn (ringGet s.dyn (4 * sl.val + k.val)).die s.dyn))) := by
  rw [execRdb_page, pageWrite_own hown, ringBell_read hst]

theorem execResdb_own (hon : (resGet s.dyn sl).on = true) : execResdb h sl s = .next (s.setDyn (readRes s.cfg h sl s.dyn)) := by
  rw [execResdb_page, pageWrite_own hown, resBell_read hon]

theorem execEnable_res : execEnable h sl 4 s = .next (s.setDyn (resEnable s.cfg h sl s.dyn)) := by
  rw [execEnable_page, pageWrite_own hown, if_pos (show (4 : Fin 5).val = 4 from rfl)]

theorem execDisable_res : execDisable h sl 4 s = .next (s.setDyn (resDisable sl s.dyn)) := by
  rw [execDisable_page, pageWrite_own hown, if_pos (show (4 : Fin 5).val = 4 from rfl)]

theorem execDisable_ring {k : Fin 5} (hk : k.val ≠ 4) :
    execDisable h sl k s = .next (s.setDyn (ringDisable s.cfg (4 * sl.val + k.val) s.dyn)) := by
  rw [execDisable_page, pageWrite_own hown, if_neg hk]

/-- ENABLE of an aligned ring that is OFF. -/
theorem execEnable_ring {k : Fin 5} {n : Nat} {r : Ring} (hk : k.val ≠ 4) (hn : n = 4 * sl.val + k.val)
    (hr : r = ringGet s.dyn n) (hoff : r.state = 0) (hbase : r.rbase % 4096 = 0) (hrcb : r.rcba % 64 = 0) :
    execEnable h sl k s =
      .next (s.setDyn (hostSend s.cfg h (.hostRd h r.rcba 64) (ringSet n (ringEnabled s.cfg h s.dyn r) s.dyn))) := by
  subst hn
  rw [execEnable_page, pageWrite_own hown, if_neg hk, ringEnable_aligned hr hoff hbase hrcb]

theorem execResumeSkip_own {k : Fin 4} {n : Nat} (hn : n = 4 * sl.val + k.val) :
    execResumeSkip h sl k s = .next (s.setDyn (ringSkip s.cfg n s.dyn)) := by
  rw [execResumeSkip_page, pageWrite_own hown, hn]

theorem execResumeRetry_own {k : Fin 4} {n : Nat} {r : Ring} (hn : n = 4 * sl.val + k.val) (hr : r = ringGet s.dyn n)
    (herr : r.state = 2) :
    execResumeRetry h sl k s =
      .next (s.setDyn (readSlots s.cfg n (readRcb s.cfg n (ringSet n (ringRetried r) s.dyn)))) := by
  subst hn
  rw [execResumeRetry_page, pageWrite_own hown, ringRetry_error hr herr]

end

/-- Of another's page each ring command only counts in the host's gate violations (R73). -/
theorem pageCommands_foreign {s : State} {h : Host} {sl : Slc} (hown : owns (qCfg s.cfg s.dyn) s.dyn h sl = false)
    (k : Fin 4) (w : Fin 5) :
    execRdb h sl k s = .next (s.setDyn (bump .gateHviolCount h 1 s.dyn)) ∧
    execResdb h sl s = .next (s.setDyn (bump .gateHviolCount h 1 s.dyn)) ∧
    execEnable h sl w s = .next (s.setDyn (bump .gateHviolCount h 1 s.dyn)) ∧
    execDisable h sl w s = .next (s.setDyn (bump .gateHviolCount h 1 s.dyn)) ∧
    execResumeSkip h sl k s = .next (s.setDyn (bump .gateHviolCount h 1 s.dyn)) ∧
    execResumeRetry h sl k s = .next (s.setDyn (bump .gateHviolCount h 1 s.dyn)) := by
  simp only [execRdb_page, execResdb_page, execEnable_page, execDisable_page, execResumeSkip_page, execResumeRetry_page,
    pageWrite_foreign hown, and_self]

/-! ## Control blocks (R316) -/

theorem execCbWrite_res {s : State} {sl : Slc} {q : ResRing} (hq : q = resGet s.dyn sl) (hdirty : q.cbDirty = true)
    (hdue : q.cbAt + 1000 ≤ s.dyn.now) :
    execCbWrite sl 4 s = .next (s.setDyn (hostPut s.cfg q.host (q.rcba + 8)
      [q.prod, swState (expMark q.log2 q.prod) (b2n q.on) 0, 0] (resSet sl { q with cbDirty := false, cbAt := s.dyn.now } s.dyn))) := by
  subst hq
  exact nextDyn_setDyn (if_pos (And.intro hdirty hdue))

theorem execCbWrite_ring {s : State} {sl : Slc} {k : Fin 5} {n : Nat} {r : Ring} (hk : k.val ≠ 4) (hn : n = 4 * sl.val + k.val)
    (hr : r = ringGet s.dyn n) (hdirty : r.cbDirty = true) (hdue : r.cbAt + 1000 ≤ s.dyn.now) :
    execCbWrite sl k s = .next (s.setDyn (hostPut s.cfg r.host (r.rcba + 8)
      [r.head, swState (expMark r.log2 r.head) r.state r.err, r.ridx] (ringSet n { r with cbDirty := false, cbAt := s.dyn.now } s.dyn))) := by
  subst hr hn
  exact nextDyn_setDyn ((if_neg hk).trans (if_pos ⟨hdirty, hdue⟩))

/-! ## BAR0, the doorbell pages (R72, R73) -/

section

variable (s : State) (h : Host) (sl : Slc) (o : Fin 4096)

/-- The page an offset in BAR0 lies in. -/
theorem pageOffset_page : (sl.val * 4096 + o.val) / 4096 = sl.val := by omega

/-- The offset within that page. -/
theorem pageOffset_offset : (sl.val * 4096 + o.val) % 4096 = o.val := by omega

theorem execFcfBarAccess_pageWrite (x : Word) :
    execFcfBarAccess h 0 (sl.val * 4096 + o.val) (some x) false s =
      .next (s.setDyn (pageWrite s.cfg h sl (pageStore s.cfg h sl o x.toNat) s.dyn)) :=
  nextDyn_setDyn (by
    simp only [pageOffset_page, pageOffset_offset]
    exact if_pos (And.intro rfl sl.isLt))

variable {s h sl o}

/-- A word of its own is read at once. -/
theorem execFcfBarAccess_pageRead (hwide : pageWide o = false) :
    execFcfBarAccess h 0 (sl.val * 4096 + o.val) none false s = .next (s.setDyn (emit (.csrData (.fcf h)
      [if owns (qCfg s.cfg s.dyn) s.dyn h sl = true ∧ o.val % 4 = 0 then pageRead s.dyn sl o else 0]) s.dyn)) :=
  nextDyn_setDyn (by
    simp only [pageOffset_page, pageOffset_offset]
    by_cases hread : owns (qCfg s.cfg s.dyn) s.dyn h sl = true ∧ o.val % 4 = 0
    · simp [hread, hwide, sl.isLt]
    · simp [hread, sl.isLt])

/-- A word of a pair goes through the host's latch. -/
theorem execFcfBarAccess_pagePair {p : Nat × Dyn} (hwide : pageWide o = true) (hword : o.val % 4 = 0)
    (hown : owns (qCfg s.cfg s.dyn) s.dyn h sl = true)
    (hp : p = pairRead (.fcf h) (2 ^ 81 + sl.val * 4096 + o.val / 8 * 8)
      (pageRead s.dyn sl (o.val / 8 * 8) + 2 ^ 32 * pageRead s.dyn sl (o.val / 8 * 8 + 4)) (o.val % 8 == 4) s.dyn) :
    execFcfBarAccess h 0 (sl.val * 4096 + o.val) none false s = .next (s.setDyn (emit (.csrData (.fcf h) [p.1]) p.2)) := by
  subst hp
  exact nextDyn_setDyn (by
    simp only [pageOffset_page, pageOffset_offset]
    simp [hwide, hword, hown, sl.isLt])

end

/-! ## BAR2, the counter window, and BAR4 (R72, R79, R506) -/

/-- The low word of a slice counter of the host's own, through its latch. -/
theorem bar2Word_own {g : Cfg} {d : Dyn} {h : Host} {sl : Slc} {j : Fin 8} {v : Nat} (huser : cg g .pmcCtlPmuUser 0 = 1)
    (hown : owns (qCfg g d) d h sl = true)
    (hv : v = aget 0 d.cnt.slc (sl.val * 8 + j.val) + aget 0 d.cnt.slcO (sl.val * 8 + j.val) * 2 ^ 63) :
    bar2Word g h (sl.val * 256 + j.val * 16) d = emit (.csrData (.fcf h)
      [(pairRead (.fcf h) (2 ^ 80 + (sl.val * 8 + j.val)) v false d).1])
        (pairRead (.fcf h) (2 ^ 80 + (sl.val * 8 + j.val)) v false d).2 := by
  have hslice : (sl.val * 256 + j.val * 16) / 256 = sl.val := by omega
  have hctr : (sl.val * 256 + j.val * 16) % 256 / 16 = j.val := by omega
  have hlow : (sl.val * 256 + j.val * 16) % 16 = 0 := by omega
  subst hv
  simp only [bar2Word, hslice, hctr, hlow]
  simp [huser, hown, sl.isLt, j.isLt]

theorem execFcfBarAccess_bar4 (h : Host) (o : Fin 65536) (v : Option Word) (s : State) :
    execFcfBarAccess h 4 o.val v false s = .next (s.setDyn (bar4Access h o.val v s.dyn)) :=
  nextDyn_setDyn (by rw [Nat.mod_eq_of_lt o.isLt]; rfl)

theorem execFcfBarAccess_bar2 (h : Host) (off : Nat) (s : State) :
    execFcfBarAccess h 2 off none false s = .next (s.setDyn (bar2Word s.cfg h off s.dyn)) := nextDyn_setDyn rfl

/-- A TLP of a selective IDE stream that asks for an answer gets Unsupported Request. -/
theorem execFcfBarAccess_selRead (h : Host) (bar : Fin 6) (off : Nat) (s : State) :
    execFcfBarAccess h bar off none true s = .next (s.setDyn (emit (.fcfUr h) s.dyn)) := nextDyn_setDyn rfl

/-- One that asks for none is dropped. -/
theorem execFcfBarAccess_selWrite (h : Host) (bar : Fin 6) (off : Nat) (x : Word) (s : State) :
    execFcfBarAccess h bar off (some x) true s = .next (s.setDyn s.dyn) := nextDyn_setDyn rfl

theorem execBar2Read_done (h : Host) (off : Nat) (s : State) :
    execBar2Read h off s = .next (s.setDyn (bar2Word s.cfg h off s.dyn)) := nextDyn_setDyn rfl

/-- Settles O31: ownership of the slice selects what a page does, and the BAR's number and the offset what an access reaches. -/
theorem doorbellPageCommandsComplete : Obligations.DoorbellPageCommandsComplete := by
  unfold Obligations.DoorbellPageCommandsComplete
  exact ⟨fun s h sl k hown hst => execRdb_own hown hst, fun s h sl hown hon => execResdb_own hown hon,
    fun s h sl k n r hown hk hn hr hoff hbase hrcb => ⟨ringEnabled s.cfg h s.dyn r, execEnable_ring hown hk hn hr hoff hbase hrcb,
      rfl, rfl, rfl, rfl, rfl, rfl, rfl, rfl, rfl, rfl, rfl, rfl⟩,
    fun s h sl k hown => ⟨execEnable_res hown, execDisable_res hown, fun hk => execDisable_ring hown hk⟩,
    fun s h sl k n r hown hn hr herr => ⟨execResumeSkip_own hown hn, ringRetried r, execResumeRetry_own hown hn hr herr,
      rfl, rfl, rfl, rfl⟩,
    fun s h sl k w hown => pageCommands_foreign hown k w,
    fun s h sl o x => ⟨execFcfBarAccess_pageWrite s h sl o x, fun hwide => execFcfBarAccess_pageRead hwide,
      fun p hwide hword hown hp => execFcfBarAccess_pagePair hwide hword hown hp⟩,
    fun s h o off v bar => ⟨execFcfBarAccess_bar4 h o v s, execFcfBarAccess_bar2 h off s, execFcfBarAccess_selRead h bar off s,
      fun x => execFcfBarAccess_selWrite h bar off x s⟩,
    fun s sl q hq hdirty hdue => execCbWrite_res hq hdirty hdue,
    fun s sl k n r hk hn hr hdirty hdue => execCbWrite_ring hk hn hr hdirty hdue,
    fun s h sl j v huser hown hv => (execBar2Read_done h _ s).trans (by rw [bar2Word_own huser hown hv])⟩

end Machine
end Sys2Proof
end

section
/-! PROOFS. Migrations, data mover chunks, holds, twin rebuilds and epochs (R108, R157 to R187): O17. -/

namespace Sys2Proof
namespace Machine

/-! ## MIGRATION_ASSIGN (R142, R166) -/

theorem splitRun_outOfRun {d : Dyn} {ld page : Nat} (h : (ptGet d ld page).run = 0) (g : Cfg) : splitRun g ld page d = d := by
  simp only [splitRun, h, if_true]

/-- What a migration slot keeps of an assignment of a page. -/
def migOf (a : Assign) (e : PtEnt) : MigSt :=
  { mig0 with act := a.act, srcDev := e.dev, srcPage := e.bpage, dstDev := a.dstDev, dstPage := a.dstPage, drain := a.drain, ring := a.ring }

/-- The status registers of a slot that an assignment enters: ARMED. -/
def migRegs (i : Nat) (a : Assign) (d : Dyn) : Dyn :=
  put .xltMigStsRebuild i (b2n a.rebuild) (put .xltMigStsLd i a.ld (put .xltMigPagePage i a.page
    (put .xltMigStsState i 1 (put .xltMigStsPass i 0 (put .xltMigStsDirty i 0 (put .xltMigStsReason i 0 d))))))

/-- The watches of a slot's page are asked for, with the service blocks awake. -/
def watchesAsked (die : Die) (slot : MigSlot) (a : Assign) (d : Dyn) : Dyn :=
  xchOpen (watchXid die slot) (emit (.watchReq die slot a.ld a.page)
    (forAll (List.range 4) (fun k d => emit (.wake (2000 + 2 * k + 1)) d) (ungate (172 + die.val) d)))

theorem execMigrationAssign_entered {s : State} {die : Die} {slot : MigSlot} {i : Nat} {a : Assign} {d e : Dyn}
    (hi : i = die.val * 16 + slot.val)
    (hassign : s.dyn.hlth.assigns.find? (fun a => a.die == die.val && granted s.dyn a.act) = some a) (hfree : migState s.dyn i = 0)
    (hd : d = { s.dyn with hlth := { s.dyn.hlth with assigns := dropOne a s.dyn.hlth.assigns } })
    (hmapped : (ptGet d a.ld a.page).state = 1) (hgood : (ptGet d a.ld a.page).poison = false)
    (hhere : devDie d (ptGet d a.ld a.page).dev = die) (hdst : devOk d a.dstDev = true) (hrun : (ptGet d a.ld a.page).run = 0)
    (he : e = ptWriteRange a.ld a.page 1 (fun _ e => { e with state := 2 }) false .nothing d) :
    execMigrationAssign die slot s = .next (s.setDyn (watchesAsked die slot a
      (migSet i (migOf a (ptGet d a.ld a.page)) (migRegs i a e)))) := by
  subst hi hd he
  refine nextDyn_setDyn ?_
  simp only [hassign, hfree, hmapped, hgood, hhere, hdst, splitRun_outOfRun hrun, ne_eq, not_true_eq_false, false_and, Bool.not_true,
    Bool.false_eq_true, or_self, if_true, if_false]
  rfl

/-! ## Passes of a migration (R166 to R169) -/

theorem execWatchSet_noted {s : State} {die : Die} {slot : MigSlot} {who : Fin 12} (harmed : migState s.dyn (die * 16 + slot) = 1)
    (hawake : 4 ≤ who.val ∨ domPwr s.dyn (domSvc (2 * who + 1)) ≤ 1) :
    execWatchSet die slot who s = .next (s.setDyn (armedCheck s.cfg (die * 16 + slot) (migSet (die * 16 + slot)
      { migGet s.dyn (die * 16 + slot) with ack := bitSet (migGet s.dyn (die * 16 + slot)).ack who } s.dyn))) :=
  nextDyn_setDyn (if_pos (And.intro harmed hawake))

theorem execChunkDone_mig (die : Die) (slot : MigSlot) (blk : Fin 512) (poison err : Bool) (s : State) :
    execChunkDone (.mig die slot blk) poison err s = .next (s.setDyn (migChunkDone s.cfg (die * 16 + slot) blk s.dyn)) :=
  nextDyn_setDyn rfl

theorem execChunkDone_ring (n : RingId) (idx : Nat) (poison err : Bool) (s : State) :
    execChunkDone (.ring n idx) poison err s = .next (s.setDyn (chunkDone s.cfg n idx poison err s.dyn)) := nextDyn_setDyn rfl

/-- The tag of a felling holds the writer above 64 bits of block or page (R108). -/
theorem fellingTag_of (w : Nat) {blk : Nat} (h : blk < 2 ^ 64) :
    (w * 2 ^ 64 + blk) / 2 ^ 64 = w ∧ (w * 2 ^ 64 + blk) % 2 ^ 64 = blk := by
  omega

/-- A felled block of the pass that is not to come again anyway. -/
theorem execFellingNotice_block {s : State} {die : Die} {slot : MigSlot} {blk : Fin 512}
    (hpass : migState s.dyn (die * 16 + slot) = 2) (htodo : bitAt (migGet s.dyn (die * 16 + slot)).todo blk = false) :
    execFellingNotice die (slot * 2 ^ 64 + blk) s = .next (s.setDyn (migSet (die * 16 + slot)
      { migGet s.dyn (die * 16 + slot) with again := bitSet (migGet s.dyn (die * 16 + slot)).again blk } s.dyn)) := by
  obtain ⟨hslot, hblk⟩ := fellingTag_of slot.val (blk := blk.val) (by omega)
  refine nextDyn_setDyn ?_
  simp only [hslot, hblk, slot.isLt, blk.isLt, hpass, htodo, true_or, and_self, if_true, Bool.false_eq_true, if_false]

/-- A felled zero write of a page that is still to be zeroed. -/
theorem execFellingNotice_zero {s : State} {dev : Dev} {page : Fin 16777216} (die : Die)
    (hdirty : bitAt (blkGet s.dyn dev (page / 128)).dirty (page % 128) = true) (hdev : devOk s.dyn dev = true) :
    execFellingNotice die ((2 ^ 20 + dev) * 2 ^ 64 + page) s = .next (s.setDyn (zeroSend dev page 1 s.dyn)) := by
  obtain ⟨hw, hpage⟩ := fellingTag_of (2 ^ 20 + dev.val) (blk := page.val) (by omega)
  have hzero : ¬ 2 ^ 20 + dev.val < 16 := by omega
  refine nextDyn_setDyn ?_
  simp only [hw, hpage, hzero, Nat.le_add_right, Nat.add_sub_cancel_left, hdirty, hdev, Bool.and_self, if_true, if_false]

/-! ## Holds (R171 to R173) -/

theorem execHoldRequest_held {s : State} {die mdie : Die} {slot : MigSlot} {ld page : Nat} {d : Dyn}
    (hsweep : migState s.dyn (mdie * 16 + slot) = 4) (hruns : xltHalted s.dyn die = false)
    (hld : ld = migLd s.dyn (mdie * 16 + slot)) (hpage : page = migPage s.dyn (mdie * 16 + slot))
    (hd : d = if s.dyn.xlt.heldPg.contains (die.val, ld, page) then s.dyn else
      { s.dyn with xlt := { s.dyn.xlt with heldPg := s.dyn.xlt.heldPg ++ [(die.val, ld, page)] } }) :
    execHoldRequest die mdie slot s =
      .next (s.setDyn (holdTell die (some (migLd d (mdie * 16 + slot), migPage d (mdie * 16 + slot))) d)) := by
  subst hld hpage hd
  exact nextDyn_setDyn (if_pos ⟨hsweep, by rw [hruns]; rfl⟩)

theorem execHoldAnswer_noted {s : State} {mdie : Die} {slot : MigSlot} {who : Fin 12}
    (hsweep : migState s.dyn (mdie * 16 + slot) = 4)
    (hquiet : 4 ≤ who.val ∨
      (s.dyn.xlt.heldPg.contains (who.val, migLd s.dyn (mdie * 16 + slot), migPage s.dyn (mdie * 16 + slot)) = true ∧
      (s.dyn.flights.any fun f => f.die == who.val &&
        f.page == some (migLd s.dyn (mdie * 16 + slot), migPage s.dyn (mdie * 16 + slot))) = false)) :
    execHoldAnswer mdie slot who s = .next (s.setDyn (holdSweep s.cfg (mdie * 16 + slot) (migSet (mdie * 16 + slot)
      { migGet s.dyn (mdie * 16 + slot) with ack := bitSet (migGet s.dyn (mdie * 16 + slot)).ack who } s.dyn))) := by
  refine nextDyn_setDyn (if_pos ⟨hsweep, ?_⟩)
  simpa only [Bool.or_eq_true, Bool.and_eq_true, decide_eq_true_eq, Bool.not_eq_true'] using hquiet

theorem execHoldTimeout_abandoned {s : State} {die : Die} {slot : MigSlot} (hsweep : migState s.dyn (die * 16 + slot) = 4)
    (hlate : (migGet s.dyn (die * 16 + slot)).holdAt + 1400 < s.dyn.now) :
    execHoldTimeout die slot s = .next (s.setDyn (holdAbandon s.cfg (die * 16 + slot) s.dyn)) :=
  nextDyn_setDyn (if_pos (And.intro hsweep hlate))

theorem execHoldRelease_released {s : State} {die : Die} {ld : Host} {page : Nat}
    (hheld : s.dyn.xlt.heldPg.contains (die.val, ld.val, page) = true) (hslot : slotOf s.dyn ld page = none) :
    execHoldRelease die ld page s = .next (s.setDyn (releaseHeld s.cfg die ld page s.dyn)) := by
  refine nextDyn_setDyn (if_pos ⟨hheld, ?_⟩)
  rw [hslot]

/-! ## Twin rebuilds and epochs (R157, R162) -/

/-- A page without its twin gets one of its own tier, in another failure group. -/
theorem execTwinRebuildStart_asked {s : State} {ld : Host} {page k dev dp : Nat} {e : PtEnt} (he : e = ptGet s.dyn ld page)
    (hmapped : e.state = 1) (hgood : e.poison = false) (htwin : (twGet s.dyn e.twin).v = false)
    (hpol : cg s.cfg .allocRpolTwin (pagePol s.cfg ld page) = 1)
    (hdeg : s.dyn.xlt.degraded.contains (ld.val, pageRegion s.cfg ld page) = true) (hbusy : migBusy s.dyn ld page = false)
    (hidx : twFree s.dyn = some k)
    (hdst : singlePg s.dyn ((tierDevs s.dyn e.tier).filter fun b => fgOf s.dyn b != fgOf s.dyn e.dev) = some (dev, dp)) :
    execTwinRebuildStart ld page s = .next (s.setDyn (migAsk s.cfg ld page dev dp true false none (twPut k ⟨true, dev, dp⟩ s.dyn))) := by
  subst he
  refine nextDyn_setDyn ((if_pos ⟨hmapped, hgood, htwin, hpol, hdeg, hbusy⟩).trans ?_)
  simp only [hidx, hdst]

theorem execEpochEnd_halved {s : State} {d : Dyn} (hdue : s.dyn.xlt.epochAt < s.dyn.now / epochNs s.cfg)
    (hd : d = hotHalve { s.dyn with xlt := { s.dyn.xlt with
      epochAt := s.dyn.now / epochNs s.cfg, epoch := s.dyn.xlt.epoch + rd s.dyn .xltPtLocReady 0 } })
    (hauto : autoOn s.cfg d = false) : execEpochEnd s = .next (s.setDyn d) := by
  subst hd
  refine nextDyn_setDyn ((if_neg (Nat.not_le.mpr hdue)).trans ?_)
  exact if_neg (Bool.eq_false_iff.mp hauto)

/-- Settles O17: each premise selects the working branch of its command; a page out of its run needs no splitting, and the tag of a
felling names its slot or its page. -/
theorem migrationCommandsComplete : Obligations.MigrationCommandsComplete := by
  unfold Obligations.MigrationCommandsComplete
  exact ⟨fun s die slot i a d e hi hassign hfree hd hmapped hgood hhere hdst hrun he =>
      execMigrationAssign_entered hi hassign hfree hd hmapped hgood hhere hdst hrun he,
    fun s die slot who harmed hawake => execWatchSet_noted harmed hawake,
    fun s die slot blk poison err => execChunkDone_mig die slot blk poison err s,
    fun s n idx poison err => execChunkDone_ring n idx poison err s,
    fun s die slot blk hpass htodo => execFellingNotice_block hpass htodo,
    fun s die dev page hdirty hdev => execFellingNotice_zero die hdirty hdev,
    fun s die mdie slot ld page d hsweep hruns hld hpage hd => execHoldRequest_held hsweep hruns hld hpage hd,
    fun s mdie slot who hsweep hquiet => execHoldAnswer_noted hsweep hquiet,
    fun s die slot hsweep hlate => execHoldTimeout_abandoned hsweep hlate,
    fun s die ld page hheld hslot => execHoldRelease_released hheld hslot,
    fun s ld page k dev dp e he hmapped hgood htwin hpol hdeg hbusy hidx hdst =>
      execTwinRebuildStart_asked he hmapped hgood htwin hpol hdeg hbusy hidx hdst,
    fun s hdue hauto => execEpochEnd_halved hdue rfl hauto⟩

end Machine
end Sys2Proof
end

section
/-! PROOFS. Admission, egress slots, responses and mirror sessions (R96 to R131, R550): O18. -/

namespace Sys2Proof
namespace Machine

/-! ## ADMIT (R96, R99, R110) -/

theorem execAdmit_done {s : State} {ws : List (AdmitFrom × Bool)} {ok : List ((AdmitFrom × Bool) × Bool)}
    (hok : ok = ws.map (fun x => (x, cutFirst s.cfg s.dyn ((ws.filter fun x => x.2).map Prod.fst) x.1))) :
    execAdmit ws s = .next (s.setDyn (forAll ((ok.filter fun x => fromPort x.1.1) ++ ok.filter fun x => !fromPort x.1.1)
      (fun x d => admitOne s.cfg x.1.1 x.1.2 x.2 d) s.dyn)) := by
  subst hok
  exact nextDyn_setDyn rfl

/-! ## EGRESS_TRANSMIT (R99, R116, R550) -/

/-- What a slot of a logical port does with the packet that leaves in it. -/
def portDepart (g : Cfg) (lp : Nat) (d : Dyn) (x : Option BufPkt × Dyn) : Dyn :=
  match x.1 with
  | none => x.2
  | some b => depart g lp b.pkt (tallyPort lp 0x11 1 (slotCount lp 1 (padSlots g d b.pkt) x.2))

/-- What a slot of a router's queue does with the packet that leaves in it. -/
def netDepart (cl : Clu) (r : Nat) (x : Option BufPkt × Dyn) : Dyn :=
  match x.1 with
  | none => x.2
  | some b => inject (cluRouter cl) (planeOf b.pkt) r b.pkt x.2

section

variable {s : State} {cl : Clu} {egr : Fin 40} {cr : Fin 256} (hruns : cluStopped s.dyn cl = false)

include hruns

section

variable (hport : egr.val < 8) (hopen : portOpen s.cfg s.dyn (cl * 8 + egr) = true) (hdue : slotsDue s.dyn (cl * 8 + egr) ≠ 0)

include hport hopen hdue

/-- A slot of the link that carries a flit sent again is wasted. -/
theorem execEgressTransmit_replay {replay : Fin 3} (hreplay : replay.val ≠ 0) (ok : Bool) :
    execEgressTransmit cl egr cr replay ok s = .next (s.setDyn (slotCount (cl * 8 + egr) 1 1
      (if replay.val = 1 then tallyPort (cl * 8 + egr) 0x19 1 s.dyn else s.dyn))) := by
  refine nextDyn_setDyn ?_
  simp only [hruns, hopen, beq_eq_false_iff_ne.mpr hdue, hport, hreplay, Bool.not_true, Bool.or_self, Bool.and_false, Bool.false_eq_true,
    ne_eq, not_false_eq_true, and_self, if_true, if_false]

theorem execEgressTransmit_port {d : Dyn} (hd : d = slotCount (cl * 8 + egr) (slotClass s.dyn cl egr cr) 1 s.dyn) :
    execEgressTransmit cl egr cr 0 true s = .next (s.setDyn (portDepart s.cfg (cl * 8 + egr) d (egrSlot cl egr cr d))) := by
  subst hd
  refine nextDyn_setDyn ?_
  simp only [hruns, hopen, beq_eq_false_iff_ne.mpr hdue, hport, Bool.not_true, Bool.or_self, Bool.and_false, Bool.false_eq_true,
    ne_eq, Fin.val_zero, not_true_eq_false, and_false, if_true, if_false]
  rfl

end

theorem execEgressTransmit_net (hnet : 8 ≤ egr.val) (replay : Fin 3) :
    execEgressTransmit cl egr cr replay true s = .next (s.setDyn (netDepart cl (egr - 8) (egrSlot cl egr cr s.dyn))) := by
  refine nextDyn_setDyn ?_
  simp only [hruns, Nat.not_lt.mpr hnet, decide_false, Bool.false_and, Bool.or_self, Bool.false_eq_true, false_and, if_true, if_false]
  rfl

end

/-! ## S2M_RESPONSE (R121, R122) -/

/-- The mark that an answer takes from the depth of its responder's egress; only one of CXL.mem takes any (R121). -/
def answerMark (g : Cfg) (d : Dyn) (lp : Nat) (f : Flight) : DevLoad :=
  if rspCls f.req.kind = 1 then markOf g (lpClu lp) (egrDepth d lp) else .light

/-- A mark that asks for less load is counted in its cluster. -/
def markCounted (cl : Nat) (mark : DevLoad) (d : Dyn) : Dyn :=
  match mark with
  | .moderate => tallyClu cl 0x24 1 d
  | .severe => tallyClu cl 0x25 1 d
  | _ => d

theorem markCounted_eq (cl : Nat) (mark : DevLoad) (d : Dyn) : markCounted cl mark d =
    if mark = .moderate then tallyClu cl 0x24 1 d else if mark = .severe then tallyClu cl 0x25 1 d else d := by
  cases mark <;> rfl

/-- The state that an answer is taken in: a packet is counted at its port, and the port's and the cluster's clocks run. -/
def answerTaken (lp : Nat) (d : Dyn) : Dyn := ungate (lpPu lp) (ungate (96 + lpClu lp) (tallyPort lp 0x10 1 d))

/-- A request that one of its responders has answered (R122). -/
def answeredBy (who : Nat) (poison : Bool) (dl : DevLoad) (f : Flight) : Flight :=
  { f with devs := dropOne who f.devs, poison := f.poison || poison, devLoad := dlMax f.devLoad dl }

theorem answeredBy_last {who : Nat} {f : Flight} (h : f.devs = [who]) (poison : Bool) (dl : DevLoad) :
    answeredBy who poison dl f = { f with devs := [], poison := f.poison || poison, devLoad := dlMax f.devLoad dl } := by
  rw [answeredBy, h, show dropOne who [who] = [] from if_pos rfl]

/-- The completion of a write to a page's own device is seen by the page's migration (R165). -/
def writeSeen (who : Nat) (f : Flight) (d : Dyn) : Dyn :=
  match f.page with
  | some (ld, pg) =>
    if f.req.kind = .memWr ∧ (ptGet d ld pg).dev = who then
      markWindow (ptGet d ld pg).dev (ptGet d ld pg).bpage (f.req.addr % 2097152) f.req.len d else d
  | none => d

theorem writeSeen_unwritten {f : Flight} (h : f.req.kind ≠ .memWr ∨ f.page = none) (who : Nat) (d : Dyn) : writeSeen who f d = d := by
  rcases h with hkind | hpage
  · cases hpage : f.page <;> simp only [writeSeen, hpage, hkind, false_and, if_false]
  · simp only [writeSeen, hpage]

/-- Where an answered request goes: it waits for its other responders, commits, or its response is staged. -/
def answerSent (g : Cfg) (id lp : Nat) (mark : DevLoad) (f : Flight) (k : RespKind) (d : Dyn) : Dyn :=
  if !f.devs.isEmpty then credit lp (rspCls f.req.kind) d
  else if isPoisonWrite id then credit lp (rspCls f.req.kind) (tellDone id d |> commit id)
  else if f.via.isSome then
    match farRsp { f with cg := f.cg || (mark == .moderate || mark == .severe || f.color == 2) } (f.via.getD 4)
      (cluRouter (lpClu lp)) (finalResp f k) d with
    | some p => commit id (stage lp ⟨{ p with src := lp, weight := weightOf (qCfg g d) d f.slice }, none, true⟩ d)
    | none => commit id (credit lp (rspCls f.req.kind) d)
  else if lpContained d f.req.lport then credit lp (rspCls f.req.kind) (tellDone id d |> commit id)
  else stage lp ⟨rspPkt g d f lp (finalResp f k) f.devLoad, none, true⟩ d

theorem answerSent_staged {id : Nat} {f : Flight} {d : Dyn} (hlast : f.devs = []) (hpw : isPoisonWrite id = false)
    (hvia : f.via = none) (hfree : lpContained d f.req.lport = false) (g : Cfg) (lp : Nat) (mark : DevLoad) (k : RespKind) :
    answerSent g id lp mark f k d = stage lp ⟨rspPkt g d f lp (finalResp f k) f.devLoad, none, true⟩ d := by
  simp only [answerSent, hlast, hpw, hvia, hfree, List.isEmpty_nil, Bool.not_true, Option.isSome_none, Bool.false_eq_true, if_false]

/-- An answer that is owed and finds room is noted in its request, counted and sent on. -/
theorem execS2mResponse_answered {s : State} {id lp : Nat} {who : Fin 2192} {k : RespKind} {f : Flight} {mark : DevLoad} {f2 : Flight}
    (hf : flightOf s.dyn id = some f) (hlp : lp = whoPort s.dyn who) (howed : f.devs.contains who.val = true)
    (hopen : portOpen s.cfg s.dyn lp = true) (hroom : stagRoom s.dyn lp (rspCls f.req.kind) (rspBytes f.req k) = true)
    (hm : mark = answerMark s.cfg s.dyn lp f) {poison : Bool} {dl : DevLoad} (hf2 : f2 = answeredBy who poison (dlMax dl mark) f) :
    execS2mResponse id who k poison dl s = .next (s.setDyn (answerSent s.cfg id lp mark f2 k
      (writeSeen who f2 (setFlight id (fun _ => f2) (markCounted (lpClu lp) mark (answerTaken lp s.dyn)))))) := by
  subst hlp hm hf2
  refine nextDyn_setDyn ?_
  simp only [hf, howed, hopen, hroom, Bool.not_true, Bool.or_self, Bool.false_eq_true, if_false]
  rfl

/-- The one responder left answers a request of this package, and no migration has a write of it to see. -/
theorem execS2mResponse_staged {s : State} {id lp : Nat} {who : Fin 2192} {k : RespKind} {poison : Bool} {dl mark : DevLoad}
    {f f2 : Flight} {d e : Dyn} (hf : flightOf s.dyn id = some f) (hlast : f.devs = [who.val]) (hlp : lp = whoPort s.dyn who)
    (hopen : portOpen s.cfg s.dyn lp = true) (hroom : stagRoom s.dyn lp (rspCls f.req.kind) (rspBytes f.req k) = true)
    (hunseen : f.req.kind ≠ .memWr ∨ f.page = none) (hpw : isPoisonWrite id = false) (hvia : f.via = none)
    (hm : mark = answerMark s.cfg s.dyn lp f) (hd : d = answerTaken lp s.dyn)
    (hf2 : f2 = { f with devs := [], poison := f.poison || poison, devLoad := dlMax f.devLoad (dlMax dl mark) })
    (he : e = setFlight id (fun _ => f2) (if mark = .moderate then tallyClu (lpClu lp) 0x24 1 d
      else if mark = .severe then tallyClu (lpClu lp) 0x25 1 d else d)) (hfree : lpContained e f.req.lport = false) :
    execS2mResponse id who k poison dl s =
      .next (s.setDyn (stage lp ⟨rspPkt s.cfg e f2 lp (finalResp f2 k) f2.devLoad, none, true⟩ e)) := by
  have howed : f.devs.contains who.val = true := by simp [hlast]
  have hreq : f2.req = f.req := by rw [hf2]
  have hpage : f2.page = f.page := by rw [hf2]
  have hdevs : f2.devs = [] := by rw [hf2]
  have hvia2 : f2.via = none := by rw [hf2]; exact hvia
  rw [execS2mResponse_answered hf hlp howed hopen hroom hm (hf2.trans (answeredBy_last hlast poison (dlMax dl mark)).symm),
    markCounted_eq, ← hd, ← he, writeSeen_unwritten (by rw [hreq, hpage]; exact hunseen),
    answerSent_staged hdevs hpw hvia2 (by rw [hreq]; exact hfree)]

/-! ## Mirror sessions (R129, R131) -/

theorem execWriteCountUpdate_told {s : State} {i : Sess} {m : MirSess} (hm : m = aget mir0 s.dyn.mir i) (hnew : m.told < m.written)
    (hdue : m.told = 0 ∨ m.lastAt + 1000 ≤ s.dyn.now) :
    execWriteCountUpdate i s = .next (s.setDyn (emit (.mirrorCount i (cg s.cfg .mirWpaAddr i * 8) m.written)
      { s.dyn with mir := aset mir0 s.dyn.mir i { m with told := m.written, lastAt := s.dyn.now } })) := by
  subst hm
  exact nextDyn_setDyn (if_pos (And.intro hnew hdue))

theorem execMirrorEnable_done (i : Sess) (en : Bool) (s : State) :
    execMirrorEnable i en s = .next (s.setDyn (setMirror i en s.dyn)) := nextDyn_setDyn rfl

/-- Settles O18: each premise selects the working branch of its command. -/
theorem packetPathCommandsComplete : Obligations.PacketPathCommandsComplete := by
  unfold Obligations.PacketPathCommandsComplete
  exact ⟨fun s ws ok hok => execAdmit_done hok,
    fun s cl egr cr replay ok hruns hport hopen hdue hreplay => execEgressTransmit_replay hruns hport hopen hdue hreplay ok,
    fun s cl egr cr d hruns hport hopen hdue hd => execEgressTransmit_port hruns hport hopen hdue hd,
    fun s cl egr cr replay hruns hnet => execEgressTransmit_net hruns hnet replay,
    fun s id lp who k poison dl mark f f2 d e hf hlast hlp hopen hroom hmark hpw hvia hm hd hf2 he hfree =>
      execS2mResponse_staged hf hlast hlp hopen hroom hmark hpw hvia hm hd hf2 he hfree,
    fun s i m hm hnew hdue => execWriteCountUpdate_told hm hnew hdue, fun s i en => execMirrorEnable_done i en s⟩

end Machine
end Sys2Proof
end

section
/-! PROOFS. Placement reads, rewrites and writes, shootdowns, the second copy and event records (R139 to R160, R199): O16. -/

namespace Sys2Proof
namespace Machine

/-! ## PLACEMENT_READ_DONE (R139, R146, R147, R150) -/

/-- The requests that wait for a page with no readable entry are answered and counted, and the miss is over (R147). -/
def missAnswered (die ld page : Nat) (m : Miss) (d : Dyn) : Dyn :=
  forAll (waitersOf d die ld page) (fun f d => answer f.req (memAnswer f.req.kind)
    (bump .xltUnmapCntCount die 1 (raise 0x0308 die [ld, page] (xltLeave f.req.id d)))) (missDrop m d)

/-- One try to rewrite an unreadable entry as poisoned; a failed one is tried again a second later (R147). -/
def rewriteTried (g : Cfg) (ok : Bool) (ld page : Nat) (d : Dyn) : Dyn :=
  if ok then poisonEntry g ld page d
  else { d with xlt := { d.xlt with rewrite := aset 0 d.xlt.rewrite (pgKey ld page) (d.now + 1000000000) } }

section

variable {s : State} {die : Die} {ld : Host} {page : Nat} {m : Miss}
  (hmiss : (missActive s.dyn die).find? (fun m => m.ld == ld.val && m.page == page) = some m)

include hmiss

theorem execPlacementReadDone_stale (hstale : m.stale ≠ 0) (poison ok : Bool) :
    execPlacementReadDone die ld page poison ok s = .next (s.setDyn { s.dyn with xlt := { s.dyn.xlt with
      miss := mapIf (fun x => x == m) (fun x => { x with stale := x.stale - 1 }) s.dyn.xlt.miss } }) := by
  refine nextDyn_setDyn ?_
  simp only [hmiss, ne_eq, hstale, not_false_eq_true, if_true]

variable (hfresh : m.stale = 0)

include hfresh

theorem execPlacementReadDone_readable (ok : Bool) :
    execPlacementReadDone die ld page false ok s =
      .next (s.setDyn (xltDrain s.cfg die (missDrop m (xltFill s.cfg die ld page s.dyn)))) := by
  refine nextDyn_setDyn ?_
  simp only [hmiss, hfresh, ne_eq, not_true_eq_false, Bool.not_false, if_true, if_false]

/-- The primary has changed since the read went out: the new one is read. -/
theorem execPlacementReadDone_newPrimary (hfirst : m.second = false) (hdev : m.dev ≠ ptReadDev s.dyn false) (ok : Bool) :
    execPlacementReadDone die ld page true ok s = .next (s.setDyn (missRead m false s.dyn)) := by
  refine nextDyn_setDyn ?_
  simp only [hmiss, hfresh, hfirst, bne_iff_ne.mpr hdev, ne_eq, not_true_eq_false, Bool.not_true, Bool.not_false, Bool.and_self,
    Bool.false_eq_true, if_true, if_false]

/-- The primary itself is unreadable, and there is another copy. -/
theorem execPlacementReadDone_otherCopy (hfirst : m.second = false) (hdev : m.dev = ptReadDev s.dyn false)
    (hcopy : rd s.dyn .xltPtLocCopyV 0 = 1) (ok : Bool) :
    execPlacementReadDone die ld page true ok s = .next (s.setDyn (missRead m true s.dyn)) := by
  refine nextDyn_setDyn ?_
  simp only [hmiss, hfresh, hfirst, hdev, hcopy, bne_self_eq_false, beq_self_eq_true, ne_eq, not_true_eq_false, Bool.not_true,
    Bool.not_false, Bool.and_self, Bool.and_false, Bool.false_eq_true, if_true, if_false]

/-- Both copies are unreadable, and a rewrite is not already put off to a later time. -/
theorem execPlacementReadDone_unreadable {d : Dyn} (hsecond : m.second = true) (hd : d = missAnswered die ld page m s.dyn)
    (hdue : aget 0 d.xlt.rewrite (pgKey ld page) ≤ d.now) (ok : Bool) :
    execPlacementReadDone die ld page true ok s = .next (s.setDyn (xltDrain s.cfg die (rewriteTried s.cfg ok ld page d))) := by
  subst hd
  refine nextDyn_setDyn ?_
  simp only [hmiss, hfresh, hsecond, ne_eq, not_true_eq_false, Bool.not_true, Bool.false_and, Bool.false_eq_true, if_false]
  exact congrArg (xltDrain s.cfg die) (if_neg (Nat.not_lt.mpr hdue))

end

/-- PT_REWRITE_RETRY of an entry whose noted time has come (R147). -/
theorem execPtRewriteRetry_tried {s : State} {ld : Host} {page : Nat} (hnoted : aget 0 s.dyn.xlt.rewrite (pgKey ld page) ≠ 0)
    (hdue : aget 0 s.dyn.xlt.rewrite (pgKey ld page) ≤ s.dyn.now) (ok : Bool) :
    execPtRewriteRetry ld page ok s = .next (s.setDyn (rewriteTried s.cfg ok ld page s.dyn)) :=
  nextDyn_setDyn (if_neg (not_or.mpr ⟨hnoted, Nat.not_lt.mpr hdue⟩))

/-! ## Placement writes and shootdowns (R139, R150, R151, R199) -/

theorem execPlacementWriteDone_found {s : State} {wid : Nat} {w : PWrite} {d : Dyn}
    (hw : s.dyn.xlt.pws.find? (fun w => w.wid == wid) = some w)
    (hd : d = { s.dyn with xlt := { s.dyn.xlt with pws := dropOne w s.dyn.xlt.pws } }) :
    execPlacementWriteDone wid s = .next (s.setDyn (if w.remap then shootsFor w d else contRun s.cfg w.cont d)) := by
  subst hd
  refine nextDyn_setDyn ?_
  simp only [hw]

/-- The requests held for a page go on where a shootdown ends its flip (R171 step 6). -/
def flipReleased (g : Cfg) (die : Nat) (x : Shoot) (d : Dyn) : Dyn :=
  match x.cont with
  | .migFlip _ _ | .twinSet _ _ => releaseHeld g die x.ld x.lo d
  | _ => d

theorem execShootdown_ran {s : State} {die : Die} {rid : Nat} {x : Shoot} {d : Dyn}
    (hx : s.dyn.xlt.shoots.find? (fun x => x.rid == rid) = some x) (hruns : xltHalted s.dyn die = false)
    (hd : d = tallyDie die 0x49 none 1 (shootAt die x s.dyn)) :
    execShootdown die rid s = .next (s.setDyn (flipReleased s.cfg die x d)) := by
  subst hd
  refine nextDyn_setDyn ?_
  simp only [hx, hruns, Bool.false_eq_true, if_false]
  rfl

/-- Only a die of this package has to have run the shootdown before its answer counts. -/
theorem execShootdownAnswer_heard {s : State} {rid : Nat} {who : Fin 12} {x : Shoot}
    (hx : s.dyn.xlt.shoots.find? (fun x => x.rid == rid) = some x) (hran : who.val < 4 → bitAt x.ran who = true) :
    execShootdownAnswer rid who s = .next (s.setDyn (shootHeard s.cfg x who s.dyn)) := by
  have hcounts : ¬ (who.val < 4 ∧ (!bitAt x.ran who) = true) := fun ⟨hdie, hnot⟩ => by simp [hran hdie] at hnot
  refine nextDyn_setDyn ?_
  simp only [hx, hcounts, if_false]

/-! ## The second copy (R140) and event records (R160) -/

theorem execSecondCopyBuild_built {s : State} {c : Nat} (hchosen : s.dyn.alloc.moveCopy = some c) (hdev : devOk s.dyn c = true)
    (hresv : ((List.range (ptBlocks s.cfg)).all fun k => (blkGet s.dyn c k).resv) = true) :
    execSecondCopyBuild s = .next (s.setDyn (put .xltPtLocCopyV 0 1
      (reservePt s.cfg c { s.dyn with alloc := { s.dyn.alloc with moveCopy := none } }))) := by
  refine nextDyn_setDyn ?_
  simp only [hchosen]
  exact if_pos ⟨hdev, hresv⟩

/-- An LD's log without its oldest `n` records; room made so ends an overflow (R160). -/
def recordsCleared (ld n : Nat) (d : Dyn) : Dyn :=
  { d with xlt := { d.xlt with ldLog := aset [] d.xlt.ldLog ld ((aget [] d.xlt.ldLog ld).drop n)
                               ldOver := if n = 0 then d.xlt.ldOver else aset (0, 0, 0) d.xlt.ldOver ld (0, 0, 0) } }

theorem execClearEventRecords_done (ld : Host) (n : Nat) (s : State) :
    execClearEventRecords ld n s = .next (s.setDyn (recordsCleared ld n s.dyn)) := nextDyn_setDyn rfl

theorem ldLog_recordsCleared_same (ld n : Nat) (d : Dyn) :
    aget [] (recordsCleared ld n d).xlt.ldLog ld = (aget [] d.xlt.ldLog ld).drop n := aget_aset_same _ _ _ _

theorem ldLog_recordsCleared_ne {ld k : Nat} (h : k ≠ ld) (n : Nat) (d : Dyn) :
    aget [] (recordsCleared ld n d).xlt.ldLog k = aget [] d.xlt.ldLog k := aget_aset_ne _ _ _ h _

/-- Settles O16: each premise selects the working branch of its command, and clearing records writes the log of its LD alone. -/
theorem translationCommandsComplete : Obligations.TranslationCommandsComplete := by
  unfold Obligations.TranslationCommandsComplete
  exact ⟨fun s die ld page ok m hmiss hfresh => execPlacementReadDone_readable hmiss hfresh ok,
    fun s die ld page p ok m hmiss hstale => execPlacementReadDone_stale hmiss hstale p ok,
    fun s die ld page ok m hmiss hfresh hfirst => ⟨fun hdev => execPlacementReadDone_newPrimary hmiss hfresh hfirst hdev ok,
      fun hdev hcopy => execPlacementReadDone_otherCopy hmiss hfresh hfirst hdev hcopy ok⟩,
    fun s die ld page ok m d hmiss hfresh hsecond hd hdue =>
      execPlacementReadDone_unreadable hmiss hfresh hsecond hd hdue ok,
    fun s ld page hnoted hdue => ⟨execPtRewriteRetry_tried hnoted hdue true, execPtRewriteRetry_tried hnoted hdue false⟩,
    fun s wid w d hw hd => execPlacementWriteDone_found hw hd,
    fun s die rid x d hx hruns hd => execShootdown_ran hx hruns hd,
    fun s rid who x d hx hran hd => hd ▸ execShootdownAnswer_heard hx hran,
    fun s c hchosen hdev hresv => execSecondCopyBuild_built hchosen hdev hresv,
    fun s ld n => ⟨recordsCleared ld n s.dyn, execClearEventRecords_done ld n s, ldLog_recordsCleared_same ld n s.dyn,
      fun k hk => ldLog_recordsCleared_ne hk n s.dyn, rfl, rfl, rfl⟩⟩

end Machine
end Sys2Proof
end

section
/-! PROOFS. The late start, from the register records to device ready (R221, R345, R441, R453, R461): O6. -/

namespace Sys2Proof
namespace Machine

/-- A command of the second form makes what its function answers the configuration and the changing part. -/
theorem nextCfg_mk {s : State} {f : Cfg → Dyn → Cfg × Dyn} {g : Cfg} {d : Dyn} (h : f s.cfg s.dyn = (g, d)) :
    nextCfg s f = .next ⟨g, d, s.pending⟩ := by
  simp only [nextCfg, h]

/-! ## The image's records and the amendments (R453, R461) -/

/-- The policy section of the image, empty where the image has none, is taken and the sequence goes to AMENDMENT_REPLAY (R441). -/
def policyTaken (m : Image) (d : Dyn) : Dyn :=
  put .secBootStsStage 0 5 { d with boot := { d.boot with pol := if hasSect m.sects 2 then m.policy else ⟨[], []⟩ } }

theorem execRegisterRecords_done {s : State} {m : Image} {r : Cfg × Dyn} (hstage : rd s.dyn .secBootStsStage 0 = 4)
    (himage : s.dyn.boot.image = some m) (hr : r = recsStart m.regs (s.cfg, policyTaken m s.dyn)) :
    execRegisterRecords s = .next ⟨r.1, r.2, s.pending⟩ := by
  refine nextCfg_mk ?_
  simp only [hstage, himage, ne_eq, not_true_eq_false, if_false, hr, policyTaken]

theorem execAmendmentReplay_done {s : State} {r : Cfg × Dyn} (hstage : rd s.dyn .secBootStsStage 0 = 5)
    (hr : r = replayLog (logTail (logOf s.dyn)) (s.cfg, s.dyn)) :
    execAmendmentReplay s = .next ⟨r.1, put .secAmdStsLogUse 0 (min 100 (logUsed r.2 * 100 / 8388608))
      (put .secBootStsStage 0 6 r.2), s.pending⟩ := by
  subst hr
  exact nextCfg_mk (if_neg (not_not.mpr hstage))

/-! ## Firmware, links and device ready (R220, R221, R345, R441) -/

/-- A standby copy that was running when firmware starts is complete, since the standby holds what the lead does (R220). -/
theorem execFirmwareStart_done {s : State} (hstage : rd s.dyn .secBootStsStage 0 = 6) :
    execFirmwareStart s = .next (s.setDyn (if rd s.dyn .allocMirStsSyncing 0 = 1 then
      put .allocMirStsSyncing 0 0 (put .allocMirStsMirrored 0 1 (put .secBootStsStage 0 7 s.dyn))
      else put .secBootStsStage 0 7 s.dyn)) := by
  have hsync : rd (put .secBootStsStage 0 7 s.dyn) .allocMirStsSyncing 0 = rd s.dyn .allocMirStsSyncing 0 :=
    rd_put_fld (by decide) _ _ _ _
  refine nextDyn_setDyn ((if_neg (not_not.mpr hstage)).trans ?_)
  simp only [hsync]

/-- Stage 7 has two commands: LINK_ENABLE until route bank 0 is in use, then DEVICE_READY. -/
theorem execLinkEnable_done {s : State} (hstage : rd s.dyn .secBootStsStage 0 = 7) (hunused : s.dyn.noc.bank0.used = false) :
    execLinkEnable s = .next (s.setDyn (forAll (List.range 36) (fun n d =>
      if !gklIsP n || rd d .gklPhyCtlEn n == 1 || cg s.cfg .gklSysLinkV (n / 9) == 1 then phyEnable n (put .gklPhyCtlEn n 0 d) else d)
      { s.dyn with noc := { s.dyn.noc with bank0 := ⟨true, cg s.cfg .nocCtlOrder 0, arrEmpty⟩ } })) := by
  refine nextDyn_setDyn ?_
  simp only [hstage, hunused, ne_eq, not_true_eq_false, decide_false, Bool.or_self, Bool.false_eq_true, if_false]

theorem execDeviceReady_done {s : State} {d e : Dyn} (hstage : rd s.dyn .secBootStsStage 0 = 7)
    (hused : s.dyn.noc.bank0.used = true) (hd : d = slotsStart s.cfg (put .secBootStsStage 0 8 s.dyn))
    (he : e = put .secReadyNsNs 0 (dieTs d (leadOr0 d)) d) (devs : List (Lport × Partner)) :
    execDeviceReady devs s = .next (s.setDyn (choosePt s.cfg
      (devicesStart s.cfg devs (raise 0x0B01 (leadOr0 e) [rd e .secReadyNsNs 0] e)))) := by
  subst he hd
  refine nextDyn_setDyn ?_
  simp only [hstage, hused, ne_eq, not_true_eq_false, decide_false, Bool.not_true, Bool.or_self, Bool.false_eq_true, if_false]

/-- Settles O6: each command finds the start sequence at its own stage, and the use of route bank 0 tells the two of stage 7 apart. -/
theorem lateStartCommandsComplete : Obligations.LateStartCommandsComplete := by
  unfold Obligations.LateStartCommandsComplete
  exact ⟨fun s m hstage himage => ⟨_, rfl, execRegisterRecords_done hstage himage rfl⟩,
    fun s hstage => ⟨_, rfl, execAmendmentReplay_done hstage rfl⟩,
    fun s hstage => execFirmwareStart_done hstage,
    fun s hstage hunused => execLinkEnable_done hstage hunused,
    fun s devs hstage hused => ⟨_, _, rfl, rfl, execDeviceReady_done hstage hused rfl rfl devs⟩⟩

end Machine
end Sys2Proof
end

section
/-! PROOFS. Grants, the pool at start, host states and the allocator's journal (R199 to R220, R320, R548): O9 and O10. -/

namespace Sys2Proof
namespace Machine

/-! ## Admission (R198 to R202) -/

theorem execAlloc_queued {s : State} {n : RingId} {idx : Nat} {e : RingEnt} {d : Dyn} (hent : entReady s.dyn n idx 1 = some e)
    (hqueue : (s.dyn.alloc.queue.any fun q => q.slice == n.val / 4) = false)
    (hctx : ((allCtxs s.dyn).any fun c => c.slice == n.val / 4) = false)
    (hd : d = setEnt n idx (fun e => { e with started := true }) s.dyn) :
    execAlloc n idx s = .next (s.setDyn { d with alloc := { d.alloc with
      queue := d.alloc.queue ++ [⟨n / 4, n, idx, bits (argAt e.w 0) 0 3, argAt e.w 1⟩] } }) := by
  subst hd
  refine nextDyn_setDyn ?_
  simp only [hent, hqueue, hctx, Bool.or_self, Bool.false_eq_true, if_false]

/-- Which slice is next and which context is free are questions to the allocator alone. -/
theorem nextSlice_congr {d e : Dyn} (h : e.alloc = d.alloc) : nextSlice e = nextSlice d := by
  simp only [nextSlice, h]

theorem freeCtx_congr {d e : Dyn} (h : e.alloc = d.alloc) : freeCtx e = freeCtx d := by
  simp only [freeCtx, ctxGet, h]

section

variable {s : State} {sl k : Nat} {d : Dyn} (hready : rd s.dyn .xltPtLocReady 0 = 1) (hbuilt : s.dyn.alloc.rebuild = false)
  (hquorum : quorumLost s.dyn = false) (hleads : leadsSystem s.dyn = true) (hnext : nextSlice s.dyn = some sl)
  (hfree : freeCtx s.dyn = some k) (hd : d = ungate (176 + leadOr0 s.dyn) s.dyn)

include hready hbuilt hquorum hleads hnext hfree hd

/-- A slice whose request is paused goes on with its next piece (R202). -/
theorem execAllocAccept_paused {c : Ctx} (hpaused : s.dyn.alloc.paused.find? (fun c => c.slice == sl) = some c) :
    execAllocAccept s = .next (s.setDyn (ctxWrite k (ctxSet k c { d with
      alloc := { d.alloc with lastSlc := sl, paused := dropOne c d.alloc.paused } }))) := by
  subst hd
  have halloc := ungate_alloc (176 + leadOr0 s.dyn) s.dyn
  refine nextDyn_setDyn ?_
  simp only [hready, hbuilt, hquorum, hleads, nextSlice_congr halloc, freeCtx_congr halloc, hnext, hfree, halloc, hpaused,
    one_ne_zero, Bool.not_true, Bool.false_eq_true, or_self, if_false]

/-- A slice with no paused request starts its new one (R199). -/
theorem execAllocAccept_new {q : AllocReq} (hpaused : s.dyn.alloc.paused.find? (fun c => c.slice == sl) = none)
    (hqueue : s.dyn.alloc.queue.find? (fun q => q.slice == sl) = some q) :
    execAllocAccept s = .next (s.setDyn (ctxStart s.cfg k q { d with
      alloc := { d.alloc with lastSlc := sl, queue := dropOne q d.alloc.queue } })) := by
  subst hd
  have halloc := ungate_alloc (176 + leadOr0 s.dyn) s.dyn
  refine nextDyn_setDyn ?_
  simp only [hready, hbuilt, hquorum, hleads, nextSlice_congr halloc, freeCtx_congr halloc, hnext, hfree, halloc, hpaused, hqueue,
    one_ne_zero, Bool.not_true, Bool.false_eq_true, or_self, if_false]

end

/-! ## Step 7 of a grant (R199, R202, R203) -/

section

variable {s : State} {k : Fin 9} {c : Ctx} {d e : Dyn} (hc : c = ctxGet s.dyn k) (hbusy : c.busy = true) (hstep : c.step = 7)
  (hd : d = forAll (newExts s.dyn c) (fun x d => offerExt s.cfg x.eid d) s.dyn)
  (he : e = if k.val < 8 then peak .allocGntStsPeakUs 0 ((d.now - c.at0) / 8000) d else d)

include hc hbusy hstep hd he

/-- A request with pages left goes back in turn. -/
theorem execGrantPiece_paused (hleft : c.done < c.pages) :
    execGrantPiece k s = .next (s.setDyn { ctxEnd k e with
      alloc := { (ctxEnd k e).alloc with paused := e.alloc.paused ++ [c] } }) := by
  subst he hd hc
  refine nextDyn_setDyn ?_
  simp only [hbusy, hstep, hleft, beq_self_eq_true, Bool.and_self, if_true]

variable (hwhole : c.pages ≤ c.done)

include hwhole

/-- The initial grant has no ring entry: only its context ends. -/
theorem execGrantPiece_initial (hk : k.val = 8) : execGrantPiece k s = .next (s.setDyn (ctxEnd k e)) := by
  subst he hd hc
  refine nextDyn_setDyn ?_
  simp only [hbusy, hstep, Nat.not_lt.mpr hwhole, beq_self_eq_true, Bool.and_self, if_true, if_false]
  exact if_pos hk

theorem execGrantPiece_ended (hk : k.val < 8) :
    execGrantPiece k s = .next (s.setDyn (entDone s.cfg c.ring c.idx 0 0
      [c.base * 2097152, c.pages * 2097152, c.tag] (ctxEnd k e))) := by
  subst he hd hc
  refine nextDyn_setDyn ?_
  simp only [hbusy, hstep, Nat.not_lt.mpr hwhole, beq_self_eq_true, Bool.and_self, if_true, if_false]
  exact if_neg hk.ne

end

/-! ## Answers to an Add Capacity event (R203) -/

section

variable {s : State} {h : Host} {tag : Nat} {e : Ext}
  (hext : s.dyn.alloc.exts.find? (fun e => e.ld == h.val && e.tag == tag && !e.took && e.byAt != 0 && !e.going && !e.quar) = some e)

include hext

theorem execAddDcResponse_accepted :
    execAddDcResponse h tag true s = .next (s.setDyn { s.dyn with alloc := { s.dyn.alloc with
      exts := mapIf (fun x => x.eid == e.eid) (fun x => { x with took := true }) s.dyn.alloc.exts } }) := by
  refine nextDyn_setDyn ?_
  simp only [hext, if_true]

theorem execAddDcResponse_declined :
    execAddDcResponse h tag false s = .next (s.setDyn
      (releaseExt s.cfg e e.base e.pages (raise 0x0403 (leadOr0 s.dyn) [h, tag, 1] s.dyn))) := by
  refine nextDyn_setDyn ?_
  simp only [hext, Bool.false_eq_true, if_false]

theorem execAckTimeout_due (hdue : e.byAt ≤ s.dyn.now) :
    execAckTimeout h tag s = .next (s.setDyn
      (releaseExt s.cfg e e.base e.pages (raise 0x0403 (leadOr0 s.dyn) [h, tag, 2] s.dyn))) := by
  refine nextDyn_setDyn ?_
  simp only [hext, hdue, if_true]

end

/-! ## Releases (R205, R320) -/

section

variable {s : State} {n : RingId} {idx : Nat} {e : RingEnt} (hent : entReady s.dyn n idx 2 = some e)

include hent

/-- Whole units of 256 MiB that lie in extents of the slice are offered back to the host. -/
theorem execRelease_sent (hbase : argAt e.w 0 % 268435456 = 0) (hlen : argAt e.w 1 % 268435456 = 0)
    (hrange : rangeIn s.dyn (sliceHost s.cfg s.dyn (n / 4)) (argAt e.w 0 / 2097152) (argAt e.w 1 / 2097152)
      (fun x => x.slice == some (n.val / 4) && !x.going && !x.quar) = true) :
    execRelease n idx s = .next (s.setDyn (entDone s.cfg n idx 0 0 [argAt e.w 0, argAt e.w 1]
      (emit (.dcEvent (sliceHost s.cfg s.dyn (n / 4)) 1 (argAt e.w 0 / 2097152) (argAt e.w 1 / 2097152) 0)
        { s.dyn with alloc := { s.dyn.alloc with relEvs := s.dyn.alloc.relEvs ++
          [⟨sliceHost s.cfg s.dyn (n / 4), (argAt e.w 0 / 2097152, argAt e.w 1 / 2097152), argAt e.w 0 / 2097152, argAt e.w 1 / 2097152,
            n / 4⟩] } }))) := by
  refine nextDyn_setDyn ?_
  simp only [hent, hbase, hlen, hrange, beq_self_eq_true, Bool.and_self, if_true]

theorem execRelease_badRange (hbad : (argAt e.w 0 % 268435456 == 0 && argAt e.w 1 % 268435456 == 0 &&
      rangeIn s.dyn (sliceHost s.cfg s.dyn (n / 4)) (argAt e.w 0 / 2097152) (argAt e.w 1 / 2097152)
        (fun x => x.slice == some (n.val / 4) && !x.going && !x.quar)) = false) :
    execRelease n idx s = .next (s.setDyn (entDone s.cfg n idx 8 0 [] s.dyn)) := by
  refine nextDyn_setDyn ?_
  simp only [hent, hbad, Bool.false_eq_true, if_false]

end

section

variable {s : State} {h : Host} {base pages : Nat} (hbase : base % 128 = 0) (hpages : pages % 128 = 0)

include hbase hpages

theorem execReleaseDynamicCapacity_unasked (hpos : 0 < pages) (hrange : rangeIn s.dyn h base pages (fun e => !e.going && !e.quar) = true) :
    execReleaseDynamicCapacity h none base pages s = .next (s.setDyn
      (settleRel h base pages (releaseRange s.cfg h base pages (fun e => !e.going && !e.quar) s.dyn))) := by
  have haligned : ¬ (base % 128 ≠ 0 ∨ pages % 128 ≠ 0) := not_or.mpr ⟨not_not.mpr hbase, not_not.mpr hpages⟩
  exact nextDyn_setDyn ((if_neg haligned).trans (if_pos ⟨hpos, hrange⟩))

theorem execReleaseDynamicCapacity_answer (ev : Nat × Nat) :
    execReleaseDynamicCapacity h (some ev) base pages s = .next (s.setDyn (answerRel s.cfg h ev base pages s.dyn)) :=
  nextDyn_setDyn (if_neg (not_or.mpr ⟨not_not.mpr hbase, not_not.mpr hpages⟩))

end

/-! ## Zeroing (R187, R208, R218) -/

theorem execZeroingDone_journalled {s : State} {dev : Dev} {page n : Nat} (hready : rd s.dyn .xltPtLocReady 0 = 1)
    (hzero : zeroInside s.dyn dev page n = false) (hblock : page % 128 + n ≤ 128) (hpos : 0 < n) (hdev : page / 128 < nblk s.dyn dev)
    (hresv : (blkGet s.dyn dev (page / 128)).resv = false)
    (hdirty : ((blkGet s.dyn dev (page / 128)).dirty &&& pgMask page n) = pgMask page n)
    (hfront : page / 128 ≤ aget 0 s.dyn.alloc.front dev) (hok : devOk s.dyn dev = true) :
    execZeroingDone dev page n s =
      .next (s.setDyn (journalPut (.freePage dev page n) (pagesFree s.cfg dev page n) s.dyn)) :=
  nextDyn_setDyn (if_pos ⟨hready, by rw [hzero]; rfl, hblock, hpos, hdev, by rw [hresv]; rfl, hdirty, hfront, hok⟩)

/-- Settles O9: each premise selects the working branch of its command, and opening the allocator's clock leaves the allocator as it was. -/
theorem grantCommandsComplete : Obligations.GrantCommandsComplete := by
  unfold Obligations.GrantCommandsComplete
  exact ⟨fun s n idx e d hent hqueue hctx hd => execAlloc_queued hent hqueue hctx hd,
    fun s sl k c d hready hbuilt hquorum hleads hnext hfree hpaused hd =>
      execAllocAccept_paused hready hbuilt hquorum hleads hnext hfree hd hpaused,
    fun s sl k q d hready hbuilt hquorum hleads hnext hfree hpaused hqueue hd =>
      execAllocAccept_new hready hbuilt hquorum hleads hnext hfree hd hpaused hqueue,
    fun s k c d e hc hbusy hstep hd he => ⟨fun hleft => execGrantPiece_paused hc hbusy hstep hd he hleft,
      fun hwhole hk => execGrantPiece_initial hc hbusy hstep hd he hwhole hk,
      fun hwhole hk => execGrantPiece_ended hc hbusy hstep hd he hwhole hk⟩,
    fun s h tag e hext => ⟨execAddDcResponse_accepted hext, execAddDcResponse_declined hext, fun hdue => execAckTimeout_due hext hdue⟩,
    fun s n idx e hent hbase hlen hrange => execRelease_sent hent hbase hlen hrange,
    fun s n idx e hent hbad => execRelease_badRange hent hbad,
    fun s h base pages hbase hpages hpos hrange => execReleaseDynamicCapacity_unasked hbase hpages hpos hrange,
    fun s h ev base pages hbase hpages => execReleaseDynamicCapacity_answer hbase hpages ev,
    fun s dev page n hready hzero hblock hpos hdev hresv hdirty hfront hok =>
      execZeroingDone_journalled hready hzero hblock hpos hdev hresv hdirty hfront hok⟩

/-! ## The pool at start (R207, R208) -/

/-- The placement blocks of the primary, and of the second copy where there is one, are reserved (R207). -/
def placementReserved (g : Cfg) (p c : Nat) (d : Dyn) : Dyn :=
  if rd (reservePt g p d) .xltPtLocCopyV 0 = 1 then reservePt g c (reservePt g p d) else reservePt g p d

theorem execPoolReady_done {s : State} {p c : Nat} {d e : Dyn} (hp : p = rd s.dyn .xltPtLocPrimDev 0)
    (hc : c = rd s.dyn .xltPtLocCopyDev 0) (hunready : rd s.dyn .xltPtLocReady 0 = 0) (hprim : devUp s.dyn p = true)
    (hcopy : rd s.dyn .xltPtLocCopyV 0 = 0 ∨ devUp s.dyn c = true) (hblocks : 0 < rd s.dyn .xltPtLocBlocks 0)
    (hd : d = placementReserved s.cfg p c s.dyn)
    (he : e = put .xltPtLocReady 0 1 { d with xlt := { d.xlt with startAt := d.now } }) :
    execPoolReady s = .next (s.setDyn (forAll e.alloc.joined zeroFront e)) := by
  subst he hd hp hc
  exact nextDyn_setDyn (if_pos ⟨hunready, hprim, hcopy, hblocks⟩)

/-- The region is next in the list of initial grants: READY is set, context 8 is free and every region before it has had its turn (R208). -/
structure InitialTurn (g : Cfg) (d : Dyn) (x : Nat × Nat) : Prop where
  ready : rd d .xltPtLocReady 0 = 1
  idle : (ctxGet d 8).busy = false
  listed : (initList g).contains x = true
  new : d.alloc.inited.contains x = false
  before : (((initList g).takeWhile fun y => y != x).all fun y => d.alloc.inited.contains y) = true

theorem InitialTurn.runs {g : Cfg} {d : Dyn} {x : Nat × Nat} (h : InitialTurn g d x) :
    ¬ (rd d .xltPtLocReady 0 = 0 ∨ (ctxGet d 8).busy ∨ !(initList g).contains x ∨ d.alloc.inited.contains x
      ∨ !(((initList g).takeWhile fun y => y != x).all fun y => d.alloc.inited.contains y)) := by
  obtain ⟨hready, hidle, hlisted, hnew, hbefore⟩ := h
  simp only [hready, hidle, hlisted, hnew, hbefore, one_ne_zero, Bool.not_true, Bool.false_eq_true, or_self, not_false_eq_true]

section

variable {s : State} {ld : Host} {r : Fin 8} {pol want : Nat} {e : Dyn} (hpol : pol = ld.val * 8 + r.val)
  (hturn : InitialTurn s.cfg s.dyn (ld.val, r.val)) (hwant : want = cg s.cfg .allocRpolInitBlocks pol)
  (he : e = { s.dyn with alloc := { s.dyn.alloc with inited := s.dyn.alloc.inited ++ [(ld.val, r.val)] } })

include hpol hturn hwant he

/-- The tier holds what the region asks for, and the region is not shared: the whole grant is placed in context 8. -/
theorem execInitialGrant_whole {runs : List Place} {d : Dyn} (hshared : cg s.cfg .allocRpolShared pol = 0) (hpos : 0 < want)
    (hroom : want ≤ tierFree s.dyn (cg s.cfg .allocRpolTierPref pol)) (hlive : srDead s.cfg e ld r = false)
    (hplan : planGrant s.cfg ld pol (want * 128) (cg s.cfg .allocRgnBase pol) e = some (runs, d)) :
    execInitialGrant ld r s = .next (s.setDyn (poolLow s.cfg (journalPut (.grantReserved 8) (ctxWrite 8)
      (ctxSet 8 ⟨true, 0, 0, 4096, ld, r, cg s.cfg .allocRgnBase pol, want * 128, 0, runs, 3, d.alloc.nextTag, d.now, polNow s.cfg pol,
        targetsOf s.cfg ld r (cg s.cfg .allocRgnBase pol)⟩ { d with alloc := { d.alloc with nextTag := d.alloc.nextTag + 1 } })))) := by
  subst hpol hwant he
  refine nextDyn_setDyn ((if_neg hturn.runs).trans ?_)
  simp only [hroom, Nat.not_lt.mpr hroom, hpos.ne', hlive, hplan, hshared, lt_irrefl, false_and, decide_false, Bool.or_self,
    Bool.false_eq_true, zero_ne_one, if_true, if_false]

/-- Nothing fits and nothing is left to zero: the region has had its turn, with no grant. -/
theorem execInitialGrant_short (hshort : tierFree s.dyn (cg s.cfg .allocRpolTierPref pol) < want)
    (hzero : tierZeroing s.dyn (cg s.cfg .allocRpolTierPref pol) = false)
    (hother : tierZeroing s.dyn (1 - cg s.cfg .allocRpolTierPref pol) = false) (hnone : min want (polRoom s.cfg s.dyn pol / 128) = 0) :
    execInitialGrant ld r s = .next (s.setDyn (raise 0x040E (leadOr0 e) [ld.val, r.val, 0] e)) := by
  subst hpol hwant he
  refine nextDyn_setDyn ((if_neg hturn.runs).trans ?_)
  simp only [Nat.not_le.mpr hshort, hzero, hother, hnone, Nat.zero_lt_of_lt hshort, Bool.and_false, Bool.or_self, Bool.false_eq_true,
    and_false, decide_true, Bool.true_or, if_true, if_false]

end

/-! ## Host states (R210, R212, R548) -/

theorem execGraceExpiry_due {s : State} {h : Host} (hgrace : hostState s.dyn h = 1)
    (hdue : aget 0 s.dyn.alloc.hostAt h + cg s.cfg .allocCtlGraceS 0 * 1000000000 ≤ s.dyn.now) :
    execGraceExpiry h s = .next (s.setDyn (enterQuarantine s.cfg h s.dyn)) :=
  nextDyn_setDyn (if_pos ⟨hgrace, hdue⟩)

theorem execReclaimExpiry_due {s : State} {h : Host} (hquar : hostState s.dyn h = 2) (hends : cg s.cfg .allocCtl2ReclaimS 0 ≠ 0)
    (hdue : aget 0 s.dyn.alloc.hostAt h + cg s.cfg .allocCtl2ReclaimS 0 * 1000000000 ≤ s.dyn.now) :
    execReclaimExpiry h s = .next (s.setDyn (reclaimHost s.cfg h s.dyn)) :=
  nextDyn_setDyn (if_pos ⟨hquar, hends, hdue⟩)

/-! ## The journal and its mirrors (R218, R220) -/

theorem execJournalRecord_acknowledged {s : State} {jid : Nat} {w : Fin 12}
    (hwaits : (s.dyn.alloc.journal.any fun x => x.1 == jid && x.2.1.contains w.val) = true) :
    execJournalRecord jid w s = .next (s.setDyn (emit (.journalAck jid w) s.dyn)) :=
  nextDyn_setDyn (if_pos hwaits)

section

variable {p : Nat → Bool} {x : Nat × List Nat × Cont}

/-- Those heard from were the last: the record goes and its change is visible. -/
theorem journalHeard_last (hall : x.2.1.all p = true) (g : Cfg) (d : Dyn) :
    journalHeard g p x d =
      contRun g x.2.2 (xchClose x.1 { d with alloc := { d.alloc with journal := dropOne x d.alloc.journal } }) := by
  have hleft : (x.2.1.filter fun w => !p w).isEmpty = true := by simpa using hall
  simp only [journalHeard, hleft, if_true]

theorem journalHeard_waits (hall : x.2.1.all p = false) (g : Cfg) (d : Dyn) :
    journalHeard g p x d = { d with alloc := { d.alloc with
      journal := mapIf (fun y => y == x) (fun y => (y.1, x.2.1.filter fun w => !p w, y.2.2)) d.alloc.journal } } := by
  have hleft : (x.2.1.filter fun w => !p w).isEmpty = false := by simpa using hall
  simp only [journalHeard, hleft, Bool.false_eq_true, if_false]

end

theorem execJournalAck_heard {s : State} {jid : Nat} {w : Fin 12} {x : Nat × List Nat × Cont}
    (hx : s.dyn.alloc.journal.find? (fun x => x.1 == jid && x.2.1.contains w.val) = some x) :
    execJournalAck jid w s = .next (s.setDyn (journalHeard s.cfg (fun v => v == w.val) x s.dyn)) := by
  refine nextDyn_setDyn ?_
  simp only [hx]

theorem execStandbyResync_done {s : State} (hsync : rd s.dyn .allocMirStsSyncing 0 = 1) :
    execStandbyResync s = .next (s.setDyn (put .allocMirStsSyncing 0 0 (put .allocMirStsMirrored 0 1 s.dyn))) :=
  nextDyn_setDyn (if_pos hsync)

theorem execAllocatorRebuilt_done (s : State) :
    execAllocatorRebuilt s = .next (s.setDyn { s.dyn with alloc := { s.dyn.alloc with rebuild := false } }) := nextDyn_setDyn rfl

/-- Settles O10: each premise selects the working branch of its command, and a journal record goes when the last one has acknowledged it. -/
theorem poolAndHostStateCommandsComplete : Obligations.PoolAndHostStateCommandsComplete := by
  unfold Obligations.PoolAndHostStateCommandsComplete
  refine ⟨fun s p c d e hp hc hunready hprim hcopy hblocks hd he => execPoolReady_done hp hc hunready hprim hcopy hblocks hd he,
    fun s ld r pol want runs e d hpol hready hidle hlisted hnew hbefore hshared hwant hpos hroom he hlive hplan =>
      execInitialGrant_whole hpol ⟨hready, hidle, hlisted, hnew, hbefore⟩ hwant he hshared hpos hroom hlive hplan,
    fun s ld r pol want e hpol hready hidle hlisted hnew hbefore hwant hshort hzero hother hnone he =>
      execInitialGrant_short hpol ⟨hready, hidle, hlisted, hnew, hbefore⟩ hwant he hshort hzero hother hnone,
    fun s h hgrace hdue => execGraceExpiry_due hgrace hdue,
    fun s h hquar hends hdue => execReclaimExpiry_due hquar hends hdue,
    fun s jid w hwaits => execJournalRecord_acknowledged hwaits,
    fun s jid w x hx => ⟨fun hall => ?_, fun hall => ?_⟩,
    fun s hsync => execStandbyResync_done hsync,
    execAllocatorRebuilt_done⟩
  · exact journalHeard_last hall s.cfg s.dyn ▸ execJournalAck_heard hx
  · exact journalHeard_waits hall s.cfg s.dyn ▸ execJournalAck_heard hx

end Machine
end Sys2Proof
end

section
/-! PROOFS. The quarantine's end, drains, sag and attestation (R77, R213 to R219, R465 to R469): O23. -/

namespace Sys2Proof
namespace Machine

/-! ## Commands that the management complex serves (R510 to R517) -/

/-- The complex's clock says nothing of a path's session. -/
theorem sessOf_mgmtOn (d : Dyn) (p : Path) : sessOf (mgmtOn d) p = sessOf d p := by
  simp only [sessOf, mgmtOn, ungate_mgmt]

/-- A command that is served runs at once. -/
theorem mgmtCmd_served {s : State} {p : Path} {c : MCmd} (h : served s p c = true) :
    mgmtCmd s.cfg p c s.dyn = mgmtServe s.cfg p c (mgmtOn s.dyn) := by
  simp only [served, Bool.and_eq_true, Bool.not_eq_true', decide_eq_true_eq] at h
  obtain ⟨⟨⟨⟨hstray, hopen⟩, hnow⟩, hsince⟩, hcarried⟩ := h
  simp only [mgmtCmd, mgmtRun, hstray, hopen, hnow, hcarried, sessOf_mgmtOn, Nat.not_lt.mpr hsince, decide_false, Bool.not_true,
    Bool.or_self, Bool.false_eq_true, if_false]

/-! ## The end of a quarantine (R214) -/

/-- Both ends of a quarantine are served alike. -/
theorem served_quar {s : State} {p : Path} {h : Host} (hserved : served s p (.quar h true) = true) (restore : Bool) :
    served s p (.quar h restore) = true := by
  cases restore
  · exact hserved
  · exact hserved

section

variable {s : State} {p : Path} {h : Host}

theorem execQuarRestore_served (hserved : served s p (.quar h true) = true) (hquar : hostState (mgmtOn s.dyn) h = 2) :
    execQuarRestore p h s = .next (s.setDyn (cmdDone p 0xC050 [] (restoreHost s.cfg h (journalNote (mgmtOn s.dyn))))) :=
  nextDyn_setDyn ((mgmtCmd_served hserved).trans (if_pos hquar))

theorem execQuarReclaim_served (hserved : served s p (.quar h false) = true) (hquar : hostState (mgmtOn s.dyn) h = 2) :
    execQuarReclaim p h s = .next (s.setDyn (cmdDone p 0xC051 [] (reclaimHost s.cfg h (journalNote (mgmtOn s.dyn))))) :=
  nextDyn_setDyn ((mgmtCmd_served hserved).trans (if_pos hquar))

theorem execQuarRestore_refused (hserved : served s p (.quar h true) = true) (hother : hostState (mgmtOn s.dyn) h ≠ 2) :
    execQuarRestore p h s = .next (s.setDyn (cmdRefuse p 0xC050 rcInvalid 0 (mgmtOn s.dyn))) :=
  nextDyn_setDyn ((mgmtCmd_served hserved).trans (if_neg hother))

theorem execQuarReclaim_refused (hserved : served s p (.quar h false) = true) (hother : hostState (mgmtOn s.dyn) h ≠ 2) :
    execQuarReclaim p h s = .next (s.setDyn (cmdRefuse p 0xC051 rcInvalid 0 (mgmtOn s.dyn))) :=
  nextDyn_setDyn ((mgmtCmd_served hserved).trans (if_neg hother))

end

/-! ## DRAIN_COMPLETE (R217, R219) -/

/-- An LD that waits for another binding gets it (R217). -/
def boundLater (g : Cfg) (lp ld : Nat) (d : Dyn) : Dyn :=
  match d.alloc.bindLater.find? fun x => x.1 == lp && x.2.1 == ld with
  | some x => rebindLd g lp ld x.2.2 { d with alloc := { d.alloc with bindLater := dropOne x d.alloc.bindLater } }
  | none => d

theorem execDrainComplete_left {s : State} {b : Dev} {lp ld : Nat} {d e : Dyn} (hdrain : s.dyn.alloc.drains.contains b.val = true)
    (hempty : devInUse s.dyn b = false) (hlp : lp = rd s.dyn .xltBedevLport b) (hld : ld = rd s.dyn .xltBedevLdId b)
    (hd : d = put .xltBedevV b 0 (devLeave b s.dyn))
    (he : e = boundView s.cfg lp (journalNote { d with alloc := { d.alloc with drains := d.alloc.drains.filter fun x => x != b.val } })) :
    execDrainComplete b s = .next (s.setDyn (boundLater s.cfg lp ld e)) := by
  subst he hd hld hlp
  refine nextDyn_setDyn ?_
  simp only [hdrain, hempty, Bool.not_true, Bool.or_self, Bool.false_eq_true, if_false]
  rfl

/-! ## Supply sag (R465) -/

theorem execSagEnter_noted {s : State} {vin : Fin 1024} {low railLow : Bool} {d : Dyn} (hlow : low = decide (vin.val < sagLevel s.cfg))
    (hsign : (low || railLow) = true) (hclear : rd s.dyn .nvmSagStsSag 0 = 0)
    (hd : d = put .nvmSagStsSag 0 1 (put .nvmSagStsVinLow 0 (b2n low) (put .nvmSagStsRailLow 0 (b2n railLow) s.dyn))) :
    execSagEnter vin railLow s = .next (s.setDyn (forAll (List.range 64) (fun i d => migAbort s.cfg i 6 d)
      (raise 0x0B0B (leadOr0 d) [b2n low, b2n railLow] d))) := by
  subst hd hlow
  have hseen : (!decide (vin.val < sagLevel s.cfg) && !railLow) = false := by rw [← Bool.not_or, hsign]; rfl
  refine nextDyn_setDyn ?_
  simp only [hseen, hclear, Bool.false_and, Bool.false_eq_true, zero_ne_one, if_false]

theorem execSagExit_noted {s : State} {vin : Fin 1024} {d : Dyn} (hsag : rd s.dyn .nvmSagStsSag 0 ≠ 0)
    (hvin : sagLevel s.cfg + 5 ≤ vin.val)
    (hd : d = put .nvmSagStsSag 0 0 (put .nvmSagStsVinLow 0 0 (put .nvmSagStsRailLow 0 0 s.dyn))) :
    execSagExit vin s = .next (s.setDyn (slotsResume s.cfg (serveGrants s.cfg (arbScan (amdAsk s.cfg
      (nvBegin (raise 0x0B0C (leadOr0 d) [] d))))))) := by
  subst hd
  exact nextDyn_setDyn (if_neg (not_or.mpr ⟨hsag, Nat.not_lt.mpr hvin⟩))

/-! ## Attestation (R77, R467 to R469) -/

/-- A request that is answered with an error: of a kind outside Table 15.11, for a slot other than 0, or of a measurement that does not
exist (R468, R469). -/
def spdmError (q : SpdmReq) (param : Fin 256) (d : Dyn) : Bool :=
  q == .other || q == .vendorDefined || ((q == .getCertificate || q == .challenge || q == .keyExchange) && param != 0)
    || (q == .getMeasurements && (measured d param).isNone)

theorem spdmError_iff {q : SpdmReq} {param : Fin 256} {d : Dyn} : spdmError q param d = true ↔
    q = .other ∨ q = .vendorDefined ∨ param ≠ 0 ∧ (q = .getCertificate ∨ q = .challenge ∨ q = .keyExchange) ∨
      q = .getMeasurements ∧ (measured d param).isNone = true := by
  simp only [spdmError, Bool.or_eq_true, Bool.and_eq_true, beq_iff_eq, bne_iff_ne, ne_eq]
  tauto

theorem spdmError_ideKm (m : IdeKm) (param : Fin 256) (d : Dyn) : spdmError (.ideKm m) param d = false := rfl

/-- A request of Table 15.11 for slot 0 and an index in range is no error. -/
theorem spdmError_eq_false {q : SpdmReq} {param : Fin 256} {d : Dyn} (hother : q ≠ .other) (hvendor : q ≠ .vendorDefined)
    (hslot : param = 0 ∨ q ≠ .getCertificate ∧ q ≠ .challenge ∧ q ≠ .keyExchange)
    (hmeas : q = .getMeasurements → (measured d param).isNone = false) : spdmError q param d = false := by
  refine Bool.eq_false_iff.mpr fun herr => ?_
  rcases spdmError_iff.mp herr with h | h | ⟨hne, hkind⟩ | ⟨h, hnone⟩
  · exact hother h
  · exact hvendor h
  · rcases hslot with h | ⟨hcert, hchal, hkey⟩
    · exact hne h
    · exact hkind.elim hcert fun h => h.elim hchal hkey
  · exact Bool.false_ne_true ((hmeas h).symm.trans hnone)

section

variable {s : State} {h : Host} {lp : Nat} (hup : hostUp s.cfg s.dyn h = true) (hport : hostPort s.cfg s.dyn h = some lp)

include hup hport

theorem execSpdmRequest_ideKm (m : IdeKm) (param : Fin 256) (sign : Bool) :
    execSpdmRequest h (.ideKm m) param sign s = .next (s.setDyn (ideServe lp m s.dyn)) := by
  refine nextDyn_setDyn ?_
  simp only [hup, hport, Bool.not_true, Bool.false_eq_true, if_false, Option.getD_some]

section

variable {q : SpdmReq} {param : Fin 256}

theorem execSpdmRequest_error (herr : spdmError q param s.dyn = true) (sign : Bool) :
    execSpdmRequest h q param sign s = .next (s.setDyn (emit (.spdm lp 0 []) s.dyn)) := by
  refine nextDyn_setDyn ?_
  simp only [hup, hport, Bool.not_true, Bool.false_eq_true, if_false, Option.getD_some]
  cases q with
  | ideKm m => exact absurd ((spdmError_ideKm m param s.dyn).symm.trans herr) Bool.false_ne_true
  | _ => exact if_pos herr

theorem execSpdmRequest_answered {sign : Bool} {l : List Nat} {d : Dyn} (hkind : ∀ m, q ≠ .ideKm m)
    (hgood : spdmError q param s.dyn = false)
    (hl : l = if spdmExtends q then s.dyn.boot.signed.filter fun x => x != h.val else s.dyn.boot.signed)
    (hd : d = { s.dyn with boot := { s.dyn.boot with
      signed := if q == .challenge || q == .keyExchange || (q == .getMeasurements && sign) then l ++ [h.val] else l } }) :
    execSpdmRequest h q param sign s = .next (s.setDyn
      (emit (.spdm lp 1 (if q == .getMeasurements then (measured d param).getD [] else spdmArgs q)) d)) := by
  subst hd hl
  refine nextDyn_setDyn ?_
  simp only [hup, hport, Bool.not_true, Bool.false_eq_true, if_false, Option.getD_some]
  cases q with
  | ideKm m => exact absurd rfl (hkind m)
  | _ => exact if_neg (Bool.eq_false_iff.mp hgood)

end

theorem execGetHybridSig_done :
    execGetHybridSig h s = .next (s.setDyn (emit (.spdm lp (if s.dyn.boot.signed.contains h.val then 2 else 0) [1]) s.dyn)) := by
  refine nextDyn_setDyn ?_
  simp only [hup, hport, Bool.not_true, Bool.false_eq_true, if_false, Option.getD_some]

theorem execGetHybridCert_done : execGetHybridCert h s = .next (s.setDyn (emit (.spdm lp 2 [2]) s.dyn)) := by
  refine nextDyn_setDyn ?_
  simp only [hup, hport, if_true, Option.getD_some]

end

/-- Settles O23: each premise selects the working branch of its command. -/
theorem lateReleaseAndQuarantineCommandsComplete : Obligations.LateReleaseAndQuarantineCommandsComplete := by
  unfold Obligations.LateReleaseAndQuarantineCommandsComplete
  exact ⟨fun s p h hserved hquar => execQuarRestore_served hserved hquar,
    fun s p h hserved hquar => execQuarReclaim_served hserved hquar,
    fun s p h hserved hother => ⟨execQuarRestore_refused hserved hother, execQuarReclaim_refused (served_quar hserved false) hother⟩,
    fun s b lp ld d e hdrain hempty hlp hld hd he => execDrainComplete_left hdrain hempty hlp hld hd he,
    fun s vin low railLow d hlow hsign hclear hd => execSagEnter_noted hlow hsign hclear hd,
    fun s vin d hsag hvin hd => execSagExit_noted hsag hvin hd,
    fun s h lp q param sign l d hup hport hother hvendor hkind hslot hmeas hl hd =>
      execSpdmRequest_answered hup hport hkind (spdmError_eq_false hother hvendor hslot hmeas) hl hd,
    fun s h lp q param sign hup hport herr => execSpdmRequest_error hup hport (spdmError_iff.mpr herr) sign,
    fun s h lp m param sign hup hport => execSpdmRequest_ideKm hup hport m param sign,
    fun s h lp hup hport => ⟨execGetHybridSig_done hup hport, execGetHybridCert_done hup hport⟩⟩

end Machine
end Sys2Proof
end

section
/-! PROOFS. Keys and homes, snoops, grants and the walk for a failed host, writebacks, RETRY and WAKE (R228 to R251): O14, O15 and O51. -/

namespace Sys2Proof
namespace Machine

/-! ## Keys and homes (R228, R229) -/

theorem bits_lt (x lo w : Nat) : bits x lo w < 2 ^ w := Nat.mod_lt _ (Nat.two_pow_pos w)

/-- The XOR of 4-bit groups is a 4-bit number. -/
theorem keyFold_lt (key : Nat) : keyFold key < 16 :=
  forAll_inv (· < 2 ^ 4) (List.range 10) (fun i x => x ^^^ bits key (4 * i) 4)
    (fun i _ hx => Nat.xor_lt_two_pow hx (bits_lt key (4 * i) 4)) 0 (Nat.two_pow_pos 4)

theorem homeSlice_lt (key : Nat) : homeSlice key < 48 := by
  have hfold := keyFold_lt key
  simp only [homeSlice]
  omega

theorem keySet_lt (key : Nat) : keySet key < 16384 :=
  Nat.xor_lt_two_pow (n := 14) (Nat.mod_lt _ (Nat.two_pow_pos 14)) (bits_lt key 14 14)

/-- The bits of a key that its set takes from above bit 13 are bits of its tag. -/
theorem keySet_eq (key : Nat) : keySet key = key % 16384 ^^^ keyTag key % 16384 := rfl

/-- With the tag known, the set gives back the low bits: tag and set together name one key. -/
theorem eq_of_keyTag_keySet {a b : Nat} (htag : keyTag a = keyTag b) (hset : keySet a = keySet b) : a = b := by
  have hlow : a % 16384 = b % 16384 := by
    rw [keySet_eq, keySet_eq, htag] at hset
    exact Nat.xor_left_injective hset
  calc a = 16384 * keyTag a + a % 16384 := (Nat.div_add_mod a 16384).symm
    _ = 16384 * keyTag b + b % 16384 := by rw [htag, hlow]
    _ = b := Nat.div_add_mod b 16384

/-- Settles O51: a home is counted out of a 4-bit fold and a remainder by 3; with the tag known, the XOR of the set can be undone. -/
theorem sharedKeysHaveOneHomeAndPlace : Obligations.SharedKeysHaveOneHomeAndPlace := by
  unfold Obligations.SharedKeysHaveOneHomeAndPlace
  exact ⟨fun key => ⟨homeSlice_lt key, keySet_lt key⟩, fun _ _ => eq_of_keyTag_keySet⟩

/-! ## SHARED_REQUEST (R236, R243) -/

theorem execSharedRequest_taken {s : State} {sl : DSlice} (hruns : sliceStopped s.dyn sl = false) (hits : List EccHit)
    (wbs : List WbHdr) (qs : List SReq) :
    execSharedRequest hits sl wbs qs s = .next (s.setDyn (takeCycle s.cfg sl wbs qs (forAll hits (eccHit s.cfg) s.dyn))) :=
  nextDyn_setDyn (if_neg (Bool.eq_false_iff.mp hruns))

/-! ## SNOOP_RECORD (R234, R238, R239) -/

/-- The snoop that the operation open on a line sends (Table 6.4). -/
def snoopKind (o : OpenLine) : BiSnp :=
  if o.evict then .inv else match o.q.map SReq.op with
    | some .rdS => .data
    | some .rdI => .cur
    | _ => .inv

/-- The same read off the request itself, as the port unit does. -/
theorem snoopKind_eq (o : OpenLine) : (if o.evict then BiSnp.inv else match o.q with
    | some q => match q.op with
      | .rdS => .data
      | .rdI => .cur
      | _ => .inv
    | none => .inv) = snoopKind o := by
  unfold snoopKind
  cases o.q with
  | none => rfl
  | some q => cases hop : q.op <;> simp only [Option.map_some, hop]

section

variable {s : State} {h : Host} {key lp : Nat} (hport : hostPort s.cfg s.dyn h = some lp) (hfirst : earlier s.cfg s.dyn h key = false)

include hport hfirst

section

variable (hnew : (s.dyn.coh.recs.any fun r => r.host == h.val && r.key == key) = false)

include hnew

theorem execSnoopRecord_here {o : OpenLine} (hhome : homeNo s.cfg s.dyn key < 48)
    (hopen : openOf (dirGet s.dyn (homeSlice key)) key = some o) (hwaits : (o.snoops.any fun x => x.1 == h.val) = true)
    (far : Option FarSnoop) :
    execSnoopRecord h key far s = .next (s.setDyn
      (openRec s.cfg h lp key (snoopKind o) (o.q.map fun q => (q.host.val, q.id)) s.dyn)) := by
  refine nextDyn_setDyn ?_
  simp only [hport, hfirst, hnew, hhome, hopen, hwaits, Bool.or_self, Bool.not_true, Bool.false_eq_true, if_false, if_true]
  exact congrArg (openRec s.cfg h lp key · _ s.dyn) (snoopKind_eq o)

theorem execSnoopRecord_far (hhome : 48 ≤ homeNo s.cfg s.dyn key) (b : FarSnoop) :
    execSnoopRecord h key (some b) s = .next (s.setDyn
      (openRec s.cfg h lp key b.kind (b.req.map fun q => (q.1.val, q.2)) s.dyn)) := by
  refine nextDyn_setDyn ?_
  simp only [hport, hfirst, hnew, Nat.not_lt.mpr hhome, Bool.or_self, Bool.false_eq_true, if_false]

end

/-- BICONFLICT is acknowledged once no earlier completion is owed (R234). -/
theorem execBiconflict_acknowledged : execBiconflict h key s = .next (s.setDyn (emit (.biConflictAck lp key) s.dyn)) := by
  refine nextDyn_setDyn ?_
  simp only [hport, hfirst, Bool.false_eq_true, if_false]

end

/-! ## BIRSP (R238, R239) -/

/-- Which writebacks wait at their port units is a question to the flights alone. -/
theorem pendingWb_congr {d e : Dyn} (h : e.flights = d.flights) (host key : Nat) : pendingWb e host key = pendingWb d host key := by
  simp only [pendingWb, h]

/-- A BIRsp flit is counted at its port; a block form raises 0x0206 (R233, R238). -/
def birspCounted (lp sl h key : Nat) (blk : Bool) (d : Dyn) : Dyn :=
  doIf blk (raise 0x0206 (leadOr0 (tallyPort lp 0x10 1 d)) [sl, h, key]) (tallyPort lp 0x10 1 d)

section

variable (lp sl h key : Nat) (blk : Bool) (d : Dyn)

theorem birspCounted_flights : (birspCounted lp sl h key blk d).flights = d.flights :=
  (doIf_keep Dyn.flights blk _ _ (raise_flights ..)).trans (tally_flights ..)

theorem birspCounted_coh : (birspCounted lp sl h key blk d).coh = d.coh :=
  (doIf_keep Dyn.coh blk _ _ (raise_coh ..)).trans (tally_coh ..)

end

theorem execBirsp_recorded {s : State} {h : Host} {key lp : Nat} {r : SnoopRec} {d e : Dyn} (a : BiRsp) (blk : Bool)
    (hhome : homeNo s.cfg s.dyn key < 48) (hruns : sliceStopped s.dyn (homeSlice key) = false)
    (hrec : s.dyn.coh.recs.find? (fun r => r.host == h.val && r.key == key) = some r) (hnone : pendingWb s.dyn h key = none)
    (hport : hostPort s.cfg s.dyn h = some lp) (hd : d = birspCounted lp (homeSlice key) h key blk s.dyn)
    (he : e = { d with coh := { d.coh with recs := d.coh.recs.filter fun r => !(r.host == h.val && r.key == key) } }) :
    execBirsp h key a blk none s = .next (s.setDyn (snoopDone s.cfg (homeSlice key) key h (birspNo a) (dirSet (homeSlice key)
      (match r.wrote with
        | some id => noteWrote key h id (dirGet e (homeSlice key))
        | none => dirGet e (homeSlice key)) e))) := by
  have hpend : pendingWb d h key = none := by rw [hd, pendingWb_congr (birspCounted_flights ..), hnone]
  have hfound : d.coh.recs.find? (fun r => r.host == h.val && r.key == key) = some r := by rw [hd, birspCounted_coh, hrec]
  subst he hd
  simp only [birspCounted] at hpend hfound
  refine nextDyn_setDyn ?_
  simp only [hhome, hruns, hrec, hport, hpend, hfound, decide_true, Bool.and_false, Bool.false_eq_true, if_false, Bool.not_true,
    Option.bind_some]
  rfl

/-! ## GRANT (R236) -/

theorem execGrant_here {s : State} {sl : DSlice} {key : Nat} {o : OpenLine} {q : SReq} {f : Flight}
    (hopen : openOf (dirGet s.dyn sl) key = some o) (hq : o.q = some q) (hphase : o.phase = 2)
    (hflight : flightOf s.dyn q.id = some f) (hnew : f.grant = 0) (hhome : f.home = some (sl.val, key)) :
    execGrant sl key none s = .next (s.setDyn (grantTo s.cfg f (grantState q) o.fwd o.poison s.dyn)) := by
  refine nextDyn_setDyn ?_
  simp only [hopen, hq, hphase, hflight, hnew, hhome, ne_eq, not_true_eq_false, or_self, if_false]

theorem execGrant_far {s : State} {key : Nat} {x : FarGrant} {f : Flight} {sl : DSlice} (hflight : flightOf s.dyn x.id = some f)
    (hnew : f.grant = 0) (hslice : homeSlice key = sl) (hfar : 48 ≤ homeNo s.cfg s.dyn key)
    (hhome : f.home = some (homeNo s.cfg s.dyn key, key)) :
    execGrant sl key (some x) s = .next (s.setDyn (grantTo s.cfg f x.st x.fwd x.poison s.dyn)) := by
  refine nextDyn_setDyn ?_
  simp only [hflight, hnew, hslice, hhome, Nat.not_lt.mpr hfar, ne_eq, not_true_eq_false, or_self, if_false]

/-! ## DONE, BISNP_TIMEOUT and WALK_DONE (R236, R250, R251) -/

theorem execDone_closes {s : State} {sl : DSlice} {key : Nat} {h : Host} {o : OpenLine}
    (hopen : openOf (dirGet s.dyn sl) key = some o) (hphase : o.phase = 2) (hhost : (o.q.map fun q => q.host) = some h)
    (hruns : sliceStopped s.dyn sl = false) (hleft : (s.dyn.flights.any fun f => some f.req.id == o.q.map fun q => q.id) = false) :
    execDone sl key h s = .next (s.setDyn (closeLine s.cfg sl key s.dyn)) := by
  refine nextDyn_setDyn ?_
  simp only [hopen, hphase, hhost, hruns, hleft, Bool.not_false, and_self, if_true]

theorem execBisnpTimeout_late {s : State} {h : Host} {key : Nat} (hlate : ((openOf (dirGet s.dyn (homeSlice key)) key).any fun o =>
      o.snoops.any fun t => t.1 == h.val && decide (t.2 + bisnpTmo s.cfg ≤ s.dyn.now)) = true) :
    execBisnpTimeout h key s = .next (s.setDyn
      (failHost s.cfg h (raise 0x0201 (leadOr0 s.dyn) [homeSlice key, h, key] s.dyn))) :=
  nextDyn_setDyn (if_pos hlate)

/-- The walk register after a walk has ended: the next failed host's walk, or none (R251 step 3). -/
def nextWalk (t : List Nat) (d : Dyn) : Dyn :=
  match t with
  | [] => put .cohWalkStsBusy 0 0 d
  | n :: _ => put .cohWalkStsHost 0 n d

theorem execWalkDone_walked {s : State} {h : Nat} {t : List Nat} {d : Dyn} (hwalks : s.dyn.coh.walks = h :: t)
    (hd : d = forAll (s.dyn.coh.dirs.cells.map Prod.fst) (fun sl d => walkSlice s.cfg h sl d) s.dyn) :
    execWalkDone s = .next (s.setDyn
      (nextWalk t (raise 0x0207 (leadOr0 d) [h] { d with coh := { d.coh with walks := t } }))) := by
  subst hd
  refine nextDyn_setDyn ?_
  simp only [hwalks]
  rfl

/-- Settles O14: each premise selects the working branch of its command. -/
theorem sharedLineCommandsComplete : Obligations.SharedLineCommandsComplete := by
  unfold Obligations.SharedLineCommandsComplete
  exact ⟨fun s hits sl wbs qs hruns => execSharedRequest_taken hruns hits wbs qs,
    fun s h key lp o k far hport hfirst hnew hhome hopen hwaits hk => hk ▸ execSnoopRecord_here hport hfirst hnew hhome hopen hwaits far,
    fun s h key lp b hport hfirst hnew hhome => execSnoopRecord_far hport hfirst hnew hhome b,
    fun s h key lp a blk r d e hhome hruns hrec hnone hport hd he => execBirsp_recorded a blk hhome hruns hrec hnone hport hd he,
    fun s sl key o q f d hopen hq hphase hflight hnew hhome hd => hd ▸ execGrant_here hopen hq hphase hflight hnew hhome,
    fun s sl key x f hflight hnew hslice hfar hhome => execGrant_far hflight hnew hslice hfar hhome,
    fun s sl key h o hopen hphase hhost hruns hleft => execDone_closes hopen hphase hhost hruns hleft,
    fun s h key lp hport hfirst => execBiconflict_acknowledged hport hfirst,
    fun s h key hlate => execBisnpTimeout_late hlate,
    fun s h t d hwalks hd => execWalkDone_walked hwalks hd⟩

/-! ## SNOOP_WRITEBACK (R239) -/

theorem execSnoopWriteback_sent {s : State} {id h sl key : Nat} {f : Flight} {r : SnoopRec} (hflight : flightOf s.dyn id = some f)
    (hhome : f.home = some (sl, key)) (hhost : reqHost s.cfg s.dyn f.req = some h) (hrec : recOf s.dyn h key = some r)
    (hkind : f.req.kind = .memWr) (hnew : f.grant = 0) :
    execSnoopWriteback id s = .next (s.setDyn (snoopWb s.cfg id r s.dyn)) := by
  refine nextDyn_setDyn ?_
  simp only [hflight, hhome, hhost, hrec, hkind, hnew, ne_eq, not_true_eq_false, or_self, if_false]

/-! ## ORDINARY_WRITEBACK (R240, R244) -/

/-- A slice whose clock runs takes an owner's header alone: there is no request to take, and the new entries of the writeback buffer are
answered WB_GO. -/
theorem takeCycle_ownerWb {g : Cfg} {d u : Dyn} {sl : Nat} {x : WbHdr} {w : FarWb} (hruns : sliceStopped d sl = false)
    (hu : u = ungate (48 + sl) d) (hsays : wbSays g u sl x = some w) (hnew : wbKnown (dirGet u sl) x.id w.key = false)
    (hlives : hostFailed u w.host = false) (howner : isOwnerWb (dirGet u sl) w.key w.host = true) :
    takeCycle g sl [x] [] d = forAll ((dirGet (takeWb sl x.id w u) sl).wbs.filter fun w => w.hdr && !w.gone &&
      !((dirGet u sl).wbs.any fun y => y.id == w.id && y.key == w.key)) (fun w d => sendGo sl w d) (takeWb sl x.id w u) := by
  subst hu
  simp only [takeCycle, hruns, hsays, hnew, hlives, howner, List.filterMap_cons, List.filterMap_nil, Option.map_some, List.filter_cons,
    List.filter_nil, Bool.not_true, Bool.not_false, Bool.and_self, Bool.false_eq_true, if_true, if_false, forAll_cons, forAll_nil,
    List.map_nil, List.append_nil, List.length_nil, takeAll]

theorem execOrdinaryWriteback_here {s : State} {id sl key : Nat} {f : Flight} (hflight : flightOf s.dyn id = some f)
    (hhome : f.home = some (sl, key)) (hsl : sl < 48) :
    execOrdinaryWriteback ⟨id, none⟩ s = .next (s.setDyn (takeCycle s.cfg sl [⟨id, none⟩] [] s.dyn)) := by
  refine nextDyn_setDyn ?_
  simp only [hflight, hhome, hsl, Option.bind_some, if_true]

theorem execOrdinaryWriteback_far (id : Nat) (x : FarWb) (s : State) : execOrdinaryWriteback ⟨id, some x⟩ s =
    .next (s.setDyn (takeCycle s.cfg (homeSlice x.key) [⟨id, some x⟩] [] s.dyn)) := nextDyn_setDyn rfl

/-! ## WB_GO and WB_DONE (R240, R241, R248) -/

/-- A writeback of another package that names a request forwards its data to that request. -/
theorem goWb_far (g : Cfg) (id key : Nat) (x : FarGo) (d : Dyn) :
    goWb g id key x.st (x.named.map fun q => (q.1.val, q.2)) d = xlate g id (setFlight id (fun f => { f with grant := 9 + x.st.val })
      (match x.named with
        | some q => emit (.toPu q.1 5 key [q.2]) d
        | none => d)) := by
  unfold goWb
  cases x.named with
  | none => rfl
  | some q => rfl

section

variable {s : State} {id sl key : Nat} {f : Flight} (hflight : flightOf s.dyn id = some f) (hhome : f.home = some (sl, key))

include hflight hhome

theorem execWbGo_here {w : WbRec} {d : Dyn} (hsl : sl < 48)
    (hwb : (dirGet s.dyn sl).wbs.find? (fun w => w.id == id && w.key == key && !w.gone) = some w)
    (hd : d = dirSet sl { dirGet s.dyn sl with
      wbs := mapIf (fun y => y == w) (fun y => { y with gone := true }) (dirGet s.dyn sl).wbs } s.dyn) (far : Option FarGo) :
    execWbGo id far s = .next (s.setDyn (goWb s.cfg id key w.st w.named d)) := by
  subst hd
  refine nextDyn_setDyn ?_
  simp only [hflight, hhome, hwb, Nat.not_le.mpr hsl, if_false]

theorem execWbGo_far (hsl : 48 ≤ sl) (hkind : f.req.kind = .memWr) (hnew : f.grant = 0) (x : FarGo) :
    execWbGo id (some x) s = .next (s.setDyn (xlate s.cfg id (setFlight id (fun f => { f with grant := 9 + x.st.val })
      (match x.named with
        | some q => emit (.toPu q.1 5 key [q.2]) s.dyn
        | none => s.dyn)))) := by
  refine nextDyn_setDyn ?_
  simp only [hflight, hhome, hsl, hkind, hnew, and_self, if_true]
  exact goWb_far s.cfg id key x s.dyn

end

theorem execWbDone_written {s : State} {sl : DSlice} {key : Nat} {h : Host} {w : WbRec} {x : DirSt}
    (hwb : (dirGet s.dyn sl).wbs.find? (fun w => w.key == key && w.host == h.val && w.gone &&
      !(s.dyn.flights.any fun f => f.home == some (sl.val, key) && isWb f && f.req.id == w.id)) = some w)
    (hruns : sliceStopped s.dyn sl = false) (hx : x = { dirGet s.dyn sl with wbs := dropOne w (dirGet s.dyn sl).wbs }) :
    execWbDone sl key h s = .next (s.setDyn (seekAgain s.cfg sl (tryGrant sl key (dirSet sl
      { x with evTab := if wbOpen x key then x.evTab else x.evTab.filter fun y => y != key } s.dyn)))) := by
  subst hx
  refine nextDyn_setDyn ?_
  simp only [hwb, hruns, Bool.false_eq_true, if_false]

/-! ## RETRY and WAKE (R245, R246) -/

theorem execRetry_kept {s : State} {sl : DSlice} {q : SReq} {n : Nat}
    (hn : n = if homeSlice q.key = sl then homeNo s.cfg s.dyn q.key else sl.val)
    (hnew : (s.dyn.coh.retried.any fun y => y.1 == n && y.2.id == q.id) = false) :
    execRetry sl q s = .next (s.setDyn { s.dyn with coh := { s.dyn.coh with
      retried := s.dyn.coh.retried ++ [(n, { q with oldest := false })] } }) := by
  subst hn
  exact nextDyn_setDyn (if_neg (Bool.eq_false_iff.mp hnew))

/-- A message to a slice of this package needs no way out of it. -/
theorem farMsg_here {n : Nat} (h : n < 48) (pu plane : Nat) (d : Dyn) : farMsg n pu plane d = d := if_pos h

section

variable {s : State} {sl : DSlice} {src : Fin 52} {q : SReq}

theorem execWake_sent (hfree : (rsvUsed (dirGet s.dyn sl)).contains src.val = false)
    (hold : oldestRetried s.dyn.coh.retried sl src = some q) :
    execWake sl none src s = .next (s.setDyn (emit (.toHome sl { q with oldest := true }) { s.dyn with coh := { s.dyn.coh with
      retried := s.dyn.coh.retried.filter fun y => !(y.1 == sl.val && y.2.id == q.id) } })) := by
  refine nextDyn_setDyn ?_
  simp only [hold, hfree, Bool.and_false, Bool.false_eq_true, if_false, farMsg_here sl.isLt]

theorem execWake_owed (hused : (rsvUsed (dirGet s.dyn sl)).contains src.val = true)
    (hold : oldestRetried s.dyn.coh.retried sl src = some q) :
    execWake sl none src s = .next (s.setDyn (dirSet sl
      { dirGet s.dyn sl with owed := (dirGet s.dyn sl).owed ++ [src.val] } s.dyn)) := by
  refine nextDyn_setDyn ?_
  simp only [hold, hused, Option.isNone_none, Bool.and_self, if_true]

theorem execWake_far {pkg : Fin 8} {n : Nat} (hn : n = 48 * (1 + pkg.val + 8 * cg s.cfg .gklSysRouteExitDie pkg) + sl.val)
    (hold : oldestRetried s.dyn.coh.retried n src = some q) :
    execWake sl (some pkg) src s = .next (s.setDyn (farMsg n src 0 (emit (.toHome n { q with oldest := true })
      { s.dyn with coh := { s.dyn.coh with retried := s.dyn.coh.retried.filter fun y => !(y.1 == n && y.2.id == q.id) } }))) := by
  subst hn
  refine nextDyn_setDyn ?_
  simp only [hold, Option.isNone_some, Bool.false_and, Bool.false_eq_true, if_false]

end

/-- Settles O15: each premise selects the working branch of its command. -/
theorem writebackAndRetryCommandsComplete : Obligations.WritebackAndRetryCommandsComplete := by
  unfold Obligations.WritebackAndRetryCommandsComplete
  exact ⟨fun s id h sl key f r d hflight hhome hhost hrec hkind hnew hd =>
      hd ▸ execSnoopWriteback_sent hflight hhome hhost hrec hkind hnew,
    fun s id sl key f w u d hflight hhome hsl hruns hu hsays hnew hlives howner hd => by
      subst hd
      rw [← takeCycle_ownerWb hruns hu hsays hnew hlives howner]
      exact execOrdinaryWriteback_here hflight hhome hsl,
    fun s id x => execOrdinaryWriteback_far id x s,
    fun s id sl key f w far d hflight hhome hsl hwb hd => execWbGo_here hflight hhome hsl hwb hd far,
    fun s id sl key f x hflight hhome hsl hkind hnew => execWbGo_far hflight hhome hsl hkind hnew x,
    fun s sl key h w x hwb hruns hx => execWbDone_written hwb hruns hx,
    fun s sl q n hn hnew => execRetry_kept hn hnew,
    fun s sl src q hfree hold => execWake_sent hfree hold,
    fun s sl src q hused hold => execWake_owed hused hold,
    fun s sl pkg src q n hn hold => execWake_far hn hold⟩

end Machine
end Sys2Proof
end

section
/-! PROOFS. Which access rule decides (R261 to R263): O49. -/

namespace Sys2Proof
namespace Machine

/-! ## The listed indices of a configuration field -/

/-- A listed value stands in a cell of its key. -/
theorem mem_of_cellsFind {α : Type} {k : Nat} {v : α} {l : List (Nat × α)} (h : cellsFind k l = some v) : (k, v) ∈ l := by
  induction l with
  | nil => exact nomatch h
  | cons c t ih =>
    by_cases hk : c.1 = k
    · simp only [cellsFind, hk, if_true, Option.some.injEq] at h
      exact List.mem_cons.mpr (.inl (Prod.ext hk.symm h.symm))
    · simp only [cellsFind, hk, if_false] at h
      exact List.mem_cons_of_mem c (ih h)

/-- No key of a sorted list of cells is below its bound. -/
theorem cellsSorted_le {α : Type} {lo : Nat} {l : List (Nat × α)} (h : cellsSorted lo l = true) {c : Nat × α} (hc : c ∈ l) : lo ≤ c.1 := by
  induction l generalizing lo with
  | nil => exact nomatch hc
  | cons x t ih =>
    simp only [cellsSorted, Bool.and_eq_true, decide_eq_true_eq] at h
    obtain ⟨hx, ht⟩ := h
    rcases List.mem_cons.mp hc with rfl | hc
    · exact hx
    · have := ih ht hc
      omega

theorem cellsSorted_pairwise {α : Type} {lo : Nat} {l : List (Nat × α)} (h : cellsSorted lo l = true) :
    l.Pairwise fun c c' => c.1 < c'.1 := by
  induction l generalizing lo with
  | nil => exact .nil
  | cons x t ih =>
    simp only [cellsSorted, Bool.and_eq_true] at h
    exact List.pairwise_cons.mpr ⟨fun _ hc => cellsSorted_le h.2 hc, ih h.2⟩

/-- A field's listed indices rise, as the keys do. -/
theorem cfgListed_rising {g : Cfg} (hg : cfgForm g) (f : CFld) : (cfgListed g f).Pairwise (· < ·) := by
  refine List.Pairwise.filterMap _ (fun c c' hlt i hi j hj => ?_) (cellsSorted_pairwise hg.1)
  simp only [Option.ite_none_right_eq_some, Option.some.injEq] at hi hj
  omega

theorem cKey_mod (f : CFld) (i : Nat) : cKey f i % 1024 = f.ctorIdx := by
  have := cfld_idx_lt f
  simp only [cKey]
  omega

theorem cKey_div (f : CFld) (i : Nat) : cKey f i / 1024 = i := by
  have := cfld_idx_lt f
  simp only [cKey]
  omega

/-- An index at which a field differs from its reset value is listed. -/
theorem mem_cfgListed {g : Cfg} {f : CFld} {i : Nat} (h : cg g f i ≠ cfgReset f i) : i ∈ cfgListed g f := by
  cases hfind : cellsFind (cKey f i) g.cells with
  | none => exact absurd (by simp only [cg, aget, hfind, Option.getD_none]) h
  | some v =>
    exact List.mem_filterMap.mpr ⟨_, mem_of_cellsFind hfind, by rw [if_pos (cKey_mod f i), cKey_div]⟩

/-! ## The deciding rule -/

theorem mem_rulesV {g : Cfg} {i : Nat} : i ∈ rulesV g ↔ cg g .gateRuleReqV i = 1 := by
  simp only [rulesV, List.mem_filter, beq_iff_eq, and_iff_right_iff_imp]
  intro h
  exact mem_cfgListed (by rw [h]; exact Nat.one_ne_zero)

theorem rulesV_rising {g : Cfg} (hg : cfgForm g) : (rulesV g).Pairwise (· < ·) := (cfgListed_rising hg _).filter _

/-- In a rising list the search ends at the least element that passes. -/
theorem find?_rising {l : List Nat} {p : Nat → Bool} {i : Nat} (hl : l.Pairwise (· < ·)) (hi : i ∈ l) (hp : p i = true)
    (hlow : ∀ j ∈ l, j < i → p j = false) : l.find? p = some i := by
  obtain ⟨as, bs, rfl⟩ := List.append_of_mem hi
  obtain ⟨-, -, hlt⟩ := List.pairwise_append.mp hl
  refine List.find?_eq_some_iff_append.mpr ⟨hp, as, bs, rfl, fun j hj => ?_⟩
  rw [hlow j (List.mem_append_left _ hj) (hlt j hj i (List.mem_cons_self ..)), Bool.not_false]

section

variable {g : Cfg} {r : Req} {host : Option Nat} {addr : Nat}

/-- The lowest-numbered rule that matches the request and covers the address decides (R262). -/
theorem deciding_eq_some {i : Nat} (hg : cfgForm g) (hv : cg g .gateRuleReqV i = 1) (hmatch : ruleMatch g i r host = true)
    (hcov : ruleCovers g i addr = true)
    (hlow : ∀ j, j < i → cg g .gateRuleReqV j = 1 → ruleMatch g j r host = true → ruleCovers g j addr = false) :
    deciding g r host addr = some i :=
  find?_rising (rulesV_rising hg) (mem_rulesV.mpr hv) (Bool.and_eq_true_iff.mpr ⟨hmatch, hcov⟩) fun j hj hlt =>
    Bool.and_eq_false_imp.mpr (hlow j hlt (mem_rulesV.mp hj))

theorem deciding_eq_none
    (h : ∀ i, cg g .gateRuleReqV i = 1 → ruleMatch g i r host = true → ruleCovers g i addr = false) :
    deciding g r host addr = none :=
  List.find?_eq_none.mpr fun i hi =>
    Bool.eq_false_iff.mp (Bool.and_eq_false_imp.mpr (h i (mem_rulesV.mp hi)))

theorem permits_of_rule {i : Nat} (h : deciding g r host addr = some i) (kind : Nat) :
    permits g r host kind addr = bitAt (cg g .gateRuleReqKinds i) kind := by
  simp only [permits, h]

theorem permits_of_none (h : deciding g r host addr = none) (kind : Nat) : permits g r host kind addr = dfltBit g r.tgt := by
  simp only [permits, h]

end

theorem bitAt_zero (k : Nat) : bitAt 0 k = false := by simp only [bitAt, Nat.zero_div, Nat.zero_mod, Nat.reduceBEq]

theorem ruleBad_iff {g : Cfg} {i : Nat} :
    ruleBad g i = true ↔ cg g .gateRuleLimitPage i < cg g .gateRuleBasePage i ∨ cg g .gateRuleTgtTkind i = 3 := by
  simp only [ruleBad, Bool.or_eq_true, decide_eq_true_eq, beq_iff_eq]

/-- A rule with LIMIT below BASE or a reserved TKIND never matches (R263). -/
theorem ruleMatch_bad {g : Cfg} {i : Nat} (h : ruleBad g i = true) (r : Req) (host : Option Nat) : ruleMatch g i r host = false := by
  simp only [ruleMatch, h, Bool.not_true, Bool.false_and]

/-- Settles O49: the rules with V = 1 are searched in rising order, so the first that matches and covers is the lowest. -/
theorem lowestMatchingRuleDecides : Obligations.LowestMatchingRuleDecides := by
  unfold Obligations.LowestMatchingRuleDecides
  intro g r host kind addr hg
  refine ⟨fun i hv hmatch hcov hlow => ?_, fun hnone => permits_of_none (deciding_eq_none hnone) kind,
    fun i hbad => ruleMatch_bad (ruleBad_iff.mpr hbad) r host⟩
  have hpermits := permits_of_rule (deciding_eq_some hg hv hmatch hcov hlow) kind
  refine ⟨hpermits, fun hkinds => ?_⟩
  rw [hpermits, hkinds, bitAt_zero]

end Machine
end Sys2Proof
end

section
/-! PROOFS. Generations, the SYNC barrier and the violation log (R273 to R281): O1. -/

namespace Sys2Proof
namespace Machine

/-! ## The test of R276 -/

/-- The test of DONE writes DONE, and nothing else. -/
theorem syncCheck_keep {β : Type} (r : Dyn → β) (hput : ∀ v d, r (put .gateSyncDoneDone 0 v d) = r d) (d : Dyn) :
    r (syncCheck d) = r d := doIf_keep r _ _ d (hput 1 d)

@[simp] theorem syncCheck_gate (d : Dyn) : (syncCheck d).gate = d.gate := syncCheck_keep (fun d => d.gate) (fun _ _ => rfl) d
@[simp] theorem syncCheck_flights (d : Dyn) : (syncCheck d).flights = d.flights :=
  syncCheck_keep (fun d => d.flights) (fun _ _ => rfl) d
@[simp] theorem syncCheck_ev (d : Dyn) : (syncCheck d).ev = d.ev := syncCheck_keep (fun d => d.ev) (fun _ _ => rfl) d
@[simp] theorem syncCheck_out (d : Dyn) : (syncCheck d).out = d.out := syncCheck_keep (fun d => d.out) (fun _ _ => rfl) d

@[simp] theorem rd_syncCheck {f : SFld} (h : f ≠ .gateSyncDoneDone) (i : Nat) (d : Dyn) : rd (syncCheck d) f i = rd d f i :=
  syncCheck_keep (fun d => rd d f i) (fun _ _ => rd_put_fld h ..) d

/-- A DONE of 0 becomes 1 exactly when R276 is satisfied. -/
theorem rd_syncCheck_done {d : Dyn} (h : rd d .gateSyncDoneDone 0 = 0) : rd (syncCheck d) .gateSyncDoneDone 0 = b2n (syncMet d) := by
  cases hmet : syncMet d with
  | true => simp only [syncCheck, doIf, h, hmet, beq_self_eq_true, Bool.and_self, if_true, rd_put_same]; rfl
  | false => simp only [syncCheck, doIf, h, hmet, Bool.and_false, Bool.false_eq_true, if_false]; rfl

/-! ## GEN_INSTALLED (R273, R274) -/

/-- A reading that raising an event and the change before it keep is kept where the two are conditional. -/
theorem raiseIf_keep {β : Type} {r : Dyn → β} (hraise : ∀ c k l d, r (raise c k l d) = r d) {p : Prop} [Decidable p] {d e : Dyn}
    (he : r e = r d) (code die : Nat) (args : List Nat) : r (if p then raise code die args e else d) = r d := by
  split
  · rw [hraise, he]
  · rfl

/-- A die that installs its next generation has it in force; besides that only registers, events and the noting of what was told and of
the register files still needed change. -/
theorem genInstall_keep {β : Type} (r : Dyn → β) (hput : ∀ f i v d, r (put f i v d) = r d)
    (hraise : ∀ c k l d, r (raise c k l d) = r d)
    (hnote : ∀ (d : Dyn) b t x, r { d with gate := { d.gate with badTold := b, told := t, snaps := x } } = r d)
    {d : Dyn} {die : Nat} (h : genOf d die + 1 ≤ d.gate.newest) (g : Cfg) :
    r (genInstall g die d) = r { d with gate := { d.gate with inForce := d.gate.inForce.set die (genOf d die + 1) } } := by
  rw [genInstall, if_pos h]
  -- from the outside in: the test of R276 and the pruning, the two events, BAD_RULES
  refine (syncCheck_keep r (hput _ _) _).trans ((hnote _ _ _ _).trans ?_)
  refine (raiseIf_keep hraise (hnote _ _ _ _) ..).trans ((raiseIf_keep hraise (hnote _ _ _ _) ..).trans ?_)
  exact hput _ _ _ _

section

variable {d : Dyn} {die : Nat}

theorem genInstall_inForce (h : genOf d die + 1 ≤ d.gate.newest) (g : Cfg) :
    (genInstall g die d).gate.inForce = d.gate.inForce.set die (genOf d die + 1) :=
  genInstall_keep (fun d => d.gate.inForce) (fun _ _ _ _ => rfl) (fun _ _ _ _ => congrArg _ (raise_gate ..)) (fun _ _ _ _ => rfl) h g

theorem genInstall_newest (h : genOf d die + 1 ≤ d.gate.newest) (g : Cfg) : (genInstall g die d).gate.newest = d.gate.newest :=
  genInstall_keep (fun d => d.gate.newest) (fun _ _ _ _ => rfl) (fun _ _ _ _ => congrArg _ (raise_gate ..)) (fun _ _ _ _ => rfl) h g

theorem genInstall_flights (h : genOf d die + 1 ≤ d.gate.newest) (g : Cfg) : (genInstall g die d).flights = d.flights :=
  genInstall_keep (fun d => d.flights) (fun _ _ _ _ => rfl) (fun _ _ _ _ => raise_flights ..) (fun _ _ _ _ => rfl) h g

theorem genOf_genInstall_same (hdie : die < d.gate.inForce.length) (h : genOf d die + 1 ≤ d.gate.newest) (g : Cfg) :
    genOf (genInstall g die d) die = genOf d die + 1 := by
  rw [genOf, genInstall_inForce h, List.getElem?_set_self hdie, Option.getD_some]

theorem genOf_genInstall_ne {k : Nat} (hk : k ≠ die) (h : genOf d die + 1 ≤ d.gate.newest) (g : Cfg) :
    genOf (genInstall g die d) k = genOf d k := by
  rw [genOf, genInstall_inForce h, List.getElem?_set_ne hk.symm, genOf]

end

/-! ## The barrier's commands (R276, R278) -/

/-- A barrier's start clears DONE and then tests it for the newest generation. -/
theorem rd_syncStart_done (d : Dyn) : rd (syncStart d) .gateSyncDoneDone 0 =
    b2n (d.gate.inForce.all (fun x => decide (d.gate.newest ≤ x)) && d.flights.all fun f => decide (d.gate.newest ≤ f.gen)) := by
  rw [syncStart, rd_syncCheck_done (rd_put_same ..)]
  rfl

theorem rd_syncStart_target (d : Dyn) : rd (syncStart d) .gateSyncTargetGen 0 = d.gate.newest % 65536 := by
  have hne : SFld.gateSyncTargetGen ≠ .gateSyncDoneDone := nofun
  rw [syncStart, rd_syncCheck hne, rd_put_fld hne, rd_put_same]
  exact Nat.mod_mod ..

theorem execSyncDone_committed {s : State} {id : Nat} (hleft : inSwitch s.dyn id = false) : execSyncDone id s =
    .next (s.setDyn (syncCheck { s.dyn with flights := s.dyn.flights.filter fun f => f.req.id != id })) := by
  simp only [execSyncDone, nextDyn_eq, hleft, Bool.false_eq_true, if_false]
  rfl

theorem execSyncSlow_told {s : State} (hdone : rd s.dyn .gateSyncDoneDone 0 = 0) (hfirst : s.dyn.gate.warned = false)
    (hlate : s.dyn.gate.syncAt + max 1 (cg s.cfg .gateCtlSyncWarnMs 0) * 1000000 ≤ s.dyn.now) :
    execSyncSlow s = .next (s.setDyn (raise 0x0504 (leadOr0 s.dyn) [s.dyn.gate.target]
      { s.dyn with gate := { s.dyn.gate with warned := true } })) := by
  simp only [execSyncSlow, nextDyn_eq, hdone, hfirst, hlate, beq_self_eq_true, Bool.not_false, decide_true, Bool.and_self, if_true]
  rfl

/-- Settles O1: an installation changes what one die has in force, and each barrier command ends in the test of R276. -/
theorem gateCommandsComplete : Obligations.GateCommandsComplete := by
  unfold Obligations.GateCommandsComplete
  refine ⟨fun s die hlen hnew => ⟨_, rfl, genOf_genInstall_same (die.isLt.trans_eq hlen.symm) hnew _, fun k hk =>
      genOf_genInstall_ne hk hnew _, genInstall_flights hnew _, genInstall_newest hnew _⟩,
    fun s => ⟨_, rfl, congrArg GateSt.target (syncCheck_gate _), rd_syncStart_target _, rd_syncStart_done _,
      syncCheck_flights _, syncCheck_ev _, syncCheck_out _⟩,
    fun s id hleft hdone => ⟨_, execSyncDone_committed hleft, syncCheck_flights _, ?_, syncCheck_gate _, syncCheck_ev _,
      syncCheck_out _⟩,
    fun s hdone hfirst hlate => execSyncSlow_told hdone hfirst hlate,
    fun _ _ _ => rfl⟩
  rw [rd_syncCheck_done (by exact hdone), syncCheck_flights]
  rfl

end Machine
end Sys2Proof
end

section
/-! PROOFS. The policer's marker and the floors of its rates and buckets (R297, R298, R300): O50. -/

namespace Sys2Proof
namespace Machine

/-! ## The policer (R297, R298) -/

section

variable {aware : Bool} {pre b tc tp : Nat}

/-- A charge of 0 is green and takes nothing. -/
theorem policeMark_free (aware : Bool) (pre tc tp : Nat) : policeMark aware pre 0 tc tp = (0, tc, tp) := if_pos rfl

/-- Beyond the peak bucket a request is red, whatever its colour before. -/
theorem policeMark_overPeak (hb : 0 < b) (htp : tp < b) : policeMark aware pre b tc tp = (2, tc, tp) := by
  rw [policeMark, if_neg hb.ne', if_pos htp, ite_self]

/-- A colour-aware policer leaves a red request red; a pre-colour of 3 counts as red (Table 8.3). -/
theorem policeMark_staysRed (hb : 0 < b) (haware : aware = true) (hpre : 2 ≤ pre) :
    policeMark aware pre b tc tp = (2, tc, tp) := by
  rw [policeMark, if_neg hb.ne', if_pos (by rw [haware, decide_eq_true hpre]; rfl)]

/-- Within the peak bucket and not red before, the request is yellow or green by its colour before and the committed bucket. -/
theorem policeMark_withinPeak (hb : 0 < b) (htp : b ≤ tp) (hpre : aware = false ∨ pre ≤ 1) :
    policeMark aware pre b tc tp =
      if (aware && pre == 1) || decide (tc < b) then (1, tc, tp - b) else (0, tc - b, tp - b) := by
  have hnotRed : ¬ (aware && decide (2 ≤ pre)) = true := by
    rw [Bool.and_eq_true, decide_eq_true_eq]
    rintro ⟨haware, hred⟩
    rcases hpre with hblind | hle
    · exact absurd (haware.symm.trans hblind) (by decide)
    · omega
  rw [policeMark, if_neg hb.ne', if_neg hnotRed, if_neg (Nat.not_lt.mpr htp)]

theorem policeMark_yellow (hb : 0 < b) (htp : b ≤ tp) (hpre : aware = false ∨ pre ≤ 1)
    (hyellow : tc < b ∨ (aware = true ∧ pre = 1)) : policeMark aware pre b tc tp = (1, tc, tp - b) := by
  rw [policeMark_withinPeak hb htp hpre, if_pos]
  rw [Bool.or_eq_true, Bool.and_eq_true, beq_iff_eq, decide_eq_true_eq]
  exact hyellow.symm

theorem policeMark_green (hb : 0 < b) (htp : b ≤ tp) (htc : b ≤ tc) (hpre : aware = false ∨ pre = 0) :
    policeMark aware pre b tc tp = (0, tc - b, tp - b) := by
  rw [policeMark_withinPeak hb htp (hpre.imp_right fun h => by omega), if_neg]
  rw [Bool.or_eq_true, Bool.and_eq_true, beq_iff_eq, decide_eq_true_eq]
  rintro (⟨haware, hone⟩ | hover)
  · rcases hpre with hblind | hzero
    · exact absurd (haware.symm.trans hblind) (by decide)
    · omega
  · omega

end

section

variable {g : Cfg} {h : Nat}

theorem pirOf_raised (hlow : cg g .qosPolPirPir h < cg g .qosPolRateCir h) : pirOf g h = cg g .qosPolRateCir h :=
  max_eq_right hlow.le

theorem pirOf_own (hle : cg g .qosPolRateCir h ≤ cg g .qosPolPirPir h) : pirOf g h = cg g .qosPolPirPir h := max_eq_left hle

theorem cbsOf_zero (hzero : cg g .qosPolBktCbs h = 0) : cbsOf g h = 1024 := by rw [cbsOf, hzero]; rfl

theorem pbsOf_zero (hzero : cg g .qosPolBktPbs h = 0) : pbsOf g h = 1024 := by rw [pbsOf, hzero]; rfl

end

/-- Settles O50: each case of the marker is one branch of R297, and the floors of R298 are maxima. -/
theorem policerColoursAndBuckets : Obligations.PolicerColoursAndBuckets := by
  unfold Obligations.PolicerColoursAndBuckets
  exact ⟨fun aware pre b tc tp hb => ⟨policeMark_overPeak hb, policeMark_staysRed hb, policeMark_yellow hb, policeMark_green hb⟩,
    policeMark_free, fun g h => pirOf_raised, fun g h => pirOf_own, fun g h => cbsOf_zero, fun g h => pbsOf_zero⟩

end Machine
end Sys2Proof
end

section
/-! PROOFS. Refill, and selecting, clearing and freezing counters (R307, R308, R310, R496 to R505): O2. -/

namespace Sys2Proof
namespace Machine

/-! ## Sparse arrays restricted to some keys -/

theorem cellsFind_filter_key {α : Type} (p : Nat → Bool) (l : List (Nat × α)) (k : Nat) :
    cellsFind k (l.filter fun c => p c.1) = if p k then cellsFind k l else none := by
  induction l with
  | nil => simp [cellsFind]
  | cons c t ih =>
    by_cases hk : c.1 = k
    · subst hk
      by_cases hc : p c.1 = true <;> simp [cellsFind, hc, ih]
    · by_cases hc : p c.1 = true <;> simp [cellsFind, hk, hc, ih]

/-- After a restriction by key the keys kept read as before, all others as the default. -/
theorem aget_akeep_key {α : Type} (dflt : α) (p : Nat → Bool) (a : Arr α) (k : Nat) :
    aget dflt (akeep (fun k _ => p k) a) k = if p k then aget dflt a k else dflt := by
  simp only [aget, akeep, cellsFind_filter_key]
  split <;> rfl

/-! ## Slice counters (R505) -/

theorem slcClear_slc (sl j : Nat) (d : Dyn) :
    aget 0 (slcClear sl d).cnt.slc j = if j / 8 = sl then 0 else aget 0 d.cnt.slc j := by
  simp [slcClear, aget_akeep_key 0 fun k => k / 8 != sl]

theorem slcClear_slcO (sl j : Nat) (d : Dyn) :
    aget 0 (slcClear sl d).cnt.slcO j = if j / 8 = sl then 0 else aget 0 d.cnt.slcO j := by
  simp [slcClear, aget_akeep_key 0 fun k => k / 8 != sl]

/-- A slice's eight counters and their overflow bits read 0 after it is cleared. -/
theorem slcClear_own (sl : Nat) (k : Fin 8) (d : Dyn) :
    aget 0 (slcClear sl d).cnt.slc (sl * 8 + k) = 0 ∧ aget 0 (slcClear sl d).cnt.slcO (sl * 8 + k) = 0 := by
  have hown : (sl * 8 + k.val) / 8 = sl := by omega
  rw [slcClear_slc, slcClear_slcO, if_pos hown, if_pos hown]
  exact ⟨rfl, rfl⟩

/-- Those of other slices stay. -/
theorem slcClear_other {sl j : Nat} (hj : j / 8 ≠ sl) (d : Dyn) :
    aget 0 (slcClear sl d).cnt.slc j = aget 0 d.cnt.slc j ∧ aget 0 (slcClear sl d).cnt.slcO j = aget 0 d.cnt.slcO j := by
  rw [slcClear_slc, slcClear_slcO, if_neg hj, if_neg hj]
  exact ⟨rfl, rfl⟩

/-! ## Selection (R496, R497) -/

section

variable {die i w : Nat} {d : Dyn}

/-- A fixed counter takes EN and QUAL alone. -/
theorem selWrite_fixed (hfixed : ctrFixed i = true) : selWrite die i w d =
    put .pmcSelEn (die * 1024 + i) (bits w 31 1) (put .pmcSelQual (die * 1024 + i) (bits w 27 4) d) := if_pos hfixed

variable (hprog : ctrFixed i = false)

include hprog

/-- A programmable counter takes an event of its owner. -/
theorem selWrite_listed (hev : evListed i (bits w 16 8) = true) : selWrite die i w d =
    put .pmcSelBad (die * 1024 + i) 0 (put .pmcSelEvent (die * 1024 + i) (bits w 16 8)
      (put .pmcSelThr (die * 1024 + i) (bits w 0 16) (put .pmcSelEn (die * 1024 + i) (bits w 31 1)
        (put .pmcSelQual (die * 1024 + i) (bits w 27 4) d)))) :=
  (if_neg (Bool.eq_false_iff.mp hprog)).trans (if_pos hev)

/-- An event that its owner does not have sets BAD and is told. -/
theorem selWrite_unlisted (hev : evListed i (bits w 16 8) = false) : selWrite die i w d =
    raise 0x0D03 die [i] (put .pmcSelBad (die * 1024 + i) 1 (put .pmcSelEvent (die * 1024 + i) (bits w 16 8)
      (put .pmcSelThr (die * 1024 + i) (bits w 0 16) (put .pmcSelEn (die * 1024 + i) (bits w 31 1)
        (put .pmcSelQual (die * 1024 + i) (bits w 27 4) d))))) :=
  (if_neg (Bool.eq_false_iff.mp hprog)).trans (if_neg (Bool.eq_false_iff.mp hev))

end

theorem execSelWrite_next {die : Die} {i : Fin 1024} {w : Word} {s : State} {d : Dyn} (h : selWrite die i w.toNat s.dyn = d) :
    execSelWrite die i w s = .next (s.setDyn d) := nextDyn_setDyn h

/-! ## Clearing and freezing (R499, R500, R505) -/

theorem execClr_one (die : Die) (i : Fin 1024) (s : State) : execClr die false i s =
    .next (s.setDyn (put .pmcValCount (die * 1024 + i) 0 (put .pmcValOvf (die * 1024 + i) 0 s.dyn))) := nextDyn_setDyn rfl

theorem execSlcClr_next (sl : Slc) (s : State) : execSlcClr sl s = .next (s.setDyn (slcClear sl s.dyn)) := nextDyn_setDyn rfl

theorem execFreeze_next (on : Bool) (s : State) : execFreeze on s = .next (s.setDyn (put .pmcCtlFreeze 0 (b2n on) s.dyn)) :=
  nextDyn_setDyn rfl

/-! ## Refill (R307, R308, R310) -/

theorem execRefill_due {s : State} (hdue : refillDue s.dyn = true) : execRefill s =
    .next (s.setDyn (forAll (goneSlices (qCfg s.cfg s.dyn) s.cfg) (ringsSlice s.cfg)
      (forAll (newSlices (qCfg s.cfg s.dyn) s.cfg ++ movedSlices (qCfg s.cfg s.dyn) s.cfg) slcClear
        (refillAll s.cfg s.dyn)))) :=
  nextDyn_setDyn (if_neg (by rw [hdue]; decide))

/-- Settles O2: a refill that is due runs, the kind of the counter and its owner's events select the branch of a selection, and
clearing a slice is a restriction to the keys of the others. -/
theorem counterCommandsComplete : Obligations.CounterCommandsComplete := by
  unfold Obligations.CounterCommandsComplete
  exact ⟨fun s hdue => execRefill_due hdue,
    fun s die i w hfixed => execSelWrite_next (selWrite_fixed hfixed),
    fun s die i w hprog hev => execSelWrite_next (selWrite_listed hprog hev),
    fun s die i w hprog hev => execSelWrite_next (selWrite_unlisted hprog hev),
    fun s die i => execClr_one die i s,
    fun s sl => ⟨slcClear sl s.dyn, execSlcClr_next sl s, fun k => slcClear_own sl k s.dyn, fun j hj => slcClear_other hj s.dyn, rfl⟩,
    fun s on => execFreeze_next on s⟩

end Machine
end Sys2Proof
end

section
/-! PROOFS. The entries of the work rings (R285, R321 to R329, R336): O33. -/

namespace Sys2Proof
namespace Machine

/-! ## COPY and FILL (R321, R322, R336) -/

section

variable {g : Cfg} {d : Dyn} {n idx op : Nat} {e : RingEnt} (hent : entReady d n idx op = some e)

include hent

/-- An operand that fails a check other than the gate's completes the entry with that check's status. -/
theorem moveStart_stopped {st : Nat} (hcheck : moveCheck g d n e = some (st, none)) :
    moveStart g n idx op d = entDone g n idx st 0 [0] d := by
  simp only [moveStart, hent, hcheck]

/-- With every check passed the entry's job goes to the data mover, and a flight stands for it. -/
theorem moveStart_job {r : Ring} (hcheck : moveCheck g d n e = none) (hr : r = ringGet d n) :
    moveStart g n idx op d = jobsStart g r.die (setEnt n idx
      (fun e => { e with started := true, job := some ⟨genOf d r.die, 0, 0, false, false, false, false, false, 0, false, 0⟩ })
      { d with flights := d.flights ++ [⟨jobReq g d r.host (jobId n idx) .memWr 0 0, r.die, genOf d r.die, none, 0, none, [], false,
        .light, none, 0, 0, none, false⟩] }) := by
  subst hr
  simp only [moveStart, hent, hcheck]

end

section

variable {s : State} {n : RingId} {idx : Nat} {e : RingEnt} {d : Dyn}

theorem execCopy_next (h : moveStart s.cfg n idx 3 s.dyn = d) : execCopy n idx s = .next (s.setDyn d) := nextDyn_setDyn h

theorem execFill_next (h : moveStart s.cfg n idx 4 s.dyn = d) : execFill n idx s = .next (s.setDyn d) := nextDyn_setDyn h

/-! ## NOP and FENCE (Table 9.4, R326) -/

theorem execNop_done (hent : entReady s.dyn n idx 0 = some e) :
    execNop n idx s = .next (s.setDyn (entDone s.cfg n idx 0 0 [] s.dyn)) := nextDyn_setDyn (by simp only [hent])

theorem execFence_done (hent : entReady s.dyn n idx 7 = some e) :
    execFence n idx s = .next (s.setDyn (entDone s.cfg n idx 0 0 [] s.dyn)) := nextDyn_setDyn (by simp only [hent])

/-! ## HINT (R324) -/

theorem execHint_permitted {h lo k pgs : Nat} (hent : entReady s.dyn n idx 5 = some e) (hh : h = (ringGet s.dyn n).host)
    (hlo : lo = argAt e.w 0 / 2097152) (hk : k = min (bits (argAt e.w 1) 0 28) (ldPages s.cfg h - lo))
    (hmay : ringPriv s.cfg s.dyn n = true ∨ ((List.range k).any fun i => sharedPage s.cfg h (lo + i)) = false)
    (hpgs : pgs = ((List.range k).filter fun i => (ptGet s.dyn h (lo + i)).state == 1 || (ptGet s.dyn h (lo + i)).state == 2).length) :
    execHint n idx s = .next (s.setDyn (if pgs = 0 then entDone s.cfg n idx 0 0 [0] s.dyn else entDone s.cfg n idx 0 0 [pgs]
      (ptWriteRange h lo k (fun _ x => if x.state = 1 ∨ x.state = 2 then { x with hint := bits (flagsOf e.w) 0 2 } else x) false .nothing
        (splitEnds s.cfg h lo k s.dyn)))) := by
  have hopen : (!ringPriv s.cfg s.dyn n && (List.range k).any fun i => sharedPage s.cfg h (lo + i)) = false := by
    rcases hmay with hpriv | hown
    · rw [hpriv]; rfl
    · rw [hown, Bool.and_false]
  subst hh hlo hk hpgs
  refine nextDyn_setDyn ?_
  simp only [hent, hopen, Bool.false_eq_true, if_false]

end

/-! ## MIGRATE (R325, Table 9.5) -/

section

variable {s : State} {n : RingId} {idx h page tier now : Nat} {e : RingEnt} (hent : entReady s.dyn n idx 6 = some e)
  (hh : h = (ringGet s.dyn n).host) (hpage : page = argAt e.w 0 / 2097152) (hnow : now = pageTier s.dyn h page)

include hent hh hpage hnow

theorem execMigrate_off (hoff : cg s.cfg .xltCtlMigEn 0 = 0) :
    execMigrate n idx s = .next (s.setDyn (entDone s.cfg n idx 0x15 0 [now] s.dyn)) := by
  subst hh hpage hnow
  refine nextDyn_setDyn ?_
  simp only [hent, hoff, if_true]

variable (hon : cg s.cfg .xltCtlMigEn 0 ≠ 0)

include hon

theorem execMigrate_unmapped (hst : (ptGet s.dyn h page).state = 0) :
    execMigrate n idx s = .next (s.setDyn (entDone s.cfg n idx 0x11 0 [now] s.dyn)) := by
  subst hh hpage hnow
  refine nextDyn_setDyn ?_
  simp [hent, hon, hst]

variable (htier : tier = argAt e.w 1 % 2) (hst : (ptGet s.dyn h page).state = 1) (hidle : migBusy s.dyn h page = false)

include htier hst hidle

theorem execMigrate_there (hthere : now = tier) :
    execMigrate n idx s = .next (s.setDyn (entDone s.cfg n idx 0x16 0 [now] s.dyn)) := by
  subst hh hpage hnow htier
  refine nextDyn_setDyn ?_
  simp [hent, hon, hst, hidle, hthere]

theorem execMigrate_asked {x : Nat × Nat} (haway : now ≠ tier) (hown : sharedPage s.cfg h page = false)
    (hsag : rd s.dyn .nvmSagStsSag 0 ≠ 1) (hdst : migDst s.dyn h page tier = some x) :
    execMigrate n idx s = .next (s.setDyn (migAsk s.cfg h page x.1 x.2 false false (some (n.val, idx))
      (setEnt n idx (fun e => { e with started := true }) s.dyn))) := by
  subst hh hpage hnow htier
  refine nextDyn_setDyn ?_
  simp [hent, hon, hst, hidle, haway, hown, hsag, hdst]

end

/-! ## QUERY, PERF_READ and AMEND (R327, R328) -/

/-- The data of Table 9.8 that a QUERY's flags select. -/
def queryData (g : Cfg) (d : Dyn) (n h : Nat) (e : RingEnt) : List Nat :=
  match flagsOf e.w with
  | 0 => quotaData g d (n / 4) h
  | 1 => extentData g d h (argAt e.w 0)
  | 2 => poisonData d h (argAt e.w 0)
  | _ => pageData d h (argAt e.w 0)

section

variable {s : State} {n : RingId} {idx : Nat} {e : RingEnt}

theorem execQuery_done {h : Nat} (hent : entReady s.dyn n idx 8 = some e) (hh : h = (ringGet s.dyn n).host) :
    execQuery n idx s = .next (s.setDyn (entDone s.cfg n idx 0 0 (queryData s.cfg s.dyn n h e) s.dyn)) := by
  subst hh
  refine nextDyn_setDyn ?_
  simp only [hent]
  rfl

theorem execPerfRead_privileged {cnt : Nat} {r : Ring} {x : List Nat × Dyn} (hent : entReady s.dyn n idx 9 = some e)
    (hpriv : ringPriv s.cfg s.dyn n = true) (hr : r = ringGet s.dyn n) (hcnt : cnt = bits (argAt e.w 0) 16 11)
    (hx : x = perfAll s.cfg n (bits (argAt e.w 0) 32 2) (flagsOf e.w == 0)
      ((List.range cnt).map fun i => bits (argAt e.w 0) 0 10 + i) s.dyn) :
    execPerfRead n idx s =
      .next (s.setDyn (entDone s.cfg n idx 0 0 [cnt] (hostPut s.cfg r.host (argAt e.w 1) x.1 x.2))) := by
  subst hx hcnt hr
  refine nextDyn_setDyn ?_
  simp only [hent, hpriv, Bool.true_or, Bool.not_true, Bool.false_eq_true, if_false]

variable (hent : entReady s.dyn n idx 10 = some e)

include hent

theorem execAmend_submitted (hpriv : ringPriv s.cfg s.dyn n = true) (a : Amendment) :
    execAmend n idx (some a) s =
      .next (s.setDyn (amdSubmit s.cfg a (.ring n idx) (setEnt n idx (fun e => { e with started := true }) s.dyn))) := by
  refine nextDyn_setDyn ?_
  simp only [hent, hpriv, Bool.not_true, Bool.false_eq_true, if_false]

/-- Bytes that host memory does not give end the entry with HOST_ERR. -/
theorem execAmend_unreadable (hpriv : ringPriv s.cfg s.dyn n = true) :
    execAmend n idx none s = .next (s.setDyn (entDone s.cfg n idx 0x14 0 [] s.dyn)) := by
  refine nextDyn_setDyn ?_
  simp only [hent, hpriv, Bool.not_true, Bool.false_eq_true, if_false]

theorem execAmend_notPrivileged (hpriv : ringPriv s.cfg s.dyn n = false) (a : Option Amendment) :
    execAmend n idx a s = .next (s.setDyn (entDone s.cfg n idx 0x19 0 [] s.dyn)) := by
  refine nextDyn_setDyn ?_
  simp only [hent, hpriv, Bool.not_false, if_true]

end

/-- Settles O33: an entry that is ready selects the working branch of its command, and the checks of R321 that of the data mover. -/
theorem ringEntryCommandsComplete : Obligations.RingEntryCommandsComplete := by
  unfold Obligations.RingEntryCommandsComplete
  exact ⟨fun s n idx e hent => execNop_done hent, fun s n idx e hent => execFence_done hent,
    fun s n idx st e hcheck => ⟨fun hent => execCopy_next (moveStart_stopped hent hcheck),
      fun hent => execFill_next (moveStart_stopped hent hcheck)⟩,
    fun s n idx e r d hcheck hr hd => ⟨fun hent => execCopy_next ((moveStart_job hent hcheck hr).trans hd.symm),
      fun hent => execFill_next ((moveStart_job hent hcheck hr).trans hd.symm)⟩,
    fun s n idx h lo k pgs e hent hh hlo hk hmay hpgs => execHint_permitted hent hh hlo hk hmay hpgs,
    fun s n idx h page tier now e hent hh hpage htier hnow => ⟨execMigrate_off hent hh hpage hnow,
      execMigrate_unmapped hent hh hpage hnow, fun hon => execMigrate_there hent hh hpage hnow hon htier,
      fun hon hst hidle haway hown hsag x =>
        execMigrate_asked hent hh hpage hnow hon htier hst hidle haway hown hsag⟩,
    fun s n idx h e hent hh => execQuery_done hent hh,
    fun s n idx cnt e r x hent hpriv hr hcnt hx => execPerfRead_privileged hent hpriv hr hcnt hx,
    fun s n idx e a hent => ⟨fun hpriv => ⟨execAmend_submitted hent hpriv a, execAmend_unreadable hent hpriv⟩,
      fun hpriv => execAmend_notPrivileged hent hpriv (some a)⟩⟩

end Machine
end Sys2Proof
end

section
/-! PROOFS. Control block and slot reads, dispatch and held records of the work rings (R313, R315, R330 to R333): O32. -/

namespace Sys2Proof
namespace Machine

/-! ## CONTROL_BLOCK_READ (R315, R332) -/

/-- With no doorbell since the read was sent, the ring takes what was read and no further read follows (R330). -/
theorem rcbBack_once {g : Cfg} {n : Nat} {x : HostRead} {d e : Dyn} {r : Ring} (hr : r = ringGet d n) (hbusy : r.cbBusy = true)
    (hagain : r.cbAgain = false) (he : e = rcbTake g n x (ringSet n { r with cbBusy := false, cbAgain := false } d)) :
    rcbBack g n x d = ringSet n { ringGet e n with taking := false } e := by
  subst hr he
  simp only [rcbBack, hbusy, hagain, Bool.not_true, Bool.false_eq_true, if_false]

theorem execControlBlockRead_ring {s : State} {sl : Slc} {k : Fin 5} {x : HostRead} {n : Nat} {r : Ring} {d : Dyn} (hk : k.val ≠ 4)
    (hn : n = 4 * sl.val + k.val) (hr : r = ringGet s.dyn n) (hbusy : r.cbBusy = true) (hagain : r.cbAgain = false)
    (hd : d = rcbTake s.cfg n x (ringSet n { r with cbBusy := false, cbAgain := false } s.dyn)) :
    execControlBlockRead sl k x s = .next (s.setDyn (ringSet n { ringGet d n with taking := false } d)) := by
  subst hn
  exact nextDyn_setDyn ((if_neg hk).trans (rcbBack_once hr hbusy hagain hd))

/-- The result ring with the indices of a control block that was read: CONS, and PROD on ENABLE. -/
def resTaken (q : ResRing) (x : HostRead) : ResRing :=
  { q with cbBusy := false, taking := false, cons := wAt (hostWords x) 0, prod := if q.taking then wAt (hostWords x) 2 else q.prod }

theorem resBack_taken {g : Cfg} {sl : Nat} {x : HostRead} {d : Dyn} {q : ResRing} (hq : q = resGet d sl) (hbusy : q.cbBusy = true)
    (hon : q.on = true) (hok : x.ok = true) : resBack g sl x d = sliceSettle g sl (resSet sl (resTaken q x) d) := by
  subst hq
  exact (if_neg (by simp [hbusy])).trans (if_neg (by simp [hon, hok]))

theorem execControlBlockRead_res {s : State} {sl : Slc} {x : HostRead} {q : ResRing} (hq : q = resGet s.dyn sl)
    (hbusy : q.cbBusy = true) (hon : q.on = true) (hok : x.ok = true) :
    execControlBlockRead sl 4 x s = .next (s.setDyn (sliceSettle s.cfg sl (resSet sl (resTaken q x) s.dyn))) :=
  nextDyn_setDyn (resBack_taken hq hbusy hon hok)

/-! ## POLL (R330) -/

theorem execPoll_due {s : State} {n : RingId} {r : Ring} (hr : r = ringGet s.dyn n) (hst : r.state = 1) (htaking : r.taking = false)
    (hpoll : 0 < r.poll) (hdue : r.pollAt + pollNs r ≤ s.dyn.now) :
    execPoll n s = .next (s.setDyn (readSlots s.cfg n (ringSet n { r with pollAt := s.dyn.now } s.dyn))) := by
  subst hr
  exact nextDyn_setDyn (if_pos ⟨hst, by rw [htaking]; rfl, hpoll, hdue⟩)

/-! ## ENTRY_FETCH (R313, R330) -/

/-- Below 2^32 an index is its own 32-bit count (R313). -/
theorem execEntryFetch_next {s : State} {n : RingId} {idx : Nat} {x : HostRead} {d : Dyn} (hidx : idx < idxMod)
    (h : slotBack n idx x s.dyn = d) : execEntryFetch n idx x s = .next (s.setDyn d) :=
  nextDyn_setDyn (by rw [Nat.mod_eq_of_lt hidx, h])

section

variable {d : Dyn} {n idx : Nat} {x : HostRead} {r : Ring} (hr : r = ringGet d n) (hst : r.state = 1) (htaking : r.taking = false)
  (hwanted : slotWanted r idx = true)

include hr hst htaking hwanted

/-- A read that failed is kept, to stop the ring when its turn comes. -/
theorem slotBack_failed (hok : x.ok = false) : slotBack n idx x d = slotKeep n ⟨idx, none, []⟩ d := by
  subst hr
  simp [slotBack, hst, htaking, hwanted, hok]

/-- An owned entry is kept, a FENCE of scope 1 with the entries that it waits for (R326). -/
theorem slotBack_owned {w : List Nat} (hw : w = hostWords x) (hok : x.ok = true) (howned : phaseOf w = expMark r.log2 idx) :
    slotBack n idx x d =
      slotKeep n ⟨idx, some w, if opOf w = 7 ∧ bitAt (flagsOf w) 0 = true then fenceWaits d n else []⟩ d := by
  subst hr hw
  simp [slotBack, hst, htaking, hwanted, hok, howned]

/-- An unowned entry below TAIL is to be read again. -/
theorem slotBack_stale {w : List Nat} (hw : w = hostWords x) (hok : x.ok = true) (hunowned : phaseOf w ≠ expMark r.log2 idx)
    (hbelow : belowTail r idx = true) (hnew : (r.stale.any fun y => y.1 == idx) = false) :
    slotBack n idx x d = ringSet n { r with stale := r.stale ++ [(idx, 0, d.now)] } d := by
  subst hr hw
  simp [slotBack, hst, htaking, hwanted, hok, hunowned, hbelow, hnew]

end

/-! ## STALE_REREAD (R330, R333) -/

section

variable {s : State} {n : RingId} {idx t k : Nat} {x : HostRead} {r : Ring} (hidx : idx < idxMod) (hr : r = ringGet s.dyn n)
  (hst : r.state = 1) (hfind : r.stale.find? (fun y => y.1 == idx) = some (idx, k, t)) (hdue : t + 1000 ≤ s.dyn.now)
  (hcount : k < 1000)

include hidx hr hst hfind hdue hcount

/-- An entry found owned is taken as a fetched slot, and is stale no longer. -/
theorem execStaleReread_owned (howned : phaseOf (hostWords x) = expMark r.log2 idx) :
    execStaleReread n idx x s =
      .next (s.setDyn (slotBack n idx x (ringSet n { r with stale := dropOne (idx, k, t) r.stale } s.dyn))) := by
  subst hr
  refine nextDyn_setDyn ?_
  simp only [Nat.mod_eq_of_lt hidx, hfind]
  rw [if_neg (by omega), if_pos (by simp [howned])]

/-- One more read that found the entry unowned; the 1,000th stops the ring when the entry is next to be dispatched. -/
theorem execStaleReread_unowned (hok : x.ok = true) (hunowned : phaseOf (hostWords x) ≠ expMark r.log2 idx) {d : Dyn}
    (hd : d = ringSet n { r with stale := mapIf (fun z => z.1 == idx) (fun z => (z.1, k + 1, s.dyn.now)) r.stale } s.dyn) :
    execStaleReread n idx x s =
      .next (s.setDyn (if 1000 ≤ k + 1 ∧ idx = r.disp then ringError s.cfg n idx 8 d else d)) := by
  subst hr hd
  refine nextDyn_setDyn ?_
  simp only [Nat.mod_eq_of_lt hidx, hfind]
  rw [if_neg (by omega), if_neg (by simp [hok, hunowned])]

end

/-! ## DISPATCH (R317, R331, R333) -/

/-- The rotation of a die goes on behind ring n. -/
def turnTaken (die n : Nat) (d : Dyn) : Dyn := { d with ring := { d.ring with rot := aset 0 d.ring.rot die (n + 1) } }

/-- The rotation has no part in what a ring could do next. -/
theorem ringNext_turnTaken (die n m : Nat) (d : Dyn) : ringNext (turnTaken die n d) m = ringNext d m := rfl

/-- A ring whose next entry, of words w and extension x, is dispatched over k slots (R317, R331). -/
def ringDispatched (r : Ring) (k : Nat) (w x : List Nat) : Ring :=
  { r with disp := idxAdd r.disp k
           ents := r.ents ++ [⟨r.disp, k, w, x, false, false, false, 0, 0, [], none⟩]
           fetched := r.fetched.filter fun f => f.idx != r.disp && !(k == 2 && f.idx == idxAdd r.disp 1) }

section

variable {s : State} {die : Die} {n : Nat} {d : Dyn} (hruns : xltHalted s.dyn die = false)
  (hturn : ringTurn s.dyn die (mayTurn s.dyn die) = some n) (hd : d = turnTaken die n s.dyn)

include hruns hturn hd

theorem execDispatch_entry {k : Nat} {r : Ring} {w x : List Nat} (hnext : ringNext s.dyn n = some (.inr (w, x)))
    (hr : r = ringGet s.dyn n) (hk : k = if twoSlot r w then 2 else 1) :
    execDispatch die s = .next (s.setDyn (ringSet n (ringDispatched r k w x) d)) := by
  rw [← ringNext_turnTaken die n n, turnTaken] at hnext
  subst hr hk hd
  refine nextDyn_setDyn ?_
  simp only [hruns, hturn, hnext, Bool.false_eq_true, if_false]
  rfl

/-- A ring whose next slot is malformed, failed or stale stops there with that code. -/
theorem execDispatch_stopped {c : Nat} (hnext : ringNext s.dyn n = some (.inl c)) :
    execDispatch die s = .next (s.setDyn (ringError s.cfg n (ringGet s.dyn n).disp c d)) := by
  rw [← ringNext_turnTaken die n n, turnTaken] at hnext
  subst hd
  refine nextDyn_setDyn ?_
  simp only [hruns, hturn, hnext, Bool.false_eq_true, if_false]
  rfl

end

/-! ## RESULT_RETRY and RESULT_HELD (R332, Table 9.13) -/

theorem execResultRetry_due {s : State} {sl : Slc} {q : ResRing} (hq : q = resGet s.dyn sl) (hon : q.on = true)
    (hholds : slcHolds s.dyn sl = true)
    (hdue : q.retryAt + resRetryNs s.cfg (((hostPort s.cfg s.dyn q.host).getD 0) / 48) ≤ s.dyn.now) :
    execResultRetry sl s = .next (s.setDyn (readRes s.cfg q.host sl s.dyn)) := by
  subst hq
  exact nextDyn_setDyn (if_pos ⟨hon, hholds, hdue⟩)

theorem execResultHeld_due {s : State} {n : RingId} {t : Nat} {r : Ring} (hr : r = ringGet s.dyn n) (hheld : r.heldAt = some t)
    (htold : r.heldTold = false) (hdue : t + 1000000 ≤ s.dyn.now) :
    execResultHeld n s =
      .next (s.setDyn (raise 0x0602 r.die [n.val / 4, n.val % 4, r.head] (ringSet n { r with heldTold := true } s.dyn))) := by
  subst hr
  refine nextDyn_setDyn ?_
  simp [hheld, htold, hdue]

/-- Settles O32: what each read finds in the ring and in the host's words, and what the ring could do next, select the command's branch. -/
theorem ringWorkCommandsComplete : Obligations.RingWorkCommandsComplete := by
  unfold Obligations.RingWorkCommandsComplete
  exact ⟨fun s sl k x n r d hk hn hr hbusy hagain hd => execControlBlockRead_ring hk hn hr hbusy hagain hd,
    fun s sl x q hq hbusy hon hok => execControlBlockRead_res hq hbusy hon hok,
    fun s n r hr hst htaking hpoll hdue => execPoll_due hr hst htaking hpoll hdue,
    fun s n idx x r w hidx hr hst htaking hwanted hw =>
      ⟨fun hok => execEntryFetch_next hidx (slotBack_failed hr hst htaking hwanted hok),
        fun hok howned => execEntryFetch_next hidx (slotBack_owned hr hst htaking hwanted hw hok howned),
        fun hok hunowned hbelow hnew =>
          execEntryFetch_next hidx (slotBack_stale hr hst htaking hwanted hw hok hunowned hbelow hnew)⟩,
    fun s n idx t k x r hidx hr hst hfind hdue hcount hok => ⟨execStaleReread_owned hidx hr hst hfind hdue hcount,
      fun hunowned d hd => execStaleReread_unowned hidx hr hst hfind hdue hcount hok hunowned hd⟩,
    fun s die n k r w x d hruns hturn hnext hd hr hk => execDispatch_entry hruns hturn hd hnext hr hk,
    fun s die n c d hruns hturn hnext hd => execDispatch_stopped hruns hturn hd hnext,
    fun s sl q hq hon hholds hdue => execResultRetry_due hq hon hholds hdue,
    fun s n t r hr hheld htold hdue => execResultHeld_due hr hheld htold hdue⟩

end Machine
end Sys2Proof
end

section
/-! PROOFS. Packets, lost links and re-sent exchanges of the on-chip network (R343, R346, R347, R349, R357 to R359): O11. -/

namespace Sys2Proof
namespace Machine

/-! ## PACKET_FORWARD (R343, R346, R347, R349, R359) -/

/-- A dropped packet with bad parity is counted, told and entered in the AER functions of its source port. -/
theorem execPacketForward_badParity {s : State} {nid : Nat} {f : NetPkt} {d : Dyn} (credit : Bool)
    (hfind : s.dyn.noc.net.find? (fun f => f.nid == nid) = some f)
    (hd : d = raise 0x0707 (rCol f.rtr / 2) [f.rtr] (bump .nocRtrErrPar (rtrIdx f.rtr) 1 (emit (.netDrop f.nid)
      { s.dyn with noc := { s.dyn.noc with net := dropOne f s.dyn.noc.net } }))) :
    execPacketForward nid credit false s =
      .next (s.setDyn (forAll (aerFns s.cfg d f.pkt.src) (fun x => aerTell x.1 x.2 2) d)) := by
  subst hd
  refine nextDyn_setDyn ?_
  simp only [hfind, Bool.not_false, if_true]

/-- Whether a packet's next hop may be made now, and what the link takes for it: a link inside a die takes nothing. -/
def hopCross (f : NetPkt) (dir : Nat) (d : Dyn) : Bool × Dyn :=
  match gklOfLink f.rtr dir with
  | some n => gklCross n (flitsOf f.plane f.pkt) (boundTx f dir (if dateline f.rtr dir then 1 else f.vcC) d) d
  | none => (true, d)

theorem hopCross_inside {f : NetPkt} {dir : Nat} (h : gklOfLink f.rtr dir = none) (d : Dyn) : hopCross f dir d = (true, d) := by
  rw [hopCross, h]

theorem hopCross_boundary {f : NetPkt} {dir n : Nat} (h : gklOfLink f.rtr dir = some n) (d : Dyn) :
    hopCross f dir d = gklCross n (flitsOf f.plane f.pkt) (boundTx f dir (if dateline f.rtr dir then 1 else f.vcC) d) d := by
  rw [hopCross, h]

/-- What the answer of a packet's link makes of it: one hop on, or it waits at its router. -/
def hopTaken (f : NetPkt) (dir : Nat) (x : Bool × Dyn) : Dyn :=
  if x.1 then
    ungate (120 + linkTo f.rtr dir) { x.2 with noc := { x.2.noc with net := mapIf (fun y => y == f) (fun f => hopOn f dir) x.2.noc.net } }
  else x.2

section

variable {s : State} {nid : Nat} {f : NetPkt} (hfind : s.dyn.noc.net.find? (fun f => f.nid == nid) = some f)
  (hruns : rtrStopped s.dyn f.rtr = false) (hfirst : behind s.dyn f = false)

include hfind hruns hfirst

/-- A packet with no hop left leaves the network at its destination. -/
theorem execPacketForward_ejected (credit : Bool) (hdir : nextDir f = none) (hrtr : domPwr s.dyn (domRtr f.rtr) ≤ 1)
    (hport : f.pkt.dst < 192 → domPwr s.dyn (domPu (lpPu f.pkt.dst)) ≤ 1) (hroom : ejectRoom s.dyn f = true) :
    execPacketForward nid credit true s = .next (s.setDyn (ungate (120 + f.rtr) (eject f { s.dyn with
      noc := { s.dyn.noc with net := dropOne f s.dyn.noc.net } }))) := by
  refine nextDyn_setDyn ?_
  simp only [hfind, hruns, hfirst, hdir, hroom, Bool.not_true, Bool.or_self, Bool.false_eq_true, if_false, if_true]
  rw [if_neg (by omega), if_neg fun h => by have := hport h.1; omega]

/-- A packet toward a lost link is discarded. -/
theorem execPacketForward_lost {dir : Nat} (credit : Bool) (hdir : nextDir f = some dir) (hlost : linkLost s.dyn f.rtr dir = true) :
    execPacketForward nid credit true s = .next (s.setDyn (nocDiscard f { s.dyn with
      noc := { s.dyn.noc with net := dropOne f s.dyn.noc.net } })) := by
  refine nextDyn_setDyn ?_
  simp only [hfind, hruns, hfirst, hdir, hlost, Bool.not_true, Bool.or_self, Bool.false_eq_true, if_false, if_true]

/-- A packet that holds a credit goes one hop on when the link lets it and the router beyond is awake. -/
theorem execPacketForward_hop {dir : Nat} {d : Dyn} (hdir : nextDir f = some dir) (hlost : linkLost s.dyn f.rtr dir = false)
    (hfar : rtrStopped s.dyn (linkTo f.rtr dir) = false) (hpwr : domPwr s.dyn (domRtr (linkTo f.rtr dir)) < 2)
    (hroom : (gklOfLink f.rtr dir).isNone = true → inputRoom s.dyn f dir = true) (hcross : hopCross f dir s.dyn = (true, d)) :
    execPacketForward nid true true s = .next (s.setDyn (ungate (120 + linkTo f.rtr dir) { d with
      noc := { d.noc with net := mapIf (fun y => y == f) (fun f => hopOn f dir) d.noc.net } })) := by
  have hfree : ((gklOfLink f.rtr dir).isNone && !inputRoom s.dyn f dir) = false := by simpa using hroom
  refine nextDyn_setDyn ?_
  simp only [hfind, hruns, hfirst, hdir, hlost, hfar, hfree, Nat.not_le.mpr hpwr, Bool.not_true, Bool.or_self, Bool.false_eq_true,
    if_false]
  change hopTaken f dir (hopCross f dir s.dyn) = _
  rw [hcross]
  rfl

end

/-! ## LINK_LOST (R357) -/

/-- A link in service is lost in both directions, and the arbiter is asked for a reconfiguration. -/
theorem execLinkLost_inService {s : State} {r : Router} {dir : Fin 4} {d : Dyn} (hlost : linkLost s.dyn r dir = false)
    (hd : d = raise 0x0706 (rCol r / 2) [r.val, dir.val] (loseDir (linkTo r dir) (if dir.val % 2 = 0 then dir.val + 1 else dir.val - 1)
      (loseDir r dir s.dyn))) :
    execLinkLost r dir s = .next (s.setDyn (arbAsk { actReq 5 [] [] with lostLink := true } 0
      { d with noc := { d.noc with pend := d.noc.pend ++ [(r.val, dir.val)] } }).2) := by
  subst hd
  exact nextDyn_setDyn (if_neg (by simp [hlost]))

/-! ## RESEND_TIMEOUT (R358) -/

theorem execResendTimeout_due {s : State} {xid : Nat} {x y : Xch} {d : Dyn}
    (hfind : s.dyn.noc.xchs.find? (fun x => x.xid == xid) = some x)
    (hdue : x.at0 + max 1 (cg s.cfg .nocCtlResendUs 0) * 1000 ≤ s.dyn.now)
    (hy : y = { x with at0 := s.dyn.now, sent := x.sent + 1, told := x.told || decide (8 ≤ x.sent + 1) })
    (hd : d = emit (.resend xid) { s.dyn with
      noc := { s.dyn.noc with xchs := mapIf (fun z => z.xid == xid) (fun _ => y) s.dyn.noc.xchs } }) :
    execResendTimeout xid s =
      .next (s.setDyn (doIf (decide (8 ≤ x.sent + 1) && !x.told) (raise 0x0708 (leadOr0 d) [xid]) d)) := by
  subst hy hd
  refine nextDyn_setDyn ?_
  simp only [hfind]
  exact if_pos hdue

/-- Settles O11: parity, the next direction and the link's state select what becomes of a packet, and a link and an exchange
have one working branch each. -/
theorem networkPacketCommandsComplete : Obligations.NetworkPacketCommandsComplete := by
  unfold Obligations.NetworkPacketCommandsComplete
  exact ⟨fun s nid dir f hfind hruns hfirst hdir hlost hfar hpwr hin hroom =>
      execPacketForward_hop hfind hruns hfirst hdir hlost hfar hpwr (fun _ => hroom) (hopCross_inside hin s.dyn),
    fun s nid dir n f d hfind hruns hfirst hdir hlost hfar hpwr hgkl hcross =>
      execPacketForward_hop hfind hruns hfirst hdir hlost hfar hpwr (fun h => by simp [hgkl] at h)
        ((hopCross_boundary hgkl s.dyn).trans hcross),
    fun s nid credit f hfind hruns hfirst hdir hrtr hport hroom =>
      execPacketForward_ejected hfind hruns hfirst credit hdir hrtr hport hroom,
    fun s nid dir credit f hfind hruns hfirst hdir hlost => execPacketForward_lost hfind hruns hfirst credit hdir hlost,
    fun s nid credit f d hfind hd => execPacketForward_badParity credit hfind hd,
    fun s r dir d hlost hd => execLinkLost_inService hlost hd,
    fun s xid x y d hfind hdue hy hd => execResendTimeout_due hfind hdue hy hd⟩

end Machine
end Sys2Proof
end

section
/-! PROOFS. The closure of privileged endpoints (R350, R351, Table 10.4): O12. -/

namespace Sys2Proof
namespace Machine

/-! ## What the closure's operations do -/

@[simp] theorem rd_setFence {f : SFld} (hdir : f ≠ .nocFenceDir) (hmgmt : f ≠ .nocFenceMgmt) (hnvm : f ≠ .nocFenceNvm)
    (halloc : f ≠ .nocFenceAlloc) (e : Nat) (b : Bool) (i : Nat) (d : Dyn) : rd (setFence e b d) f i = rd d f i := by
  unfold setFence
  split_ifs <;> simp [hdir, hmgmt, hnvm, halloc]

/-- Setting an endpoint's bit touches the status registers alone. -/
theorem setFence_keep {β : Type} (r : Dyn → β) (hp : ∀ f i v d, r (put f i v d) = r d) (e : Nat) (b : Bool) (d : Dyn) :
    r (setFence e b d) = r d := by
  unfold setFence
  split_ifs <;> exact hp _ _ _ _

@[simp] theorem setFence_noc (e : Nat) (b : Bool) (d : Dyn) : (setFence e b d).noc = d.noc :=
  setFence_keep (fun d => d.noc) (fun _ _ _ _ => rfl) e b d
@[simp] theorem setFence_ev (e : Nat) (b : Bool) (d : Dyn) : (setFence e b d).ev = d.ev :=
  setFence_keep (fun d => d.ev) (fun _ _ _ _ => rfl) e b d
@[simp] theorem setFence_out (e : Nat) (b : Bool) (d : Dyn) : (setFence e b d).out = d.out :=
  setFence_keep (fun d => d.out) (fun _ _ _ _ => rfl) e b d

theorem spanNext_none {d : Dyn} (h : d.noc.spanQ = []) : spanNext d = d := by
  unfold spanNext; rw [h]

/-- While a closure runs no other begins. -/
theorem spanNext_busy {d : Dyn} (h : rd d .nocSpanStsBusy 0 = 1) : spanNext d = d := by
  unfold spanNext
  split
  · rfl
  · exact if_pos h

/-- The closure of endpoint e at its beginning, with a queue q behind it. -/
def spanBegun (e : Nat) (q : List Nat) (d : Dyn) : Dyn :=
  xchOpen spanXid (emit (.fence e) (put .nocSpanStsBusy 0 1 (put .nocSpanStsStep 0 3 (put .nocSpanStsEp 0 e
    (put .nocSpanStsMarks 0 0 { d with noc := { d.noc with spanQ := q, niSent := arrEmpty } })))))

/-- With no closure running the first endpoint that waits is taken. -/
theorem spanNext_begins {d : Dyn} {e : Nat} {q : List Nat} (hidle : rd d .nocSpanStsBusy 0 ≠ 1) (hq : d.noc.spanQ = e :: q) :
    spanNext d = spanBegun e q d := by
  unfold spanNext
  rw [hq]
  exact if_neg hidle

/-- Opening an exchange leaves every status field as it was. -/
@[simp] theorem rd_xchOpen (xid : Nat) (d : Dyn) (f : SFld) (i : Nat) : rd (xchOpen xid d) f i = rd d f i := rfl

theorem rd_spanBegun (e : Nat) (q : List Nat) (d : Dyn) : rd (spanBegun e q d) .nocSpanStsBusy 0 = 1 ∧
    rd (spanBegun e q d) .nocSpanStsStep 0 = 3 ∧ rd (spanBegun e q d) .nocSpanStsEp 0 = e % 64 ∧
    rd (spanBegun e q d) .nocSpanStsMarks 0 = 0 := by
  simp [spanBegun, stsWidth]

theorem spanBegun_out (e : Nat) (q : List Nat) (d : Dyn) : (spanBegun e q d).out = d.out ++ [.fence e] := rfl
theorem spanBegun_spanQ (e : Nat) (q : List Nat) (d : Dyn) : (spanBegun e q d).noc.spanQ = q := rfl

/-! ## SPAN_CLOSE_REQUEST (R350, R351 step 1) -/

section

variable {s : State} {e : Fin 60} (hmay : neverClosed s.cfg s.dyn e = false) (hopen : fenced s.dyn e = false)
  (hnew : s.dyn.noc.spanQ.contains e.val = false)

include hmay hopen hnew

/-- An endpoint that may be closed joins the queue, and the first of the queue may begin. -/
theorem execSpanCloseRequest_joins :
    execSpanCloseRequest e s = .next (s.setDyn (spanNext { s.dyn with
      noc := { s.dyn.noc with spanQ := s.dyn.noc.spanQ ++ [e.val] } })) :=
  nextDyn_setDyn (if_neg (by rw [hmay, hopen, hnew]; decide))

theorem execSpanCloseRequest_waits (hbusy : rd s.dyn .nocSpanStsBusy 0 = 1) :
    execSpanCloseRequest e s = .next (s.setDyn { s.dyn with noc := { s.dyn.noc with spanQ := s.dyn.noc.spanQ ++ [e.val] } }) := by
  rw [execSpanCloseRequest_joins hmay hopen hnew, spanNext_busy ((rd_mk ..).trans hbusy)]

theorem execSpanCloseRequest_begins (hidle : rd s.dyn .nocSpanStsBusy 0 = 0) (hq : s.dyn.noc.spanQ = []) :
    ∃ d, execSpanCloseRequest e s = .next (s.setDyn d) ∧ rd d .nocSpanStsBusy 0 = 1 ∧ rd d .nocSpanStsStep 0 = 3 ∧
      rd d .nocSpanStsEp 0 = e ∧ rd d .nocSpanStsMarks 0 = 0 ∧ d.noc.spanQ = [] ∧ d.out = s.dyn.out ++ [.fence e] := by
  refine ⟨_, execSpanCloseRequest_joins hmay hopen hnew, ?_⟩
  rw [spanNext_begins (e := e) (q := []) (by simp [hidle]) (by simp [hq])]
  obtain ⟨hbusy, hstep, hep, hmarks⟩ := rd_spanBegun e [] { s.dyn with noc := { s.dyn.noc with spanQ := s.dyn.noc.spanQ ++ [e.val] } }
  exact ⟨hbusy, hstep, hep.trans (Nat.mod_eq_of_lt (by omega)), hmarks, spanBegun_spanQ .., spanBegun_out ..⟩

end

/-! ## FENCE_MSG and FENCE_MARK (R351 steps 3 and 4) -/

theorem execFenceMsg_running {s : State} (ni : Router) {e : Fin 60} (hbusy : rd s.dyn .nocSpanStsBusy 0 = 1)
    (hep : rd s.dyn .nocSpanStsEp 0 = e) :
    ∃ d, execFenceMsg ni e s = .next (s.setDyn d) ∧ rd d .nocSpanStsStep 0 = 4 ∧
      aget 0 d.noc.niFence (e * 32 + ni) = 1 ∧ d.out = s.dyn.out ++ [.fenceMark e ni, .fenceMark e ni] ∧ d.ev = s.dyn.ev := by
  refine ⟨_, nextDyn_setDyn (if_pos ⟨hbusy, hep⟩), ?_⟩
  simp [stsWidth]

/-- One mark more of interface ni; the 64th ends the step. -/
def spanMarked (ni : Nat) (d : Dyn) : Dyn :=
  doIf (rd d .nocSpanStsMarks 0 + 1 == 64) (put .nocSpanStsStep 0 5) (put .nocSpanStsMarks 0 (rd d .nocSpanStsMarks 0 + 1)
    { d with noc := { d.noc with niSent := aset 0 d.noc.niSent ni (aget 0 d.noc.niSent ni + 1) } })

theorem spanMarked_niSent (ni : Nat) (d : Dyn) : aget 0 (spanMarked ni d).noc.niSent ni = aget 0 d.noc.niSent ni + 1 := by
  rw [spanMarked, doIf_keep Dyn.noc _ _ _ rfl]
  exact aget_aset_same ..

theorem spanMarked_ev (ni : Nat) (d : Dyn) : (spanMarked ni d).ev = d.ev := doIf_keep Dyn.ev _ _ _ rfl

theorem rd_spanMarked_marks (ni : Nat) {d : Dyn} (h : rd d .nocSpanStsMarks 0 < 64) :
    rd (spanMarked ni d) .nocSpanStsMarks 0 = rd d .nocSpanStsMarks 0 + 1 := by
  rw [spanMarked, doIf_keep (fun d => rd d .nocSpanStsMarks 0) _ _ _ (rd_put_fld (by decide) ..), rd_put_same]
  exact Nat.mod_eq_of_lt (lt_of_lt_of_le (Nat.succ_lt_succ h) (by decide))

theorem rd_spanMarked_step (ni : Nat) (d : Dyn) : rd (spanMarked ni d) .nocSpanStsStep 0 =
    if rd d .nocSpanStsMarks 0 = 63 then 5 else rd d .nocSpanStsStep 0 := by
  by_cases h : rd d .nocSpanStsMarks 0 = 63 <;> simp [spanMarked, doIf, h, stsWidth]

theorem execFenceMark_counts {s : State} {ni : Router} (hbusy : rd s.dyn .nocSpanStsBusy 0 = 1)
    (hfenced : aget 0 s.dyn.noc.niFence (rd s.dyn .nocSpanStsEp 0 * 32 + ni) = 1) (hsent : aget 0 s.dyn.noc.niSent ni < 2) :
    execFenceMark ni s = .next (s.setDyn (spanMarked ni s.dyn)) :=
  nextDyn_setDyn (if_pos ⟨hbusy, hfenced, hsent⟩)

/-! ## SPAN_CLOSED and UNFENCE (R351 steps 5 and 6) -/

/-- A closure with no wake noted and none behind it ends with its report and its event. -/
theorem execSpanClosed_last {s : State} {d : Dyn} (hbusy : rd s.dyn .nocSpanStsBusy 0 = 1) (hmarks : rd s.dyn .nocSpanStsMarks 0 = 64)
    (hq : s.dyn.noc.spanQ = []) (hwake : s.dyn.noc.reopen.contains (rd s.dyn .nocSpanStsEp 0) = false)
    (hd : d = xchClose spanXid (put .nocSpanStsStep 0 6 (put .nocSpanStsBusy 0 0 s.dyn))) :
    execSpanClosed s = .next (s.setDyn (raise 0x0703 (leadOr0 d) [rd s.dyn .nocSpanStsEp 0]
      (emit (.closed (rd s.dyn .nocSpanStsEp 0)) d))) := by
  subst hd
  refine nextDyn_setDyn ((if_pos ⟨hbusy, hmarks⟩).trans ?_)
  have hstays : (xchClose spanXid (put .nocSpanStsStep 0 6 (put .nocSpanStsBusy 0 0 s.dyn))).noc.reopen = s.dyn.noc.reopen := rfl
  simp only [raise_noc, emit_noc, hstays, hwake, doIf, Bool.false_eq_true, if_false]
  exact spanNext_none (by rw [raise_noc]; exact hq)

theorem execUnfence_noted {s : State} {e : Fin 60} (hbusy : rd s.dyn .nocSpanStsBusy 0 = 1) (hep : rd s.dyn .nocSpanStsEp 0 = e) :
    execUnfence e s = .next (s.setDyn { s.dyn with noc := { s.dyn.noc with reopen := s.dyn.noc.reopen ++ [e.val] } }) :=
  nextDyn_setDyn (if_pos ⟨hbusy, hep⟩)

theorem execUnfence_opens {s : State} {e : Fin 60} (hother : ¬ (rd s.dyn .nocSpanStsBusy 0 = 1 ∧ rd s.dyn .nocSpanStsEp 0 = e))
    (hfenced : fenced s.dyn e = true) (hreg : regFail s.dyn (epRegion e) = false) (hpwr : domPwr s.dyn (epDom e) ≤ 1) :
    execUnfence e s = .next (s.setDyn (spanOpen e s.dyn)) :=
  nextDyn_setDyn ((if_neg hother).trans (if_pos (by simp [hfenced, hreg, hpwr])))

/-- Settles O12: each premise selects the working branch of its command, and an endpoint joins the queue before the first of it is
taken. -/
theorem spanClosureCommandsComplete : Obligations.SpanClosureCommandsComplete := by
  unfold Obligations.SpanClosureCommandsComplete
  exact ⟨fun s e hmay hopen hnew hidle hq => execSpanCloseRequest_begins hmay hopen hnew hidle hq,
    fun s e hmay hopen hnew hbusy => execSpanCloseRequest_waits hmay hopen hnew hbusy,
    fun s ni e hbusy hep => execFenceMsg_running ni hbusy hep,
    fun s ni hbusy hfenced hsent hmarks => ⟨_, execFenceMark_counts hbusy hfenced hsent, rd_spanMarked_marks ni hmarks,
      spanMarked_niSent ni s.dyn, rd_spanMarked_step ni s.dyn, spanMarked_ev ni s.dyn⟩,
    fun s d hbusy hmarks hq hwake hd => execSpanClosed_last hbusy hmarks hq hwake hd,
    fun s e hbusy hep => execUnfence_noted hbusy hep,
    fun s e hother hfenced hreg hpwr => execUnfence_opens hother hfenced hreg hpwr⟩

end Machine
end Sys2Proof
end

section
/-! PROOFS. That every command answers (R533), clearing and counting (R495, R498 to R500), and package-wide registers (R508): O3, O40,
O46 and O53. -/


namespace Sys2Proof
namespace Machine

/-! ## Every command answers a next state (R533) -/

/-- A command answers a next state and leaves the queue. -/
def AnswersNext (r : Host.Outcome State Fault Refusal) (s : State) : Prop := ∃ t, r = .next t ∧ t.pending = s.pending

theorem nextDyn_answers (s : State) (f : Cfg → Dyn → Dyn) : AnswersNext (nextDyn s f) s := ⟨_, rfl, rfl⟩

theorem nextCfg_answers (s : State) (f : Cfg → Dyn → Cfg × Dyn) : AnswersNext (nextCfg s f) s := ⟨_, rfl, rfl⟩

/-- Shorter than 100 µs a pulse does nothing, and from 1 ms on it resets the package. -/
theorem execColdRst_answers {low : Nat} (h : low < 100000 ∨ 1000000 ≤ low) (s : State) : AnswersNext (execColdRst low s) s := by
  rcases h with hshort | hlong
  · exact ⟨s, execColdRst_short hshort s, rfl⟩
  · unfold execColdRst
    rw [if_neg (by omega), if_neg (by omega)]
    exact nextCfg_answers s _

/-- The commands that may write configuration registers, but COLD_RST, are of the second form. -/
theorem exec_nextCfg {c : Instr} (hc : writesCfg c = true) (hrst : ∀ low, c ≠ .coldRst low) (s : State) :
    ∃ f, exec c s = nextCfg s f := by
  unfold exec
  cases c
  case powerOn | recoveryImageTransfer | registerRecords | amendmentReplay | amendmentApply | dieFwReload | coldRstRelease | powerLoss
      | sensorRead => exact ⟨_, rfl⟩
  case coldRst low => exact absurd rfl (hrst low)
  all_goals exact nomatch hc

/-- A command that may write configuration registers answers all the same; COLD_RST outside the pulse that R533 leaves open. -/
theorem exec_writesCfg_answers {c : Instr} (hc : writesCfg c = true) (hp : pulseUndefined c = false) (s : State) :
    AnswersNext (exec c s) s := by
  by_cases hrst : ∃ low, c = .coldRst low
  · obtain ⟨low, rfl⟩ := hrst
    simp only [pulseUndefined, Bool.and_eq_false_iff, decide_eq_false_iff_not] at hp
    exact execColdRst_answers (by omega) s
  · obtain ⟨f, hf⟩ := exec_nextCfg hc (fun low hlow => hrst ⟨low, hlow⟩) s
    exact hf ▸ nextCfg_answers s f

/-- Settles O40: a command that leaves the configuration registers out answers by its form, and so do the few others but COLD_RST. -/
theorem everyCommandAnswersNext : Obligations.EveryCommandAnswersNext := by
  unfold Obligations.EveryCommandAnswersNext
  intro c s
  constructor
  · intro hp
    cases hc : writesCfg c with
    | true => exact exec_writesCfg_answers hc hp s
    | false =>
      obtain ⟨f, hf⟩ := exec_nextDyn c s hc
      exact hf ▸ nextDyn_answers s f
  · intro hp
    cases c
    case coldRst low =>
      simp only [pulseUndefined, Bool.and_eq_true, decide_eq_true_eq] at hp
      show execColdRst low s = _
      unfold execColdRst
      rw [if_neg (by omega), if_pos (by omega)]
    all_goals exact nomatch hp

/-! ## Counting (R495, R498, R500) -/

section

variable {j n : Nat} {d : Dyn}

theorem ctrAdd_held (h : rd d .pmcCtlFreeze 0 = 1 ∨ rd d .pmcValOvf j = 1) : ctrAdd j n d = d := if_pos (.inr h)

variable (hn : n ≠ 0) (hrun : rd d .pmcCtlFreeze 0 ≠ 1) (hovf : rd d .pmcValOvf j ≠ 1)

include hn hrun hovf

theorem ctrAdd_counts (hroom : rd d .pmcValCount j + n ≤ ctrMax) : ctrAdd j n d = put .pmcValCount j (rd d .pmcValCount j + n) d :=
  (if_neg (by simp [hn, hrun, hovf])).trans (if_pos hroom)

theorem ctrAdd_stops (hpast : ctrMax < rd d .pmcValCount j + n) :
    ctrAdd j n d = raise 0x0D01 (j / 1024) [j % 1024] (put .pmcValOvf j 1 (put .pmcValCount j ctrMax d)) :=
  (if_neg (by simp [hn, hrun, hovf])).trans (if_neg (by omega))

end

/-- Counting touches no other counter and no other OVF. -/
theorem ctrAdd_keeps_others {j k : Nat} (hk : k ≠ j) (n : Nat) (d : Dyn) :
    rd (ctrAdd j n d) .pmcValCount k = rd d .pmcValCount k ∧ rd (ctrAdd j n d) .pmcValOvf k = rd d .pmcValOvf k := by
  unfold ctrAdd
  split
  · exact ⟨rfl, rfl⟩
  · split <;> simp [hk]

/-- The event of a counter that stops is in a queue with room (R498). -/
theorem mem_ev_raise {d : Dyn} (h : d.ev.length < 1024) (code die : Nat) (args : List Nat) :
    (⟨dieTs d die, code, die, args⟩ : Ev) ∈ (raise code die args d).ev := by
  rw [raise_room h]
  exact (evInsert_perm _ _).mem_iff.mpr (List.mem_cons_self ..)

/-- Settles O46: each clause is one branch of `ctrAdd`, and the branch that sets OVF leads to the one that holds. -/
theorem countersStopAtTheirMaximumAndFreeze : Obligations.CountersStopAtTheirMaximumAndFreeze := by
  unfold Obligations.CountersStopAtTheirMaximumAndFreeze
  intro j n d hn
  refine ⟨ctrAdd_held, fun hrun hovf hroom => ?_, fun hrun hovf hpast => ?_, fun k hk => ctrAdd_keeps_others hk n d⟩
  · rw [ctrAdd_counts hn hrun hovf hroom]
    have hwidth : rd d .pmcValCount j + n < 2 ^ stsWidth .pmcValCount := Nat.lt_of_le_of_lt hroom (by decide)
    exact ⟨by rw [rd_put_same, Nat.mod_eq_of_lt hwidth], by simp, rfl⟩
  · have hstop := ctrAdd_stops hn hrun hovf hpast
    have hset : rd (ctrAdd j n d) .pmcValOvf j = 1 := by rw [hstop, rd_raise (by decide), rd_put_same]; rfl
    refine ⟨?_, hset, fun hev => ?_, fun m => ctrAdd_held (.inr hset)⟩
    · rw [hstop, rd_raise (by decide), rd_put_fld (by decide), rd_put_same]; rfl
    · have hts : dieTs (put .pmcValOvf j 1 (put .pmcValCount j ctrMax d)) (j / 1024) = dieTs d (j / 1024) := by simp [dieTs]
      rw [hstop, ← hts]
      exact mem_ev_raise (d := put .pmcValOvf j 1 (put .pmcValCount j ctrMax d)) hev _ _ _

/-! ## Clearing counters (R499) -/

theorem sKey_mod (f : SFld) (i : Nat) : sKey f i % 1024 = f.ctorIdx := by
  have := sfld_idx_lt f
  simp only [sKey]
  omega

theorem sKey_div (f : SFld) (i : Nat) : sKey f i / 1024 = i := by
  have := sfld_idx_lt f
  simp only [sKey]
  omega

/-- An index at which a status field differs from its reset value is listed. -/
theorem mem_stsListed {d : Dyn} {f : SFld} {i : Nat} (h : rd d f i ≠ stsReset f i) : i ∈ stsListed d f := by
  cases hfind : cellsFind (sKey f i) d.sts.cells with
  | none => exact absurd (by simp only [rd, aget, hfind, Option.getD_none]) h
  | some v =>
    exact List.mem_filterMap.mpr ⟨_, mem_of_cellsFind hfind, by rw [if_pos (sKey_mod f i), sKey_div]⟩

theorem rd_ctrClear_same (j : Nat) (d : Dyn) : rd (ctrClear j d) .pmcValCount j = 0 ∧ rd (ctrClear j d) .pmcValOvf j = 0 := by
  simp [ctrClear]

theorem rd_ctrClear_ne {f : SFld} {j k : Nat} (h : k ≠ j ∨ f ≠ .pmcValCount ∧ f ≠ .pmcValOvf) (d : Dyn) :
    rd (ctrClear j d) f k = rd d f k := by
  rw [ctrClear, rd_put_ne (by rintro ⟨rfl, rfl⟩; simp at h), rd_put_ne (by rintro ⟨rfl, rfl⟩; simp at h)]

/-- Clearing touches the status registers alone. -/
theorem ctrClear_frame (j : Nat) (d : Dyn) : ctrClear j d = { d with sts := (ctrClear j d).sts } := rfl

/-- A loop keeps every reading that the rounds of its elements keep. -/
theorem forAll_keep_mem {α σ β : Type} {r : σ → β} {l : List α} {f : α → σ → σ} (h : ∀ x ∈ l, ∀ d, r (f x d) = r d) (s : σ) :
    r (forAll l f s) = r s := by
  induction l generalizing s with
  | nil => rfl
  | cons a t ih => exact (ih (fun x hx => h x (List.mem_cons_of_mem a hx)) _).trans (h a (List.mem_cons_self ..) s)

/-- The counters of a die that are not at reset: those that CLR with ALL clears. -/
def ctrsListed (die : Nat) (d : Dyn) : List Nat :=
  ((stsListed d .pmcValCount) ++ (stsListed d .pmcValOvf)).filter fun j => j / 1024 == die

theorem ctrsListed_die {die j : Nat} {d : Dyn} (h : j ∈ ctrsListed die d) : j / 1024 = die :=
  beq_iff_eq.mp (List.mem_filter.mp h).2

/-- A counter of the die is cleared or was 0 with its OVF before. -/
theorem ctrsListed_or_zero {die j : Nat} (hj : j / 1024 = die) (d : Dyn) {f : SFld} (hf : f = .pmcValCount ∨ f = .pmcValOvf) :
    j ∈ ctrsListed die d ∨ rd d f j = 0 := by
  by_cases h : rd d f j = 0
  · exact .inr h
  · have hreset : stsReset f j = 0 := by rcases hf with rfl | rfl <;> rfl
    have hlisted : j ∈ stsListed d f := mem_stsListed (hreset ▸ h)
    refine .inl (List.mem_filter.mpr ⟨List.mem_append.mpr ?_, beq_iff_eq.mpr hj⟩)
    rcases hf with rfl | rfl
    · exact .inl hlisted
    · exact .inr hlisted

theorem execClr_next (die : Die) (all : Bool) (i : Fin 1024) (s : State) :
    execClr die all i s = .next (s.setDyn (clrWrite die all i s.dyn)) := nextDyn_setDyn rfl

theorem clrWrite_all (die i : Nat) (d : Dyn) : clrWrite die true i d = forAll (ctrsListed die d) ctrClear d := rfl

theorem rd_clrAll_same {die j : Nat} (hj : j / 1024 = die) (i : Nat) (d : Dyn) {f : SFld} (hf : f = .pmcValCount ∨ f = .pmcValOvf) :
    rd (clrWrite die true i d) f j = 0 := by
  rw [clrWrite_all]
  refine forAll_writer (r := fun d => rd d f j) (x := j) (fun d => ?_) (fun y _ hy d => rd_ctrClear_ne (.inl hy.symm) d)
    (ctrsListed_or_zero hj d hf)
  obtain ⟨hcount, hovf⟩ := rd_ctrClear_same j d
  rcases hf with rfl | rfl
  · exact hcount
  · exact hovf

theorem rd_clrAll_other {die j : Nat} (hj : j / 1024 ≠ die) (i : Nat) (d : Dyn) (f : SFld) :
    rd (clrWrite die true i d) f j = rd d f j := by
  rw [clrWrite_all]
  refine forAll_keep_mem (r := fun d => rd d f j) (fun x hx d => rd_ctrClear_ne (.inl ?_) d) d
  rintro rfl
  exact hj (ctrsListed_die hx)

theorem rd_clrAll_fld {f : SFld} (hcount : f ≠ .pmcValCount) (hovf : f ≠ .pmcValOvf) (die i j : Nat) (d : Dyn) :
    rd (clrWrite die true i d) f j = rd d f j :=
  forAll_keep (fun d => rd d f j) _ _ (fun _ d => rd_ctrClear_ne (.inr ⟨hcount, hovf⟩) d) d

theorem clrAll_frame (die i : Nat) (d : Dyn) : clrWrite die true i d = { d with sts := (clrWrite die true i d).sts } := by
  rw [clrWrite_all]
  refine forAll_inv (fun e : Dyn => e = { d with sts := e.sts }) _ _ (fun x e he => ?_) d rfl
  conv_lhs => rw [he]
  rfl

/-- Settles O3: with ALL every counter of the die not at reset is cleared, and no counter of another die; without it one is. -/
theorem clearAllZeroesEveryCounter : Obligations.ClearAllZeroesEveryCounter := by
  unfold Obligations.ClearAllZeroesEveryCounter
  refine ⟨fun s die i => ⟨clrWrite die true i s.dyn, execClr_next die true i s, fun j hj => ?_, fun j hj => ?_,
    fun f j hcount hovf => rd_clrAll_fld hcount hovf _ _ j _, clrAll_frame _ _ _⟩,
    fun s die i => ⟨ctrClear (die * 1024 + i) s.dyn, execClr_next die false i s, (rd_ctrClear_same _ _).1, (rd_ctrClear_same _ _).2,
      fun j hj => ⟨rd_ctrClear_ne (.inl hj) _, rd_ctrClear_ne (.inl hj) _⟩,
      fun f j hcount hovf => rd_ctrClear_ne (.inr ⟨hcount, hovf⟩) _, ctrClear_frame _ _⟩⟩
  · exact ⟨rd_clrAll_same hj _ _ (.inl rfl), rd_clrAll_same hj _ _ (.inr rfl)⟩
  · exact ⟨rd_clrAll_other hj _ _ _, rd_clrAll_other hj _ _ _⟩

/-! ## Package-wide registers (R508) -/

section

variable {g : Cfg} {p : Path} {die : Die} {off : Nat} {r : RegAt} {d : Dyn}
  (hoff : off < 2 ^ 28) (halign : off % 4 = 0) (hreg : regAt off = some r) (hdie : mgmtAnswers d die = true)
  (hlead : mgmtAnswers d (leadOr0 d) = true)

/-- A package-wide register has one index: whose copy of it is read makes no difference. -/
theorem regRead_packageWide (hwide : r.row.perDie = false) (g : Cfg) (p : Path) (peek : Bool) (k k' : Nat) (d : Dyn) :
    regRead g p peek r k d = regRead g p peek r k' d := by
  simp [regRead, regIdx, hwide]

theorem windowAddr_off (die : Die) (hoff : off < 2 ^ 28) : (die * 2 ^ 28 + off) % 2 ^ 28 = off := by omega

theorem windowAddr_die (die : Die) (hoff : off < 2 ^ 28) : (die * 2 ^ 28 + off) / 2 ^ 28 = die := by omega

theorem aliasAddr_off (hoff : off < 2 ^ 28) : (0x40000000 + off) % 2 ^ 28 = off := by omega

include hoff halign hreg

include hdie in
theorem csrRead_window (peek : Bool) : csrRead g p peek (die * 2 ^ 28 + off) 4 d = regRead g p peek r die d := by
  have hlow : ¬ 0x40000000 ≤ die.val * 2 ^ 28 + off := by omega
  unfold csrRead
  rw [if_neg (by omega)]
  simp only [hlow, if_false, windowAddr_die die hoff, windowAddr_off die hoff, hdie, hreg, Bool.not_true, Bool.false_eq_true]

include hlead in
theorem csrRead_alias (peek : Bool) : csrRead g p peek (0x40000000 + off) 4 d = regRead g p peek r (leadOr0 d) d := by
  have hhigh : 0x40000000 ≤ 0x40000000 + off := by omega
  unfold csrRead
  rw [if_neg (by omega)]
  simp only [hhigh, if_true, aliasAddr_off hoff, hlead, hreg, Bool.not_true, Bool.false_eq_true, if_false]

include hdie in
theorem csrWrite_window (hwide : r.row.perDie = false) (v : Nat) :
    csrWrite g p (die * 2 ^ 28 + off) 4 v d = bump .mgmtPathStsMisdirect die 1 d := by
  have hlow : ¬ 0x40000000 ≤ die.val * 2 ^ 28 + off := by omega
  unfold csrWrite
  rw [if_neg (by omega)]
  simp only [hlow, decide_false, if_false, windowAddr_die die hoff, windowAddr_off die hoff, hdie, hreg, hwide, Bool.not_true,
    Bool.false_eq_true]

include hlead in
theorem csrWrite_alias (hwide : r.row.perDie = false) (v : Nat) :
    csrWrite g p (0x40000000 + off) 4 v d = regWrite g p r (leadOr0 d) v d := by
  have hhigh : 0x40000000 ≤ 0x40000000 + off := by omega
  unfold csrWrite
  rw [if_neg (by omega)]
  simp only [hhigh, decide_true, if_true, aliasAddr_off hoff, hlead, hreg, hwide, Bool.not_true, Bool.false_eq_true, if_false]

end

/-- Settles O53: through a die window a write of the register ends in MISDIRECT, through the alias in the register, and both reads read
the one copy. -/
theorem packageWideRegistersAnswerThroughTheAlias : Obligations.PackageWideRegistersAnswerThroughTheAlias := by
  unfold Obligations.PackageWideRegistersAnswerThroughTheAlias
  intro s p die off v r hoff halign hreg hwide hdie
  have hmis : ∀ v, csrWrite s.cfg p (die * 2 ^ 28 + off) 4 v s.dyn = bump .mgmtPathStsMisdirect die 1 s.dyn :=
    csrWrite_window hoff halign hreg hdie hwide
  refine ⟨hmis _, fun hnow hmay => ?_, fun hlead => ⟨csrWrite_alias hoff halign hreg hlead hwide _, fun peek => ?_⟩⟩
  · exact (nextDyn_write (.inl hnow) hmay 4 v.toNat).trans (by rw [hmis])
  · rw [csrRead_window hoff halign hreg hdie, csrRead_alias hoff halign hreg hlead, regRead_packageWide hwide]

end Machine
end Sys2Proof
end

section
/-! PROOFS. The maintenance arbiter's grants (R482 to R486): O48. -/


namespace Sys2Proof
namespace Machine

/-! ## Exclusion (R483) -/

theorem meet_comm (a b : List Nat) : meet a b = meet b a := by
  rw [Bool.eq_iff_iff]
  simp only [meet, List.any_eq_true, List.contains_iff_mem]
  exact ⟨fun ⟨x, ha, hb⟩ => ⟨x, hb, ha⟩, fun ⟨x, hb, ha⟩ => ⟨x, ha, hb⟩⟩

/-- Between activities of one code exclusion goes both ways: what they compare is symmetric. -/
theorem exclLe_comm {a b : ActReq} (h : a.code = b.code) : exclLe a b = exclLe b a := by
  unfold exclLe
  rw [h, meet_comm a.pus, meet_comm a.regions, Bool.beq_comm (a := a.strukt), Bool.beq_comm (a := a.ep)]

theorem excl_comm (a b : ActReq) : excl a b = excl b a := by
  unfold excl
  rcases lt_trichotomy a.code.val b.code.val with h | h | h
  · rw [if_pos h.le, if_neg (by omega)]
  · rw [if_pos h.le, if_pos h.ge, exclLe_comm (Fin.ext h)]
  · rw [if_neg (by omega), if_pos h.le]

/-! ## The scan of the waiting requests (R484, R486) -/

/-- A request that may be granted excludes nothing running, but as a lost link's reconfiguration a firmware handover. -/
theorem actsOk_granted {sag alone : Bool} {running left : List Act} {a : Act} (hok : actsOk running)
    (hmay : mayGrant sag alone running left a = true) : actsOk (running ++ [a]) := by
  simp only [mayGrant, Bool.and_eq_true, List.all_eq_true] at hmay
  obtain ⟨⟨-, hrun⟩, -⟩ := hmay
  refine List.pairwise_append.mpr ⟨hok, List.pairwise_singleton _ _, fun r hr b hb => ?_⟩
  obtain rfl := List.mem_singleton.mp hb
  rw [excl_comm, hrun r hr, Bool.true_or]

/-- What a scan does to the running and waiting lists: exclusion still holds, what runs runs on, and nothing is lost. -/
theorem grantScan_spec (sag alone : Bool) (todo : List Act) {running left : List Act} (hok : actsOk running) :
    actsOk (grantScan sag alone running left todo).1 ∧ running <+: (grantScan sag alone running left todo).1 ∧
      ((grantScan sag alone running left todo).1 ++ (grantScan sag alone running left todo).2).Perm (running ++ (left ++ todo)) := by
  induction todo generalizing running left with
  | nil => exact ⟨hok, List.prefix_rfl, by rw [List.append_nil]; rfl⟩
  | cons a t ih =>
    by_cases hmay : mayGrant sag alone running left a = true
    · obtain ⟨hacts, hpre, hperm⟩ := ih (left := left) (actsOk_granted hok hmay)
      rw [grantScan, if_pos hmay]
      refine ⟨hacts, (List.prefix_append _ _).trans hpre, hperm.trans ?_⟩
      rw [List.append_assoc, List.singleton_append]
      exact List.Perm.append_left _ List.perm_middle.symm
    · obtain ⟨hacts, hpre, hperm⟩ := ih (left := left ++ [a]) hok
      rw [grantScan, if_neg hmay]
      exact ⟨hacts, hpre, by rwa [List.append_assoc, List.singleton_append] at hperm⟩

/-! ## Requests and releases (R482) -/

@[simp] theorem journalTo_note_hlth (l : List Nat) (d : Dyn) : (journalTo l .nothing id d).hlth = d.hlth := by
  unfold journalTo
  split
  · rfl
  · refine (forAll_keep Dyn.hlth l _ (fun w d => ?_) _).trans rfl
    rfl

@[simp] theorem journalArb_hlth (d : Dyn) : (journalArb d).hlth = d.hlth := journalTo_note_hlth _ _

/-- The scan that the arbiter makes of a state. -/
def arbScanned (d : Dyn) : List Act × List Act :=
  grantScan (rd d .nvmSagStsSag 0 == 1) (quorumLost d) d.hlth.running [] d.hlth.waiting

/-- The records of the grants leave what the scan found. -/
theorem arbScan_hlth (d : Dyn) :
    (arbScan d).hlth = { d.hlth with running := (arbScanned d).1, waiting := (arbScanned d).2 } := by
  refine (forAll_keep Dyn.hlth _ _ (fun a d => ?_) _).trans rfl
  rw [journalArb_hlth]
  rfl

theorem actsOk_arbScan {d : Dyn} (h : actsOk d.hlth.running) : actsOk (arbScan d).hlth.running := by
  rw [arbScan_hlth]
  exact (grantScan_spec _ _ _ h).1

theorem arbScan_keeps_running {d : Dyn} (h : actsOk d.hlth.running) : d.hlth.running <+: (arbScan d).hlth.running := by
  rw [arbScan_hlth]
  exact (grantScan_spec _ _ _ h).2.1

theorem arbScan_loses_nothing {d : Dyn} (h : actsOk d.hlth.running) :
    ((arbScan d).hlth.running ++ (arbScan d).hlth.waiting).Perm (d.hlth.running ++ d.hlth.waiting) := by
  rw [arbScan_hlth]
  exact (grantScan_spec _ _ _ h).2.2

theorem actsOk_arbAsk {d : Dyn} (h : actsOk d.hlth.running) (q : ActReq) (tag : Nat) : actsOk (arbAsk q tag d).2.hlth.running :=
  actsOk_arbScan h

/-- Requests of one cycle enter the waiting list alone. -/
theorem actsOk_arbAskAll {d : Dyn} (h : actsOk d.hlth.running) (l : List ActReq) : actsOk (arbAskAll l d).hlth.running := by
  refine actsOk_arbScan (forAll_inv (fun d : Dyn => actsOk d.hlth.running) _ _ (fun _ _ hd => ?_) d h)
  exact hd

/-- Releases take activities out of the running list. -/
theorem actsOk_arbFree {d : Dyn} (h : actsOk d.hlth.running) (id : Nat) : actsOk (arbFree id d).hlth.running := by
  refine actsOk_arbScan (List.Pairwise.filter _ ?_)
  split
  · rw [journalArb_hlth]; exact h
  · exact h

/-- Settles O48: a scan keeps exclusion, and requests and releases end in a scan of lists of which it holds. -/
theorem grantsNeverExcludeEachOther : Obligations.GrantsNeverExcludeEachOther := by
  unfold Obligations.GrantsNeverExcludeEachOther
  intro d hok
  exact ⟨actsOk_arbScan hok, arbScan_keeps_running hok, arbScan_loses_nothing hok, fun q tag => actsOk_arbAsk hok q tag,
    fun l => actsOk_arbAskAll hok l, fun id => actsOk_arbFree hok id⟩

end Machine
end Sys2Proof
end

section
/-! PROOFS. The physical layer of GnokuLink: bring-up, loopback, idle and spare lanes (R364 to R372): O24 and O25. -/


namespace Sys2Proof
namespace Machine

/-! ## Bring-up (R364 to R368) -/

section

variable {s : State} {n : Ep}

theorem execPhyEnable_off (hoff : phySt s.dyn n = 0) (hen : rd s.dyn .gklPhyCtlEn n = 0) : execPhyEnable n s =
    .next (s.setDyn (phyTrain n (put .gklPhyStsFailWhy n 0
      (gklMod n (fun x => { x with tries := 0, failAt := none }) (put .gklPhyCtlEn n 1 s.dyn))))) := by
  have hphy : phySt (put .gklPhyCtlEn n 1 s.dyn) n = 0 := (rd_put_fld (by decide) _ _ _ _).trans hoff
  exact nextDyn_setDyn (if_pos ⟨hphy, hen⟩)

theorem execPhyDisable_next {d : Dyn} (hd : d = swapEnd n 3 (lnkDown n 7 (put .gklPhyCtlEn n 0 s.dyn))) : execPhyDisable n s =
    .next (s.setDyn (if phySt d n = 0 then d else emit (.gklPhy n 0 0 0) (put .gklPhyStsState n 0 d))) := by
  subst hd; exact nextDyn_setDyn rfl

section

variable (htrain : phySt s.dyn n = 1)

section

variable {lane : Fin 180} {var : Fin 16} (hback : (gklGet s.dyn n).backAt = none) (hlane : lane.val < gklLanes n)
  (hclock : lane.val % 18 ≠ 16)

include htrain hback hlane hclock

/-- A block counts on a data or spare lane of an endpoint that trains and is not in its 10 µs of silence. -/
theorem trainingBlock_counts : ¬ (phySt s.dyn n ≠ 1 ∨ (gklGet s.dyn n).backAt.isSome ∨ gklLanes n ≤ lane.val ∨ lane.val % 18 = 16) := by
  simp [htrain, hback, hclock, hlane]

theorem execTrainingBlock_badChk {k : Nat} {d : Dyn} (locked lpbk : Bool) (id : Fin 256) (inv : Bool)
    (hk : k = aget 0 (gklGet s.dyn n).badBlk lane + 1)
    (hd : d = gklMod n (fun x => { x with badBlk := aset 0 x.badBlk lane k, goodBlk := aset 0 x.goodBlk lane 0 }) s.dyn) :
    execTrainingBlock n lane var locked lpbk id false inv s = .next (s.setDyn (if 8 ≤ k then trainFail n 2 d else d)) := by
  subst hk hd
  exact nextDyn_setDyn ((if_neg (trainingBlock_counts htrain hback hlane hclock)).trans (if_pos rfl))

theorem execTrainingBlock_fits {id : Fin 256} {fit : Bool × Bool} {x : GklEp} {d e : Dyn} (locked lpbk inv : Bool)
    (hx : x = gklGet s.dyn n) (hvar : var.val = b2n (gklIsP n) + 1) (hfit : laneFit n lane id = some fit)
    (hagree : laneAgrees s.dyn n lane fit = true)
    (hd : d = put .gklPhyStsGrpRev n (b2n fit.2)
      (if lane.val % 18 < 16 then putBit .gklPhyStsRev n (lane / 18) fit.1 s.dyn else s.dyn))
    (he : e = (if (cellsFind lane.val x.ids.cells).isNone && inv then put .gklPhyStsPol n (rd d .gklPhyStsPol n + 1) d else d)) :
    execTrainingBlock n lane var locked lpbk id true inv s = .next (s.setDyn (endReady n (gklSet n { x with
      ids := ⟨cellsPut lane id.val (cellsDrop lane x.ids.cells)⟩, badBlk := aset 0 x.badBlk lane 0,
      goodBlk := aset 0 x.goodBlk lane (if locked then min 8 (aget 0 x.goodBlk lane + 1) else 0), lpbkRx := lpbk } e))) := by
  subst hx hd he
  refine nextDyn_setDyn ((if_neg (trainingBlock_counts htrain hback hlane hclock)).trans ?_)
  rw [if_neg (by decide), if_neg (by simp [hvar])]
  simp only [hfit, hagree, Bool.not_true, Bool.false_eq_true, if_false]

end

include htrain

theorem execReceiverLocked_done (hback : (gklGet s.dyn n).backAt = none) : execReceiverLocked n s =
    .next (s.setDyn (endReady n (phySay n 2 0 0 (gklMod n (fun x => { x with locked := true }) s.dyn)))) :=
  nextDyn_setDyn (if_pos ⟨htrain, hback⟩)

theorem execEndBlock_locked {x : GklEp} (hx : x = gklGet s.dyn n) (hback : x.backAt = none) (hlocked : x.locked = true)
    (hall : allLocked s.dyn n = true) : execEndBlock n s = .next (s.setDyn
      (if rd s.dyn .gklLpbkCtlMode n = 1 ∨ rd s.dyn .gklLpbkCtlMode n = 2 then put .gklPhyStsState n 5 (gklSet n { x with tries := 0 } s.dyn)
      else if x.lpbkRx = true then put .gklPhyStsState n 5
        (gklSet n { x with tries := 0, looping := rd s.dyn .gklLpbkCtlMode n == 0 } s.dyn)
      else phyActive s.cfg n (if rd s.dyn .gklLpbkCtlMode n = 3 then put .gklLpbkCtlRefused n 1 s.dyn else s.dyn))) := by
  subst hx
  exact nextDyn_setDyn (if_neg (by simp [htrain, hback, hlocked, hall]))

theorem execTrainTimeout_due (hback : (gklGet s.dyn n).backAt = none)
    (hdue : (gklGet s.dyn n).trainAt + trainTmo s.cfg n ≤ s.dyn.now) : execTrainTimeout n s = .next (s.setDyn (trainFail n 1 s.dyn)) :=
  nextDyn_setDyn (if_pos ⟨htrain, hback, hdue⟩)

theorem execTrainBackoff_due {t : Nat} (hback : (gklGet s.dyn n).backAt = some t) (hdue : t + 10000 ≤ s.dyn.now) :
    execTrainBackoff n s = .next (s.setDyn (phyTrain n s.dyn)) := by
  refine nextDyn_setDyn ?_
  rw [hback]
  exact if_pos ⟨htrain, hdue⟩

end

/-! ## Loopback (R369) -/

theorem execLpbkCtlWrite_next {mode : Fin 4} {d : Dyn} (hd : d = put .gklLpbkCtlRefused n 0 (put .gklLpbkCtlMode n mode s.dyn)) :
    execLpbkCtlWrite n mode s = .next (s.setDyn (if mode.val ≠ 0 ∧ phySt d n = 2 then phyTrain n (lnkDown n 1 d)
      else if mode.val = 0 ∧ phySt d n = 5 then phyTrain n d else d)) := by
  subst hd; exact nextDyn_setDyn rfl

theorem execLpbkExit_looping (hphy : phySt s.dyn n = 5) (hloop : (gklGet s.dyn n).looping = true) :
    execLpbkExit n s = .next (s.setDyn (phyTrain n s.dyn)) := nextDyn_setDyn (if_pos ⟨hphy, hloop⟩)

/-! ## Idle and wake (R370) -/

theorem execExitBurst_idle (hidle : phySt s.dyn n = 3) : execExitBurst n s = .next (s.setDyn (leaveIdle n (phySay n 4 0 0 s.dyn))) :=
  nextDyn_setDyn (if_pos hidle)

theorem execWakePattern_idle (hidle : phySt s.dyn n = 3) : execWakePattern n s = .next (s.setDyn (leaveIdle n (phySay n 4 0 0 s.dyn))) :=
  nextDyn_setDyn (if_pos hidle)

theorem execWakePattern_asleep (hsleep : phySt s.dyn n = 4) :
    execWakePattern n s = .next (s.setDyn (emit (.wake (2000 + gklRegion n)) s.dyn)) :=
  nextDyn_setDyn ((if_neg (by omega)).trans (if_pos hsleep))

theorem execWakeUnanswered_due {x : GklEp} (hidle : phySt s.dyn n = 3) (hx : x = gklGet s.dyn n) (hwakes : x.wakes ≠ 0)
    (hdue : x.wakeAt + 100000 ≤ s.dyn.now) : execWakeUnanswered n s = .next (s.setDyn
      (if x.wakes < 10 then phySay n 5 0 0 (gklSet n { x with wakes := x.wakes + 1, wakeAt := s.dyn.now } s.dyn)
      else lnkDown n 1 (raise 0x0806 (gklDie n) [n] (put .gklPhyStsFailWhy n 3 (put .gklPhyStsState n 6 s.dyn))))) := by
  subst hx; exact nextDyn_setDyn (if_pos ⟨hidle, hwakes, hdue⟩)

/-! ## Spare lanes (R371, R372) -/

theorem execSwapGo_free {grp pos : Fin 16} {d : Dyn} (hd : d = put .gklSwapCmdPos n pos (put .gklSwapCmdGrp n grp s.dyn))
    (hnone : (gklGet d n).swap = none) (hgrp : grp.val < gklGroups n) (hused : spareUsed d n grp = false)
    (hfail : bitAt (spareBits d n grp) 4 = false) (hspare : (gklGet d n).lost.contains (18 * grp.val + 17) = false) :
    execSwapGo n grp pos s = .next (s.setDyn (swapStart n (gklMod n
      (fun x => { x with swap := some ⟨grp, pos, false, false,
        (arbAsk { actReq 3 [] (gklEnds n) with ep := n } n (put .gklSwapCmdResult n 0 d)).1⟩ })
      (arbAsk { actReq 3 [] (gklEnds n) with ep := n } n (put .gklSwapCmdResult n 0 d)).2))) := by
  subst hd
  refine nextDyn_setDyn ((if_neg (by rw [hnone]; decide)).trans (if_neg ?_))
  rw [hused, hfail, hspare]
  simp [hgrp]

theorem execSwapGo_refused {grp pos : Fin 16} {d : Dyn} (hd : d = put .gklSwapCmdPos n pos (put .gklSwapCmdGrp n grp s.dyn))
    (hnone : (gklGet d n).swap = none) (hno : gklGroups n ≤ grp.val ∨ spareUsed d n grp = true) :
    execSwapGo n grp pos s = .next (s.setDyn (put .gklSwapCmdResult n 3 d)) := by
  subst hd
  exact nextDyn_setDyn ((if_neg (by rw [hnone]; decide)).trans (if_pos (hno.imp_right .inl)))

theorem execSwapReady_free {grp : Fin 16} (pos : Fin 16) (hphy : phySt s.dyn n = 2) (hgrp : grp.val < gklGroups n)
    (hused : spareUsed s.dyn n grp = false) :
    execSwapReady n grp pos s = .next (s.setDyn (if (gklGet s.dyn n).lost.contains (18 * grp.val + pos.val) then
      gklSay n (bypSwap 2 grp pos) 1 (spareTake n grp pos s.dyn)
      else gklMod n (fun x => { x with cmp := some (grp.val, pos.val) }) s.dyn)) :=
  nextDyn_setDyn (if_neg (by simp [hphy, hused, hgrp]))

theorem execSwapCompareDone_running {w : Nat × Nat} {d : Dyn} (same : Bool) (hcmp : (gklGet s.dyn n).cmp = some w)
    (hd : d = gklMod n (fun x => { x with cmp := none }) s.dyn) : execSwapCompareDone n same s = .next (s.setDyn
      (if same then gklSay n (bypSwap 2 w.1 w.2) 1 (spareTake n w.1 w.2 d) else gklSay n (bypSwap 3 w.1 w.2) 1 d)) := by
  subst hd
  refine nextDyn_setDyn ?_
  rw [hcmp]

section

variable {grp pos : Fin 16} {w : Swap} (hw : (gklGet s.dyn n).swap = some w) (htold : w.told = true) (hgrp : w.grp = grp)
  (hpos : w.pos = pos)

include hw htold hgrp hpos

theorem execSwapDone_told : execSwapDone n grp pos s = .next (s.setDyn (swapEnd n 1 (phySay n 7 grp pos
    (gklMod n (fun x => { x with txSpare := aset 0 x.txSpare grp (pos + 1) }) s.dyn)))) := by
  refine nextDyn_setDyn ?_
  simp only [swapDone, hw, htold, hgrp, hpos, beq_self_eq_true, Bool.and_self, if_true]

theorem execSwapFail_told : execSwapFail n grp pos s = .next (s.setDyn (swapEnd n 2 (phySay n 8 grp 0 s.dyn))) := by
  refine nextDyn_setDyn ?_
  simp only [swapFail, hw, htold, hgrp, hpos, beq_self_eq_true, Bool.and_self, if_true]

end

theorem execLaneFailed_next (lane : Fin 180) : execLaneFailed n lane s = .next (s.setDyn (laneFail n lane s.dyn)) := nextDyn_setDyn rfl

end

/-- Settles O24: the endpoint's state and what the attempt has found select the branch that each command runs to. -/
theorem linkTrainingCommandsComplete : Obligations.LinkTrainingCommandsComplete := by
  unfold Obligations.LinkTrainingCommandsComplete
  refine ⟨fun s n hoff hen => execPhyEnable_off hoff hen, fun s n d hd => execPhyDisable_next hd,
    fun s n lane locked lpbk inv id fit x d e htrain hx hback hlane hclock hfit hagree hd he => ?_,
    fun s n lane var locked lpbk inv id k d htrain hback hlane hclock hk hd =>
      execTrainingBlock_badChk htrain hback hlane hclock locked lpbk id inv hk hd,
    fun s n htrain hback => execReceiverLocked_done htrain hback,
    fun s n x htrain hx hback hlocked hall => execEndBlock_locked htrain hx hback hlocked hall,
    fun s n htrain hback hdue => execTrainTimeout_due htrain hback hdue,
    fun s n t htrain hback hdue => execTrainBackoff_due htrain hback hdue,
    fun s n mode d hd => execLpbkCtlWrite_next hd, fun s n hphy hloop => execLpbkExit_looping hphy hloop⟩
  have hvar : (if gklIsP n then 2 else 1 : Fin 16).val = b2n (gklIsP n) + 1 := by cases gklIsP n <;> rfl
  exact execTrainingBlock_fits htrain (hx ▸ hback) hlane hclock locked lpbk inv hx hvar hfit hagree hd he

/-- Settles O25: the endpoint's state, its group's spare and the swap on its way select the branch that each command runs to. -/
theorem linkIdleAndSpareCommandsComplete : Obligations.LinkIdleAndSpareCommandsComplete := by
  unfold Obligations.LinkIdleAndSpareCommandsComplete
  exact ⟨fun s n hidle => ⟨execExitBurst_idle hidle, execWakePattern_idle hidle⟩, fun s n hsleep => execWakePattern_asleep hsleep,
    fun s n x hidle hx hwakes hdue => execWakeUnanswered_due hidle hx hwakes hdue,
    fun s n grp pos d hd hnone hgrp hused hfail hspare => execSwapGo_free hd hnone hgrp hused hfail hspare,
    fun s n grp pos d hd hnone hno => execSwapGo_refused hd hnone hno,
    fun s n grp pos hphy hgrp hused => execSwapReady_free pos hphy hgrp hused,
    fun s n same w d hcmp hd => execSwapCompareDone_running same hcmp hd,
    fun s n grp pos w hw htold hgrp hpos => ⟨execSwapDone_told hw htold hgrp hpos, execSwapFail_told hw htold hgrp hpos⟩,
    fun s n lane => execLaneFailed_next lane⟩

end Machine
end Sys2Proof
end

section
/-! PROOFS. The link layer of GnokuLink: flits, replay, selective mode, credits, versions and idle (R376 to R394): O26 and O27. -/


namespace Sys2Proof
namespace Machine

/-! ## Data flits (R376, R383, R387, R388) -/

section

variable {s : State} {n : Ep} {f : GFlit}

@[simp] theorem lnkSt_bump {c : SFld} (h : SFld.gklLnkStsState ≠ c) (i k m : Nat) (d : Dyn) : lnkSt (bump c i k d) m = lnkSt d m :=
  rd_bump_fld h ..

/-- What becomes of a good flit with its ACK and its bypass word acted on: `ahead` is its distance from the next one expected. -/
def flitPlaced (g : Cfg) (n : Nat) (f : GFlit) (ahead : Nat) (e : Dyn) : Dyn :=
  if ahead = 0 then (if rd (drainHeld g n 64 (acceptFlit g n f e)) .gklLnkStsRxSel n = 1
    then nameGap n (drainHeld g n 64 (acceptFlit g n f e)) else drainHeld g n 64 (acceptFlit g n f e))
  else if 2048 ≤ ahead then bump .gklLnkErr2Dup n 1 e
  else if rd e .gklLnkStsRxSel n = 1 ∧ ahead ≤ 64 ∧ (gklGet e n).held.length < 64 ∧ ((gklGet e n).held.any fun h => h.seq == f.seq) = false
  then nameGap n (gklMod n (fun x => { x with held := x.held ++ [f] }) e) else e

section

variable (hphy : phySt s.dyn n = 2) (hlnk : 2 ≤ lnkSt s.dyn n) (hcorr : f.corr = [])

include hphy hlnk hcorr

/-- With nothing to correct a flit comes to the test of its CRC. -/
theorem execDataFlit_uncorrected {r : Dyn}
    (hr : (if !f.crcOk then badFlit s.cfg n (bump .gklLnkFecCorr n 0 s.dyn) else
      let d := takeWord s.cfg n f.byp (takeAck n f.ack (bump .gklLnkFecCorr n 0 s.dyn))
      if lnkSt d n < 2 then d else flitPlaced s.cfg n f (mod12 f.seq (rd d .gklLnkStsNes n)) d) = r) :
    execDataFlit n f s = .next (s.setDyn r) := by
  refine nextDyn_setDyn ((if_neg (by omega)).trans ?_)
  simp only [hcorr, List.length_nil, forAll_nil]
  rw [if_neg (by rw [lnkSt_bump (by decide)]; omega)]
  simp only [flitPlaced, Bool.not_eq_true'] at hr ⊢
  exact hr

theorem execDataFlit_badCrc (hcrc : f.crcOk = false) :
    execDataFlit n f s = .next (s.setDyn (badFlit s.cfg n (bump .gklLnkFecCorr n 0 s.dyn))) :=
  execDataFlit_uncorrected hphy hlnk hcorr (if_pos (by rw [hcrc]; rfl))

theorem execDataFlit_placed (hcrc : f.crcOk = true) {d e : Dyn} {ahead : Nat} (hd : d = bump .gklLnkFecCorr n 0 s.dyn)
    (he : e = takeWord s.cfg n f.byp (takeAck n f.ack d)) (hup : 2 ≤ lnkSt e n) (hahead : ahead = mod12 f.seq (rd e .gklLnkStsNes n)) :
    execDataFlit n f s = .next (s.setDyn (flitPlaced s.cfg n f ahead e)) := by
  subst hd he hahead
  exact execDataFlit_uncorrected hphy hlnk hcorr ((if_neg (by rw [hcrc]; decide)).trans (if_neg (by omega)))

end

theorem execShortFlit_good (ack : Fin 4096) (ws : List Word) (hphy : phySt s.dyn n = 2) :
    execShortFlit n ack ws true s = .next (s.setDyn (forAll (ws.take 6) (fun w d => takeWord s.cfg n w d)
      (if lnkSt s.dyn n = 3 then takeAck n ack s.dyn else s.dyn))) :=
  nextDyn_setDyn (if_neg (by simp [hphy]))

/-! ## Replay (R386, R389) -/

theorem execReplayTimeout_due {x : GklEp} {f : TxFlit} {t : List TxFlit} {k : Nat} {d : Dyn} (hx : x = gklGet s.dyn n)
    (hreplay : x.replay = f :: t) (hup : lnkSt s.dyn n = 3) (hdue : x.timer + (if gklIsP n then 2000 else 200) ≤ s.dyn.now)
    (hk : k = (if x.expSeq = f.seq ∧ x.exps ≠ 0 then x.exps + 1 else 1))
    (hd : d = resendFlits n x.replay (gklSet n { x with exps := k, expSeq := f.seq } s.dyn)) :
    execReplayTimeout n s = .next (s.setDyn (if 32 ≤ k then lnkDown n 2 d else d)) := by
  subst hx hk hd
  refine nextDyn_setDyn ?_
  have hhead : (gklGet s.dyn n).replay.head? = some f := by rw [hreplay]; rfl
  simp only [hhead]
  exact if_pos ⟨hup, hdue⟩

theorem execNak_honoured {first : Fin 4096} {count : Fin 65} {l : List TxFlit} (hsel : rd s.dyn .gklLnkStsTxSel n ≠ 0)
    (hl : l = (gklGet s.dyn n).replay.filter (fun f => decide (mod12 f.seq first < count.val))) (hne : l ≠ []) :
    execNak n first count s = .next (s.setDyn (resendFlits n l s.dyn)) := by
  subst hl
  exact nextDyn_setDyn ((if_neg hsel).trans (if_neg (by rw [List.isEmpty_iff]; exact hne)))

theorem execNakRepeat_due {f c t : Nat} (hnak : (gklGet s.dyn n).nak = some (f, c, t)) (hsel : rd s.dyn .gklLnkStsRxSel n = 1)
    (hdue : t + 4 * (gklGet s.dyn n).lat ≤ s.dyn.now) : execNakRepeat n s = .next (s.setDyn (sendNak n f c s.dyn)) := by
  refine nextDyn_setDyn ?_
  simp only [hnak]
  exact if_pos ⟨hsel, hdue⟩

/-! ## Selective mode (R388, R390) -/

section

variable (hminor : rd s.dyn .gklLnkStsMinor n = 1)

include hminor

theorem minor_ne_zero : rd s.dyn .gklLnkStsMinor n ≠ 0 := by omega

theorem execReqSel_allowed {d : Dyn} (hen : cg s.cfg .gklLnkCtlSelEn n = 1) (hd : d = gklSay n (bypMode 1) 1 (put .gklLnkStsTxSel n 1 s.dyn)) :
    execReqSel n s = .next (s.setDyn (if rd s.dyn .gklLnkStsTxSel n = 0 then raise 0x0814 (gklDie n) [n] d else d)) := by
  subst hd
  exact nextDyn_setDyn ((if_neg (minor_ne_zero hminor)).trans ((if_pos rfl).trans (if_neg (by simp [selOk, hminor, hen]))))

theorem execAckSel_asked {t : Nat} (hmode : (gklGet s.dyn n).mode = some (0, t)) :
    execAckSel n s = .next (s.setDyn (put .gklLnkStsRxSel n 1 (gklMod n (fun x => { x with mode := none }) s.dyn))) :=
  nextDyn_setDyn ((if_neg (minor_ne_zero hminor)).trans ((if_neg (by decide)).trans ((if_neg (by decide)).trans
    (if_pos ⟨rfl, by rw [hmode]; rfl⟩))))

theorem execReqGbn_done : execReqGbn n s = .next (s.setDyn (gklSay n (bypMode 3) 1 (put .gklLnkStsTxSel n 0 s.dyn))) :=
  nextDyn_setDyn (if_neg (minor_ne_zero hminor))

theorem execAckGbn_asked {t : Nat} (hmode : (gklGet s.dyn n).mode = some (2, t)) :
    execAckGbn n s = .next (s.setDyn (raise 0x0815 (gklDie n) [n] (put .gklLnkStsRxSel n 0
      (gklMod n (fun x => { x with mode := none, nak := none }) s.dyn)))) :=
  nextDyn_setDyn ((if_neg (minor_ne_zero hminor)).trans ((if_neg (by decide)).trans ((if_neg (by decide)).trans
    ((if_neg (by simp)).trans (if_pos ⟨rfl, by rw [hmode]; rfl⟩)))))

end

theorem execSelectiveQuiet_due (hsel : rd s.dyn .gklLnkStsRxSel n = 1) (hheld : (gklGet s.dyn n).held = [])
    (hmode : (gklGet s.dyn n).mode = none) (hdue : (gklGet s.dyn n).lastEv + 1000000 ≤ s.dyn.now) :
    execSelectiveQuiet n s = .next (s.setDyn (askMode n 2 s.dyn)) := nextDyn_setDyn (if_pos ⟨hsel, hheld, hmode, hdue⟩)

theorem execModeRepeat_due {op t : Nat} (hmode : (gklGet s.dyn n).mode = some (op, t)) (hup : lnkSt s.dyn n = 3)
    (hdue : t + 1000 ≤ s.dyn.now) : execModeRepeat n s = .next (s.setDyn (askMode n op s.dyn)) := by
  refine nextDyn_setDyn ?_
  simp only [hmode]
  exact if_pos ⟨hup, hdue⟩

/-! ## Credits and bring-up (R380, R381, R392, R393) -/

theorem gklGet_gklSet_same (n : Nat) (y : GklEp) (d : Dyn) : gklGet (gklSet n y d) n = y := aget_aset_same ..

section

variable {tc : Fin 8} {h dc : Fin 4096} {x : GklEp} {d : Dyn} (hx : x = gklGet s.dyn n)

include hx

theorem execCredit_up (hup : 3 ≤ lnkSt s.dyn n)
    (hd : d = gklSet n { x with limit := aset 0 (aset 0 x.limit tc h.val) (8 + tc) dc.val, crdSeen := bitSet x.crdSeen tc } s.dyn) :
    execCredit n tc h dc s = .next (s.setDyn (gklPump n d)) := by
  subst hx hd
  have hnot : ¬ lnkSt s.dyn n = 2 := by omega
  exact nextDyn_setDyn ((if_neg (by omega)).trans (congrArg (gklPump n) (if_neg fun hboth => hnot hboth.1)))

theorem execCredit_last {e : Dyn} (hcred : lnkSt s.dyn n = 2) (hall : bitSet x.crdSeen tc = 255)
    (hd : d = gklSet n { x with limit := aset 0 (aset 0 x.limit tc h.val) (8 + tc) dc.val, crdSeen := 255 } s.dyn)
    (he : e = raise 0x0810 (gklDie n) [n] (gklMod n (fun x => { x with lastTx := d.now, crdAt := d.now })
      (put .gklLnkSeqTxNext n 0 (put .gklLnkSeqTxAcked n 0 (put .gklLnkStsState n 3 d))))) :
    execCredit n tc h dc s = .next (s.setDyn (gklPump n
      (if gklIsP n then sayHello s.cfg n e else linkReturn (gklLink n).1 (gklLink n).2 e))) := by
  subst hx
  rw [← hall] at hd
  subst hd he
  refine nextDyn_setDyn ((if_neg (by omega)).trans (congrArg (gklPump n) (if_pos ⟨hcred, ?_⟩)))
  rw [gklGet_gklSet_same]
  exact hall

end

theorem execCreditRefresh_up (hup : lnkSt s.dyn n = 3) (hphy : phySt s.dyn n = 2) :
    execCreditRefresh n s = .next (s.setDyn (sendCredits n (gklMod n (fun x => { x with crdAt := s.dyn.now }) s.dyn))) :=
  nextDyn_setDyn (if_pos ⟨hup, hphy⟩)

section

variable {minor : Fin 16} {kind : Fin 4} {pkg : Fin 8} (hcap : lnkSt s.dyn n = 1)

include hcap

theorem execCap_accepted {v : Nat} {d : Dyn} (hkind : kind.val = b2n (gklIsP n) + 1)
    (hpkg : gklIsP n = false ∨ pkg.val ≠ rd s.dyn .dieDieIdPkgId 0) (hv : v = min (min 1 (cg s.cfg .gklLnkCtlMaxminor n)) minor)
    (hd : d = gklMod n (fun x => { x with lat := s.dyn.now - x.initAt }) (put .gklLnkStsNes n 0 (put .gklLnkStsMinor n v
      (put .gklLnkStsMajor n 1 (put .gklLnkStsState n 2 s.dyn))))) :
    execCap n 1 minor kind pkg s = .next (s.setDyn (sendCredits n (if v = 0 then raise 0x0812 (gklDie n) [n] d else d))) := by
  subst hv hd
  refine nextDyn_setDyn ((if_neg (fun hne => hne hcap)).trans (if_neg ?_))
  rintro (hmajor | hother | ⟨hp, hown⟩)
  · exact hmajor rfl
  · exact hother hkind
  · rcases hpkg with hd | hne
    · simp [hd] at hp
    · exact hne hown

theorem execCap_refused {major : Fin 16} (hbad : major.val ≠ 1 ∨ kind.val ≠ b2n (gklIsP n) + 1) :
    execCap n major minor kind pkg s = .next (s.setDyn (lnkDown n 5 (raise 0x0813 (gklDie n) [n] s.dyn))) :=
  nextDyn_setDyn ((if_neg (fun hne => hne hcap)).trans (if_pos (hbad.imp_right .inl)))

end

theorem execInitTimeout_due (hinit : lnkSt s.dyn n = 1 ∨ lnkSt s.dyn n = 2) (hdue : (gklGet s.dyn n).initAt + 10000 ≤ s.dyn.now) :
    execInitTimeout n s = .next (s.setDyn (lnkDown n 6 s.dyn)) := nextDyn_setDyn (if_pos ⟨hinit, hdue⟩)

theorem execDown_next (why : Fin 16) : execDown n why s = .next (s.setDyn (lnkDown n why s.dyn)) := nextDyn_setDyn rfl

/-! ## Idle (R394) -/

theorem execIdleTimer_due (hmay : mayIdle s.cfg s.dyn n = true) :
    execIdleTimer n s = .next (s.setDyn (gklSay n (bypPwr 1) 1 (gklMod n (fun x => { x with idle := true }) s.dyn))) :=
  nextDyn_setDyn (if_pos hmay)

section

variable (hup : lnkSt s.dyn n = 3) (hphy : phySt s.dyn n = 2)

include hup hphy

/-- PWR words act on an ACTIVE endpoint of a link that is UP. -/
theorem takePwr_up : ¬ (lnkSt s.dyn n ≠ 3 ∨ phySt s.dyn n ≠ 2) := by omega

theorem execIdleReq_up : execIdleReq n s = .next (s.setDyn (if (gklGet s.dyn n).idle = true then enterIdle n s.dyn
    else if mayIdle s.cfg s.dyn n = true then enterIdle n (gklSay n (bypPwr 2) 1 s.dyn) else gklSay n (bypPwr 3) 1 s.dyn)) :=
  nextDyn_setDyn (if_neg (takePwr_up hup hphy))

theorem execIdleAck_up : execIdleAck n s = .next (s.setDyn (if (gklGet s.dyn n).idle = true then enterIdle n s.dyn else s.dyn)) :=
  nextDyn_setDyn (if_neg (takePwr_up hup hphy))

theorem execIdleNak_up : execIdleNak n s = .next (s.setDyn (gklMod n (fun x => { x with idle := false }) s.dyn)) :=
  nextDyn_setDyn (if_neg (takePwr_up hup hphy))

end

end

/-- Settles O26: a flit's CRC and its distance from the next one expected select its branch, the timers, the modes and the version those
of the other commands. -/
theorem flitCommandsComplete : Obligations.FlitCommandsComplete := by
  unfold Obligations.FlitCommandsComplete
  exact ⟨fun s n f d e ahead hphy hlnk hcorr hcrc hd he hup hahead => execDataFlit_placed hphy hlnk hcorr hcrc hd he hup hahead,
    fun s n f hphy hlnk hcorr hcrc => execDataFlit_badCrc hphy hlnk hcorr hcrc,
    fun s n ack ws hphy => execShortFlit_good ack ws hphy,
    fun s n x f t k d hx hreplay hup hdue hk hd => execReplayTimeout_due hx hreplay hup hdue hk hd,
    fun s n first count l hsel hl hne => execNak_honoured hsel hl hne,
    fun s n f c t hnak hsel hdue => execNakRepeat_due hnak hsel hdue,
    fun s n d hminor hen hd => execReqSel_allowed hminor hen hd, fun s n t hminor hmode => execAckSel_asked hminor hmode,
    fun s n hminor => execReqGbn_done hminor, fun s n t hminor hmode => execAckGbn_asked hminor hmode,
    fun s n hsel hheld hmode hdue => execSelectiveQuiet_due hsel hheld hmode hdue,
    fun s n op t hmode hup hdue => execModeRepeat_due hmode hup hdue⟩

/-- Settles O27: the link's state, its version and what each side has asked select the branch that each command runs to. -/
theorem linkStateCommandsComplete : Obligations.LinkStateCommandsComplete := by
  unfold Obligations.LinkStateCommandsComplete
  exact ⟨fun s n tc h dc x d hx hup hd => execCredit_up hx hup hd,
    fun s n tc h dc x d e hx hcred hall hd he => execCredit_last hx hcred hall hd he,
    fun s n hup hphy => execCreditRefresh_up hup hphy,
    fun s n minor kind pkg v d hcap hkind hpkg hv hd => execCap_accepted hcap hkind hpkg hv hd,
    fun s n major minor kind pkg hcap hbad => execCap_refused hcap hbad,
    fun s n hinit hdue => execInitTimeout_due hinit hdue, fun s n why => execDown_next why,
    fun s n hmay => execIdleTimer_due hmay,
    fun s n hup hphy => ⟨execIdleReq_up hup hphy, execIdleAck_up hup hphy, execIdleNak_up hup hphy⟩⟩

end Machine
end Sys2Proof
end

section
/-! PROOFS. Power states and wake (R404 to R412): O28. -/


namespace Sys2Proof
namespace Machine

/-! ## Clock gating and requests (R402, R404, R405) -/

theorem execClockGate_idle {s : State} {u : GateUnit} {n j : Nat} {d : Dyn} (hn : n = gateNo u) (hj : j = unitDom n)
    (hopen : gated s.dyn n = false) (hawake : domPwr s.dyn j = 0) (hworks : rd s.dyn .pwrDomStsFail j ≠ 1)
    (hidle : unitBusy s.dyn n = false) (hdp : dpLive s.cfg s.dyn n = false)
    (hd : d = pwrSet j { pwrGet s.dyn j with workAt := s.dyn.now }
      { s.dyn with elec := { s.dyn.elec with gated := s.dyn.elec.gated ++ [n] } }) :
    execClockGate u s = .next (s.setDyn (forAll (j :: domAbove j) (fun x d =>
      if rd d .pwrDomStsState x = 0 ∧ (domUnits x).all (fun v => gated d v || decide (2 ≤ domPwr d (unitDom v)))
      then put .pwrDomStsState x 1 d else d) d)) := by
  subst hj hn hd
  exact nextDyn_setDyn (if_neg (by simp [hopen, hawake, hworks, hidle, hdp]))

section

variable {s : State} {j : Fin 92} {x : PwrDom}

theorem execPowerRequest_asked {clear : Bool} {t : Nat} (ht : t = (if clear then 3 else 2)) (hmay : mayAsk s.cfg s.dyn j t = true)
    (hx : x = { pwrGet s.dyn j with target := t, rounds := 0, accepts := preAccept s.dyn j, delayed := [], delay := 0,
                                    reqAt := s.dyn.now, from0 := rd s.dyn .pwrDomStsState j }) :
    execPowerRequest j clear s = .next (s.setDyn (forAll (domPriv j) (fun e d => epClose s.cfg e d)
      (emit (.pwrReq j t) (put .pwrDomStsState j 4 (pwrSet j x s.dyn))))) := by
  subst ht hx
  exact nextDyn_setDyn (if_neg (by rw [hmay]; decide))

/-! ## Answers (R406 to R408) -/

section

variable {blk : Nat} {b : PBlk} (hx : x = pwrGet s.dyn j) (hblk : (domBlks j)[blk]? = some b)
  (hasked : rd s.dyn .pwrDomStsState j = 4) (hacc : x.accepts.contains blk = false) (hdel : x.delayed.contains blk = false)

include hx hblk hasked hacc hdel

/-- The first answer of a block of a domain that has been asked is taken by its kind. -/
theorem execPowerAnswer_first (a : PwrAns) : execPowerAnswer j blk a s = .next (s.setDyn (match a with
    | .refuse => if b.priv.isSome then s.dyn else pwrRefused j s.dyn
    | .accept => if canAccept s.dyn b then pwrSettle s.cfg j (pwrSet j { x with accepts := x.accepts ++ [blk] } s.dyn) else s.dyn
    | .delay us => pwrSettle s.cfg j (pwrSet j
        { x with delayed := x.delayed ++ [blk], delay := max x.delay (clamp 1 255 us) } s.dyn))) := by
  subst hx
  refine nextDyn_setDyn ?_
  simp only [hblk]
  refine (if_neg (by rw [hasked, hacc, hdel]; decide)).trans ?_
  cases a <;> rfl

theorem execPowerAnswer_refuse (hpriv : b.priv = none) : execPowerAnswer j blk .refuse s = .next (s.setDyn (pwrRefused j s.dyn)) := by
  rw [execPowerAnswer_first hx hblk hasked hacc hdel]
  simp [hpriv]

theorem execPowerAnswer_accept (hcan : canAccept s.dyn b = true) : execPowerAnswer j blk .accept s =
    .next (s.setDyn (pwrSettle s.cfg j (pwrSet j { x with accepts := x.accepts ++ [blk] } s.dyn))) := by
  rw [execPowerAnswer_first hx hblk hasked hacc hdel]
  simp [hcan]

end

theorem execDelayRetry_due (hx : x = pwrGet s.dyn j) (hasked : rd s.dyn .pwrDomStsState j = 4) (hdel : x.delayed ≠ [])
    (hall : (domBlks j).length ≤ x.accepts.length + x.delayed.length) (hdue : x.stepAt + x.delay * 1000 ≤ s.dyn.now) :
    execDelayRetry j s = .next (s.setDyn (emit (.pwrReq j x.target) (pwrSet j
      { x with accepts := preAccept s.dyn j, delayed := [], delay := 0, reqAt := s.dyn.now } s.dyn))) := by
  subst hx
  refine nextDyn_setDyn (if_neg ?_)
  rw [List.isEmpty_iff]
  rintro (hst | hnone | hopen | hearly)
  · exact hst hasked
  · exact hdel hnone
  · omega
  · omega

theorem execAnswerTimeout_due {left : Nat}
    (hleft : left = (domBlks j).length - ((pwrGet s.dyn j).accepts.length + (pwrGet s.dyn j).delayed.length))
    (hasked : rd s.dyn .pwrDomStsState j = 4) (hsome : left ≠ 0) (hdue : (pwrGet s.dyn j).reqAt + 1000 ≤ s.dyn.now) :
    execAnswerTimeout j s = .next (s.setDyn (pwrRefused j (bump .pwrDomStsNoans j left s.dyn))) := by
  subst hleft
  refine nextDyn_setDyn (if_neg ?_)
  rintro (hst | hnone | hearly)
  · exact hst hasked
  · exact hsome hnone
  · omega

theorem execEntryRefused_due {t : Nat} (href : (pwrGet s.dyn j).refAt = some t) (htold : (pwrGet s.dyn j).told = false)
    (hdue : t + 1000000000 ≤ s.dyn.now) :
    execEntryRefused j s = .next (s.setDyn (raise 0x0903 (j / 23) [j.val % 23]
      (pwrSet j { pwrGet s.dyn j with told := true } s.dyn))) := by
  refine nextDyn_setDyn ?_
  simp only [href]
  exact if_pos (by simp [htold, hdue])

/-! ## Wake and return (R409 to R412) -/

theorem execWakeSource_listed {code : Fin 16} (hlow : 1 ≤ code.val) (hhigh : code.val ≤ 7) :
    execWakeSource j code s = .next (s.setDyn (wakeDom s.cfg j code
      (if (code.val = 1 ∨ code.val = 4) ∧ j.val % 23 < 12 then wakeDom s.cfg (j / 23 * 23 + 12 + j % 23 / 2) code s.dyn else s.dyn))) := by
  refine nextDyn_setDyn ((if_neg (by omega)).trans ?_)
  split <;> rfl

theorem execReturnStepReady_next (ue : Bool) (hx : x = pwrGet s.dyn j) (hback : rd s.dyn .pwrDomStsState j = 5) :
    execReturnStepReady j ue s = .next (s.setDyn
      (if x.step < 4 then emit (.pwrStep j (x.step + 1)) (pwrSet j { x with step := x.step + 1, stepAt := s.dyn.now } s.dyn)
      else if ue = true ∧ x.from0 = 3 then domFail s.cfg j 0x0906 s.dyn else heldRun s.cfg
        (forAll (domRegions j) (fun r d => if r % 2 = 1 then xltDrain s.cfg (r / 2) d else d)
          (serveGrants s.cfg (returnDone j s.dyn))))) := by
  subst hx
  refine nextDyn_setDyn ((if_neg (fun hne => hne hback)).trans ?_)
  simp only [Bool.and_eq_true, beq_iff_eq]

theorem execReadyLate_due (hx : x = pwrGet s.dyn j) (hback : rd s.dyn .pwrDomStsState j = 5)
    (hdue : x.stepAt + 4 * stepNs j x.from0 x.step ≤ s.dyn.now) :
    execReadyLate j s = .next (s.setDyn (if x.run = 1 then emit (.pwrStep j 1) (raise 0x0904 (j / 23) [j.val % 23]
      (pwrSet j { x with run := 2, step := 1, stepAt := s.dyn.now } s.dyn)) else domFail s.cfg j 0x0905 s.dyn)) := by
  subst hx
  exact nextDyn_setDyn (if_neg (by rw [not_or]; exact ⟨fun hne => hne hback, by omega⟩))

end

/-- Settles O28: the domain's state, what its blocks have answered and the time since select the branch that each command runs to. -/
theorem powerCommandsComplete : Obligations.PowerCommandsComplete := by
  unfold Obligations.PowerCommandsComplete
  exact ⟨fun s u n j d hn hj hopen hawake hworks hidle hdp hd => execClockGate_idle hn hj hopen hawake hworks hidle hdp hd,
    fun s j clear t x ht hmay hx => execPowerRequest_asked ht hmay hx,
    fun s j blk b x hx hblk hasked hacc hdel => ⟨fun hpriv => execPowerAnswer_refuse hx hblk hasked hacc hdel hpriv,
      fun hcan => execPowerAnswer_accept hx hblk hasked hacc hdel hcan,
      fun us => execPowerAnswer_first hx hblk hasked hacc hdel (.delay us)⟩,
    fun s j x hx hasked hdel hall hdue => execDelayRetry_due hx hasked hdel hall hdue,
    fun s j left hleft hasked hsome hdue => execAnswerTimeout_due hleft hasked hsome hdue,
    fun s j t href htold hdue => execEntryRefused_due href htold hdue,
    fun s j code hlow hhigh => execWakeSource_listed hlow hhigh,
    fun s j ue x hx hback => execReturnStepReady_next ue hx hback, fun s j x hx hback hdue => execReadyLate_due hx hback hdue⟩

end Machine
end Sys2Proof
end

section
/-! PROOFS. Slot power channels (R417 to R436, R536): O29 and O30. -/


namespace Sys2Proof
namespace Machine

/-! ## What a measurement leaves -/

theorem rd_slotMeas {f : SFld} (hpeak : f ≠ .slotImeasPeak) (hsense : f ≠ .slotImeasSense) (hout : f ≠ .slotMeasVout)
    (hin : f ≠ .slotMeasVin) (n : Nat) (m : SlotMeas) (i : Nat) (d : Dyn) : rd (slotMeas n m d) f i = rd d f i := by
  rw [slotMeas, peak, rd_put_fld hpeak, rd_put_fld hsense, rd_put_fld hout, rd_put_fld hin]

@[simp] theorem slotState_slotMeas (n : Nat) (m : SlotMeas) (k : Nat) (d : Dyn) : slotState (slotMeas n m d) k = slotState d k :=
  rd_slotMeas (by decide) (by decide) (by decide) (by decide) ..

/-! ## Insertion, ramp and power-good (R417 to R420, R425, R426, R429, R430) -/

section

variable {s : State} {n : Pu}

theorem execPresent_next {d : Dyn} (hd : d = (if cg s.cfg .portPcfgBif n = 0 then put .portLstsPrsnt (4 * n) 1 (put .slotStsPrsnt n 1 s.dyn)
      else put .slotStsPrsnt n 1 s.dyn)) :
    execPresent n s = .next (s.setDyn (if slotEn s.cfg n = true ∧ slotBad s.cfg n = false ∧ slotState d n = 0 ∧
      rd d .secBootStsStage 0 = 8 then slotEv 0x0A01 n (enterWait n d) else d)) := by
  subst hd
  refine nextDyn_setDyn ?_
  simp only [Bool.and_eq_true, Bool.not_eq_true', beq_iff_eq, and_assoc]

theorem execRemoved_unpowered {d : Dyn} (hign : cg s.cfg .slotCtlPrsntIgn n ≠ 1) (hprsnt : rd s.dyn .slotStsPrsnt n ≠ 0)
    (hd : d = put .slotStsPrsnt n 0 (cycleDrop n s.dyn)) (hst : slotState d n = 0 ∨ slotState d n = 6) :
    execRemoved n s = .next (s.setDyn (slotPin s.cfg n (slotEv 0x0A02 n (forAll (slotPorts n) (fun lp d =>
      if isDown s.cfg d lp && !lpContained d lp then dpc s.cfg lp 2 true d
      else if rd d .portLstsPrsnt lp = 1 && cg s.cfg .portPcfgBif n == 0 then presenceLost s.cfg lp d else d) d)))) := by
  subst hd
  refine nextDyn_setDyn ((if_neg (not_or.mpr ⟨hign, hprsnt⟩)).trans ?_)
  simp only [if_pos hst]

section

variable {m : SlotMeas} {d : Dyn} {x : SlotCh} (hen : slotEn s.cfg n = true) (hd : d = slotMeas n m s.dyn) (hx : x = slotGet d n)

include hen hd hx

theorem execInputWindow_enters (hwas : x.inAt = none) (hside : windowSide s.cfg n false m.vin = true) :
    execInputWindow n m s = .next (s.setDyn (slotSet n { x with inAt := some d.now } d)) := by
  subst hx hd
  refine nextDyn_setDyn ((if_neg (by rw [hen]; decide)).trans ?_)
  simp only [hwas, Option.isSome_none, hside, Bool.true_eq_false, if_false, if_true]

theorem execInputWindow_leaves {e : Dyn} (hwas : x.inAt.isSome = true) (hside : windowSide s.cfg n true m.vin = false)
    (he : e = cycleDrop n (slotSet n { x with inAt := none } d)) (hon : slotOn e n = true) :
    execInputWindow n m s = .next (s.setDyn (slotPin s.cfg n (put .slotStsState n 1 (gateOff s.cfg n 1 (decide (slotOv s.cfg n < m.vin.val))
      (slotEv 0x0A08 n (bump .slotFltCntInput n 1 (put .slotStsLastFault n (if m.vin.val < slotUv s.cfg n then 4 else 5) e))))))) := by
  subst he hx hd
  refine nextDyn_setDyn ((if_neg (by rw [hen]; decide)).trans ?_)
  simp only [hwas, hside, Bool.false_eq_true, if_false]
  exact if_pos hon

end

theorem execInsertionDelay_due {m : SlotMeas} {t : Nat} (hin : (slotGet s.dyn n).inAt = some t) (hen : slotEn s.cfg n = true)
    (hst : slotState s.dyn n = 1) (hdue : t + cg s.cfg .slotTimeInsMs n * 1000000 ≤ s.dyn.now)
    (hside : windowSide s.cfg n true m.vin = true) :
    execInsertionDelay n m s = .next (s.setDyn (gateDue s.cfg n true (slotMeas n m s.dyn))) := by
  refine nextDyn_setDyn ?_
  simp only [hin]
  exact if_pos (by simp [hen, hst, hdue, hside])

theorem execOffTime_due {x : SlotCh} (m : SlotMeas) (hx : x = slotGet s.dyn n) (hst : slotState s.dyn n = 4)
    (hdue : x.offAt + x.offFor ≤ s.dyn.now) : execOffTime n m s = .next (s.setDyn
      (if x.inAt.isSome = true then gateDue s.cfg n false (slotMeas n m s.dyn) else enterWait n (slotMeas n m s.dyn))) := by
  subst hx
  exact nextDyn_setDyn (if_pos ⟨hst, hdue⟩)

theorem execPowerGood_qualifies {m : SlotMeas} {d e : Dyn} (hon : slotOn s.dyn n = true) (hpg : rd s.dyn .slotStsPgInt n = 0)
    (hlim : rd s.dyn .slotStsLim n = 0) (hgate : 160 ≤ m.gate.val) (hvout : m.vin.val * 95 ≤ m.vout.val * 100)
    (hd : d = cycleEnd n (slotMeas n m s.dyn))
    (he : e = put .slotStsPgInt n 1 (put .slotStsState n 3 (slotSet n
      { slotGet d n with pgAt := d.now, calmAt := if slotState d n = 3 then (slotGet d n).calmAt else d.now } d))) :
    execPowerGood n m s = .next (s.setDyn (slotPin s.cfg n (slotEv 0x0A03 n
      { e with port := { e.port with inReset := e.port.inReset.filter fun x => x != n.val } }))) := by
  subst he hd
  exact nextDyn_setDyn (if_pos (by simp [hon, hpg, hlim, hgate, hvout]))

theorem execPgDrop_below {m : SlotMeas} (hpg : rd s.dyn .slotStsPgInt n = 1) (hlim : rd s.dyn .slotStsLim n = 0)
    (hvout : m.vout.val * 100 < m.vin.val * 90) : execPgDrop n m s = .next (s.setDyn (slotPin s.cfg n (slotHold s.cfg n 1
      (perstOn s.cfg n (put .slotStsPgInt n 0 (slotMeas n m s.dyn)))))) := nextDyn_setDyn (if_pos ⟨hpg, hlim, hvout⟩)

theorem execSequenceEnd_due (hst : slotState s.dyn n = 3) (hlim : rd s.dyn .slotStsLim n = 0)
    (hdue : (slotGet s.dyn n).calmAt + 1000000000 ≤ s.dyn.now) :
    execSequenceEnd n s = .next (s.setDyn (put .slotStsAttempts n 0 s.dyn)) := nextDyn_setDyn (if_pos ⟨hst, hlim, hdue⟩)

theorem execDischargeArm_due (hgate : (slotGet s.dyn n).gate = false) (hen : slotEn s.cfg n = true)
    (hdue : (slotGet s.dyn n).offAt + cg s.cfg .slotTimeDischMs n * 1000000 ≤ s.dyn.now) :
    execDischargeArm n s = .next (s.setDyn (slotSet n { slotGet s.dyn n with armed := true } s.dyn)) :=
  nextDyn_setDyn (if_pos (by simp [hgate, hen, hdue]))

/-! ## Early warning and PERST# (R432, R536) -/

section

variable {m : SlotMeas} {d : Dyn} {lvl : Nat} (hon : slotOn s.dyn n = true) (hd : d = slotMeas n m s.dyn)
  (hlvl : lvl = (slotGet d n).start * clamp 50 99 (cg s.cfg .slotLimEwPct n))

include hon hd hlvl

theorem execEarlyWarning_sets (hew : rd d .slotStsEw n = 0) (hlow : m.vin.val * 100 < lvl) :
    execEarlyWarning n m s = .next (s.setDyn (slotPin s.cfg n (bump .slotFltCntEwarn n 1 (put .slotStsEw n 1 d)))) := by
  subst hlvl hd
  refine nextDyn_setDyn ((if_neg (by rw [hon]; decide)).trans ?_)
  simp [hew, hlow, b2n]

theorem execEarlyWarning_clears (hew : rd d .slotStsEw n = 1) (hhigh : lvl + (slotGet d n).start * 2 ≤ m.vin.val * 100) :
    execEarlyWarning n m s = .next (s.setDyn (slotPin s.cfg n (put .slotStsEw n 0 d))) := by
  subst hlvl hd
  refine nextDyn_setDyn ((if_neg (by rw [hon]; decide)).trans ?_)
  simp [hew, Nat.not_lt.mpr hhigh, b2n]

end

theorem execPerstRelease_due {d : Dyn} (hperst : (slotGet s.dyn n).perst = true) (hpg : rd s.dyn .slotStsPgInt n = 1)
    (hdue : (slotGet s.dyn n).pgAt + 100000000 ≤ s.dyn.now) (hd : d = slotSet n { slotGet s.dyn n with perst := false } s.dyn) :
    execPerstRelease n s = .next (s.setDyn (if perstDriven s.cfg d n = true then emit (.pin (.perst n false)) d else d)) := by
  subst hd
  exact nextDyn_setDyn (if_pos (by simp [hperst, hpg, hdue]))

/-! ## Current limit and trips (R421 to R424) -/

theorem execLimitEngage_on {m : SlotMeas} {d : Dyn} (hon : slotOn s.dyn n = true) (hlim : rd s.dyn .slotStsLim n = 0)
    (hd : d = cycleDrop n (slotMeas n m s.dyn)) : execLimitEngage n m s = .next (s.setDyn
      (if rd (put .slotStsLim n 1 (slotSet n { slotGet d n with limAt := some d.now } d)) .slotStsPgInt n = 1
      then slotEv 0x0A0C n (put .slotStsLim n 1 (slotSet n { slotGet d n with limAt := some d.now } d))
      else put .slotStsLim n 1 (slotSet n { slotGet d n with limAt := some d.now } d))) := by
  subst hd
  exact nextDyn_setDyn (if_pos (by simp [hon, hlim]))

theorem execLimitRelease_engaged (m : SlotMeas) (hlim : rd s.dyn .slotStsLim n = 1) :
    execLimitRelease n m s = .next (s.setDyn (put .slotStsLim n 0
      (slotSet n { slotGet s.dyn n with limAt := none, calmAt := s.dyn.now } (slotMeas n m s.dyn)))) := nextDyn_setDyn (if_pos hlim)

theorem execFastTrip_over {m : SlotMeas} (hon : slotOn s.dyn n = true)
    (hover : (max 1 (cg s.cfg .slotCtlFtMult n) + 1) * clamp 10 100 (cg s.cfg .slotLimVlim n) * 5 < m.sense.val) :
    execFastTrip n m s = .next (s.setDyn (slotTrip s.cfg n (slotEv 0x0A04 n (bump .slotFltCntFt n 1
      (put .slotStsLastFault n 1 (cycleDrop n (slotMeas n m s.dyn))))))) :=
  nextDyn_setDyn (if_pos (by rw [hon, Bool.true_and, decide_eq_true_eq]; exact hover))

theorem execFaultTimer_due {t : Nat} (m : SlotMeas) (hlim : (slotGet s.dyn n).limAt = some t) (hon : slotOn s.dyn n = true)
    (hdue : t + clamp 1 50 (cg s.cfg .slotLimFltMs n) * 1000000 ≤ s.dyn.now) :
    execFaultTimer n m s = .next (s.setDyn (slotTrip s.cfg n (slotEv 0x0A05 n (bump .slotFltCntTmr n 1
      (put .slotStsLastFault n 2 (cycleDrop n (slotMeas n m s.dyn))))))) := by
  refine nextDyn_setDyn ?_
  simp only [hlim]
  exact if_pos (by simp [hon, hdue])

/-! ## FET_SHORT, CYCLE and CLEAR (R427, R428, R434, R435) -/

theorem execFetShort_armed {m : SlotMeas} {d : Dyn} (harmed : (slotGet s.dyn n).armed = true)
    (hst : slotState s.dyn n = 0 ∨ slotState s.dyn n = 1 ∨ slotState s.dyn n = 4 ∨ slotState s.dyn n = 5)
    (hvolt : 200 < 10 * m.vout.val) (htenth : m.vin.val < 10 * m.vout.val)
    (hd : d = put .slotStsState n 6 (put .slotStsSag n 0 (put .slotStsLastFault n 3 (cycleDrop n (slotMeas n m s.dyn))))) :
    execFetShort n m s = .next (s.setDyn (slotPin s.cfg n (slotHold s.cfg n 3 (slotEv 0x0A07 n d)))) := by
  subst hd
  have hlevel : shortLevel m.vin.val < 10 * m.vout.val := max_lt hvolt htenth
  refine nextDyn_setDyn (if_pos ?_)
  simp only [Bool.and_eq_true, Bool.or_eq_true, beq_iff_eq, decide_eq_true_eq, or_assoc]
  exact ⟨⟨harmed, hst⟩, hlevel⟩

section

variable (hact : (slotGet s.dyn n).act = none) (hidle : (slotGet s.dyn n).cycling = false)

include hact hidle

theorem execCycle_asks {r : Nat × Dyn} (hen : slotEn s.cfg n = true) (hon : slotOn s.dyn n = true)
    (hmay : mayPowerOff s.cfg s.dyn n = true) (hr : r = arbAsk (actReq 8 [n.val] []) n s.dyn) :
    execCycle n s = .next (s.setDyn (cycleGo s.cfg n (put .slotCmdResult n 0
      (slotSet n { slotGet r.2 n with act := some r.1 } r.2)))) := by
  subst hr
  exact nextDyn_setDyn ((if_neg (by rw [hact, hidle]; decide)).trans (if_pos (by simp [hen, hon, hmay])))

theorem execCycle_refused (hno : slotEn s.cfg n = false ∨ slotOn s.dyn n = false ∨ mayPowerOff s.cfg s.dyn n = false) :
    execCycle n s = .next (s.setDyn (slotEv 0x0A0B n (put .slotCmdResult n 2 s.dyn))) := by
  refine nextDyn_setDyn ((if_neg (by rw [hact, hidle]; decide)).trans (if_neg ?_))
  rcases hno with h | h | h <;> simp [h]

end

section

variable {m : SlotMeas} {d : Dyn}

theorem execClear_latched (hst : slotState s.dyn n = 5) (hd : d = cycleDrop n (slotMeas n m s.dyn)) :
    execClear n m s = .next (s.setDyn (put .slotCmdResult n 1 (put .slotStsAttempts n 0 (slotPin s.cfg n (enterWait n d))))) := by
  subst hd
  refine nextDyn_setDyn ?_
  simp [slotClear, hst]

theorem execClear_shorted (hst : slotState s.dyn n = 6) (hd : d = cycleDrop n (slotMeas n m s.dyn)) :
    execClear n m s = .next (s.setDyn (if 10 * rd d .slotMeasVout n < max 200 (rd d .slotMeasVin n) then
      slotRecheck s.cfg n (put .slotCmdResult n 1 (put .slotStsAttempts n 0 (put .slotStsState n 0 d))) else put .slotCmdResult n 2 d)) := by
  subst hd
  refine nextDyn_setDyn ?_
  simp [slotClear, hst, shortLevel]

theorem execClear_refused (hlatched : slotState s.dyn n ≠ 5) (hshorted : slotState s.dyn n ≠ 6) :
    execClear n m s = .next (s.setDyn (put .slotCmdResult n 2 (slotMeas n m s.dyn))) := by
  refine nextDyn_setDyn ?_
  simp [slotClear, hlatched, hshorted]

end

end

/-- Settles O29: the channel's state, the input's side of the window and the time since select the branch that each command runs to. -/
theorem slotSequenceCommandsComplete : Obligations.SlotSequenceCommandsComplete := by
  unfold Obligations.SlotSequenceCommandsComplete
  exact ⟨fun s n d hd => execPresent_next hd, fun s n d hign hprsnt hd hst => execRemoved_unpowered hign hprsnt hd hst,
    fun s n m d e x hen hd hx => ⟨fun hwas hside => execInputWindow_enters hen hd hx hwas hside,
      fun hwas hside he hon => execInputWindow_leaves hen hd hx hwas hside he hon⟩,
    fun s n m t hin hen hst hdue hside => execInsertionDelay_due hin hen hst hdue hside,
    fun s n m x hx hst hdue => execOffTime_due m hx hst hdue,
    fun s n m d e hon hpg hlim hgate hvout hd he => execPowerGood_qualifies hon hpg hlim hgate hvout hd he,
    fun s n m hpg hlim hvout => execPgDrop_below hpg hlim hvout, fun s n hst hlim hdue => execSequenceEnd_due hst hlim hdue,
    fun s n hgate hen hdue => execDischargeArm_due hgate hen hdue,
    fun s n m d lvl hon hd hlvl => ⟨fun hew hlow => execEarlyWarning_sets hon hd hlvl hew hlow,
      fun hew hhigh => execEarlyWarning_clears hon hd hlvl hew hhigh⟩,
    fun s n d hperst hpg hdue hd => execPerstRelease_due hperst hpg hdue hd⟩

/-- Settles O30: the channel's state, its limit and its watch select the branch that each command runs to. -/
theorem slotProtectionCommandsComplete : Obligations.SlotProtectionCommandsComplete := by
  unfold Obligations.SlotProtectionCommandsComplete
  exact ⟨fun s n m d hon hlim hd => execLimitEngage_on hon hlim hd, fun s n m hlim => execLimitRelease_engaged m hlim,
    fun s n m hon hover => execFastTrip_over hon hover, fun s n m t hlim hon hdue => execFaultTimer_due m hlim hon hdue,
    fun s n m d harmed hst hvolt htenth hd => execFetShort_armed harmed hst hvolt htenth hd,
    fun s n r hact hidle hen hon hmay hr => execCycle_asks hact hidle hen hon hmay hr,
    fun s n hact hidle hno => execCycle_refused hact hidle hno, fun s n m d hst hd => execClear_latched hst hd,
    fun s n m d hst hd => execClear_shorted hst hd, fun s n m hlatched hshorted => execClear_refused hlatched hshorted⟩

end Machine
end Sys2Proof
end

section
/-! PROOFS. The start sequence up to the verified image, and RECOVERY (R441 to R451, R534): O5. -/


namespace Sys2Proof
namespace Machine

/-! ## What telling of torn records and of signatures leaves -/

/-- The lead is read from the die IDs alone. -/
theorem leadOr0_congr {d d' : Dyn} (h : ∀ k, rd d' .dieDieIdLead k = rd d .dieDieIdLead k) : leadOr0 d' = leadOr0 d := by
  simp only [leadOr0, leadDie, h]

/-- The slot tried first depends on the log and on SVN_MIN. -/
theorem firstSlot_congr {d d' : Dyn} (h : rd d' .secKeyStsSvnMin 0 = rd d .secKeyStsSvnMin 0) (f : FlashIn) :
    firstSlot d' f = firstSlot d f := by
  simp only [firstSlot, slotTry, h]

/-- What an IMAGE_LOAD leaves that has counted `n` torn records of the lead's log (R449). -/
def tornTold (k n : Nat) (d : Dyn) : Dyn :=
  forAll (List.range n) (fun _ d => raise 0x0B0D k [k] d) (bump .nvmFlashStsTorn k n d)

theorem rd_tornTold_svnMin (k n : Nat) (d : Dyn) : rd (tornTold k n d) .secKeyStsSvnMin 0 = rd d .secKeyStsSvnMin 0 := by
  refine (forAll_keep (fun d => rd d .secKeyStsSvnMin 0) _ _ (fun _ d => ?_) _).trans (rd_bump_fld (by decide) ..)
  exact rd_raise (by decide) ..

theorem sigTell_boot (x : SigBlock) (q : Nat) (d : Dyn) : (sigTell x q d).boot = d.boot := by
  simp only [sigTell]
  split <;> split <;> simp

/-- Telling of an image's signatures leaves which slot is tried. -/
theorem sigTold_boot {m : Image} {d e : Dyn} (hd : d = (if imgLayout m then sigTell m.sig m.seq e else e)) : d.boot = e.boot := by
  subst hd
  split
  · exact sigTell_boot ..
  · rfl

/-! ## POWER_ON and IMAGE_LOAD (R441, R445, R449, R534) -/

section

variable {s : State}

theorem execPowerOn_off (env : PowerEnv) (hvin : s.dyn.elec.vin = false) : execPowerOn env s = .next ⟨arrEmpty, romStart env.pkgId
    { carry s.dyn with now := 0, slot := arrEmpty, boot := { (carry s.dyn).boot with otp := env.otp, flash := env.flash },
                       elec := { (carry s.dyn).elec with vin := true, trip := false } }, s.pending⟩ := by
  simp only [execPowerOn, nextCfg, hvin, Bool.false_eq_true, if_false]

section

variable {k : Nat} {f : FlashIn} (hstage : rd s.dyn .secBootStsStage 0 = 2) (hsrc : flashSource s.dyn = some k)
  (hflash : s.dyn.boot.flash[k]? = some f)

include hstage hsrc hflash

theorem execImageLoad_first {b : Bool} {d : Dyn} (htried : s.dyn.boot.tried = false) (hfirst : firstSlot s.dyn f = some b)
    (hd : d = tornTold k (f.log.filter fun r => r.torn).length s.dyn) :
    execImageLoad s = .next (s.setDyn (put .secBootStsStage 0 3
      { d with boot := { d.boot with tryB := b, cand := some (slotImage f b) } })) := by
  subst hd
  have hslot := firstSlot_congr (rd_tornTold_svnMin k (f.log.filter fun r => r.torn).length s.dyn) f
  rw [hfirst] at hslot
  refine nextDyn_setDyn ((if_neg (fun hne => hne hstage)).trans ?_)
  simp only [hsrc, hflash, htried, Bool.false_eq_true, if_false]
  simp only [tornTold] at hslot ⊢
  simp only [hslot]

theorem execImageLoad_second (htried : s.dyn.boot.tried = true) : execImageLoad s = .next (s.setDyn
    (put .secBootStsStage 0 3 { s.dyn with boot := { s.dyn.boot with cand := some (slotImage f s.dyn.boot.tryB) } })) := by
  refine nextDyn_setDyn ((if_neg (fun hne => hne hstage)).trans ?_)
  simp only [hsrc, hflash, htried, if_true]

end

/-! ## IMAGE_VERIFY (R444, R446, R450, R451) -/

section

variable {m : Image} (hstage : rd s.dyn .secBootStsStage 0 = 3) (hcand : s.dyn.boot.cand = some m)

include hstage hcand

theorem execImageVerify_good {d : Dyn} (hgood : imgGood s.dyn m = true)
    (hd : d = put .secImgVerSvn 0 m.svn (put .secBootStsSlot 0 (b2n s.dyn.boot.tryB) (put .secBootStsStage 0 4
      (put .secImgSeqSeq 0 m.seq (put .secImgVerMajor 0 m.verMajor (put .secImgVerMinor 0 m.verMinor
        { s.dyn with boot := { s.dyn.boot with image := some m, cand := none, chain := [] } })))))) :
    execImageVerify s = .next (s.setDyn (if s.dyn.boot.tried then logAppend (.base s.dyn.boot.tryB m.digest) d else d)) := by
  subst hd
  refine nextDyn_setDyn ((if_neg (fun hne => hne hstage)).trans ?_)
  simp only [hcand, hgood, if_true]
  rfl

section

variable {d : Dyn} (hbad : imgGood s.dyn m = false) (hd : d = (if imgLayout m then sigTell m.sig m.seq s.dyn else s.dyn))

include hbad hd

/-- An image that fails is told of, and the next slot tried or RECOVERY entered. -/
theorem execImageVerify_bad : execImageVerify s = .next (s.setDyn
    (if s.dyn.boot.tried then recovery { d with boot := { d.boot with cand := none } }
    else raise 0x0B03 (leadOr0 d) [m.seq] (put .secBootStsFallback 0 1 (put .secBootStsStage 0 2
      { d with boot := { d.boot with tried := true, tryB := !d.boot.tryB, cand := none } })))) := by
  have htried := congrArg StartSt.tried (sigTold_boot hd)
  subst hd
  refine nextDyn_setDyn ((if_neg (fun hne => hne hstage)).trans ?_)
  simp only [hcand, hbad, Bool.false_eq_true, if_false]
  rw [htried]
  refine if_congr Iff.rfl rfl ?_
  rw [leadOr0_congr fun k => ?_]
  rw [rd_put_fld (by decide), rd_put_fld (by decide)]
  rfl

end

end

/-! ## RECOVERY (R446) -/

/-- An image sent in RECOVERY goes to the slot that the last BASE record does not name, and restarts the boot ROM if it verifies. -/
theorem execRecoveryImageTransfer_written {m : Image} {k : Nat} {f : FlashIn} {d : Dyn} (hstage : rd s.dyn .secBootStsStage 0 = 15)
    (hsrc : flashSource s.dyn = some k) (hflash : s.dyn.boot.flash[k]? = some f)
    (hd : d = slotWrite (!(logBase f.log).getD true) m s.dyn) :
    execRecoveryImageTransfer m s = (if imgGood d m then .next ⟨arrEmpty, romStart (ownPkg s.dyn) (carry d), s.pending⟩
      else .next (s.setDyn (if imgLayout m then sigTell m.sig m.seq d else d))) := by
  subst hd
  have hstay : ¬ rd s.dyn .secBootStsStage 0 ≠ 15 := fun hne => hne hstage
  simp only [execRecoveryImageTransfer, nextCfg, if_neg hstay, hsrc, hflash]
  split <;> rfl

end

/-- Settles O5: the stage, the flash's log and the verdict on the image select the branch that each command runs to. -/
theorem bootCommandsComplete : Obligations.BootCommandsComplete := by
  unfold Obligations.BootCommandsComplete
  refine ⟨fun s env hvin => execPowerOn_off env hvin,
    fun s k f b hstage hsrc hflash htried hfirst => ⟨_, rfl, execImageLoad_first hstage hsrc hflash htried hfirst rfl⟩,
    fun s k f hstage hsrc hflash htried => execImageLoad_second hstage hsrc hflash htried,
    fun s m hstage hcand hgood => ⟨_, rfl, execImageVerify_good hstage hcand hgood rfl⟩,
    fun s m hstage hcand hbad htried => ⟨_, rfl, ?_⟩, fun s m hstage hcand hbad htried => ⟨_, rfl, ?_⟩,
    fun s m k f hstage hsrc hflash => ⟨_, rfl, fun hgood => ?_, fun hbad => ?_⟩⟩
  · exact (execImageVerify_bad hstage hcand hbad rfl).trans (by rw [htried]; rfl)
  · exact (execImageVerify_bad hstage hcand hbad rfl).trans (by rw [htried]; rfl)
  · exact (execRecoveryImageTransfer_written hstage hsrc hflash rfl).trans (if_pos hgood)
  · exact (execRecoveryImageTransfer_written hstage hsrc hflash rfl).trans (if_neg (by rw [hbad]; decide))

end Machine
end Sys2Proof
end

section
/-! PROOFS. The command set of the management paths, and what they turn away (R510 to R520): O20 and O21. -/


namespace Sys2Proof
namespace Machine

/-! ## Commands that are served (R514 to R517) -/

section

variable {s : State} {p : Path}

theorem execGetVersion_served {c : Fin 65536} (hserved : served s p (.getVersion c) = true) (hc : c.val ≠ 0) :
    execGetVersion p c s = .next (s.setDyn (cmdDone p 0xC000 [min c.val 3, 1, 3] (journalNote (sessSet p (min c.val 3) (mgmtOn s.dyn))))) :=
  nextDyn_setDyn ((mgmtCmd_served hserved).trans (if_neg hc))

theorem execGetVersion_zero (hserved : served s p (.getVersion 0) = true) :
    execGetVersion p 0 s = .next (s.setDyn (cmdRefuse p 0xC000 rcInvalid 0 (mgmtOn s.dyn))) :=
  nextDyn_setDyn ((mgmtCmd_served hserved).trans rfl)

theorem execIdentify_served (hserved : served s p .identify = true) :
    execIdentify p s = .next (s.setDyn (cmdDone p 0xC001 (identWords (mgmtOn s.dyn)) (mgmtOn s.dyn))) :=
  nextDyn_setDyn (mgmtCmd_served hserved)

theorem execCsrRead_served {a n : Nat} {peek : Bool} (hserved : served s p (.csrRead a n peek) = true) (hlow : 1 ≤ n) (hhigh : n ≤ 256) :
    execCsrRead p a n peek s = .next (s.setDyn
      (cmdDone p 0xC010 (csrReads s.cfg p peek a n (mgmtOn s.dyn)).1 (csrReads s.cfg p peek a n (mgmtOn s.dyn)).2)) :=
  nextDyn_setDyn ((mgmtCmd_served hserved).trans (if_neg (by omega)))

theorem execCsrWrite_served {a : Nat} {vs : List Word} (hserved : served s p (.csrWrite a (vs.map fun v => v.toNat)) = true)
    (hlow : 1 ≤ vs.length) (hhigh : vs.length ≤ 256) : execCsrWrite p a vs s = .next (s.setDyn
      (cmdDone p 0xC011 [] (journalNote (csrWrites s.cfg p a (vs.map fun v => v.toNat) (mgmtOn s.dyn))))) :=
  nextDyn_setDyn ((mgmtCmd_served hserved).trans (if_neg (by rw [List.length_map]; omega)))

/-- The records a path may see: a mailbox those of its host (R514). -/
def evsSeen (g : Cfg) (p : Path) (l : List Ev) (d : Dyn) : List Ev :=
  match pathHost p with
  | some h => l.filter (evFor g d h)
  | none => l

theorem execEventRead_served {t : Dword} {flash : Bool} {d : Dyn} {l : List Ev} (hserved : served s p (.events t.toNat flash) = true)
    (hd : d = mgmtOn s.dyn) (hl : l = (if flash then d.hlth.elog else d.ev).filter (fun e => decide (t.toNat ≤ e.ts))) :
    execEventRead p t flash s = .next (s.setDyn (cmdDone p 0xC020 (evPayload 1023 (evsSeen s.cfg p l d)) d)) := by
  subst hl hd
  exact nextDyn_setDyn (mgmtCmd_served hserved)

theorem execIdentifySwitchDevice_served (hserved : served s p .fmSwitch = true) :
    execIdentifySwitchDevice p s = .next (s.setDyn (cmdDone p 0x5100 (switchWords s.cfg (mgmtOn s.dyn)) (mgmtOn s.dyn))) :=
  nextDyn_setDyn (mgmtCmd_served hserved)

theorem execGetPhysicalPortState_served {lp : Lport} (hserved : served s p (.fmPort lp) = true)
    (hnear : fcfFar s.cfg (mgmtOn s.dyn) p lp = false) :
    execGetPhysicalPortState p lp s = .next (s.setDyn (cmdDone p 0x5101 (portWords s.cfg (mgmtOn s.dyn) lp) (mgmtOn s.dyn))) :=
  nextDyn_setDyn ((mgmtCmd_served hserved).trans (if_neg (by simp [hnear])))

theorem execGetVirtualCxlSwitchInfo_served {v : Host} (hserved : served s p (.fmVcs v) = true) (hown : fcfOther p (some v.val) = false) :
    execGetVirtualCxlSwitchInfo p v s = .next (s.setDyn (cmdDone p 0x5200 (vcsWords s.cfg (mgmtOn s.dyn) v) (mgmtOn s.dyn))) :=
  nextDyn_setDyn ((mgmtCmd_served hserved).trans (if_neg (by simp [hown])))

theorem execFmUnsupported_served {op : Fin 65536} (hserved : served s p (.fmOther op) = true) :
    execFmUnsupported p op s = .next (s.setDyn (fmNo p op (mgmtOn s.dyn))) := nextDyn_setDyn (mgmtCmd_served hserved)

end

/-! ## The I3C target's address (R513, R516) -/

section

variable {s : State} {die : Die} (hen : cg s.cfg .mgmtPathCtlI3cEn die ≠ 0)

include hen

theorem execI3cDynamicAddress_set (x : Fin 128) : execI3cDynamicAddress die (some x) s =
    .next (s.setDyn (put .mgmtPathStsI3cDaV die 1 (put .mgmtPathStsI3cDa die x s.dyn))) := nextDyn_setDyn (if_neg hen)

theorem execI3cDynamicAddress_lost : execI3cDynamicAddress die none s = .next (s.setDyn (sessEnd (.i3c die)
    (put .mgmtPathStsI3cDaV die 0 (put .mgmtPathStsI3cDa die 0 s.dyn)))) := nextDyn_setDyn (if_neg hen)

end

/-- Settles O20: a command that is served runs to its answer by its own arm of the command set. -/
theorem managementCommandsComplete : Obligations.ManagementCommandsComplete := by
  unfold Obligations.ManagementCommandsComplete
  exact ⟨fun s p c hserved hc => execGetVersion_served hserved hc, fun s p hserved => execGetVersion_zero hserved,
    fun s p hserved => execIdentify_served hserved, fun s p a n peek hserved hlow hhigh => execCsrRead_served hserved hlow hhigh,
    fun s p a vs hserved hlow hhigh => execCsrWrite_served hserved hlow hhigh,
    fun s p t flash d l hserved hd hl => execEventRead_served hserved hd hl,
    fun s p hserved => execIdentifySwitchDevice_served hserved,
    fun s p lp hserved hnear => execGetPhysicalPortState_served hserved hnear,
    fun s p v hserved hown => execGetVirtualCxlSwitchInfo_served hserved hown,
    fun s p op hserved => execFmUnsupported_served hserved,
    fun s die x hen => ⟨execI3cDynamicAddress_set hen x, execI3cDynamicAddress_lost hen⟩⟩

/-! ## Commands that are turned away (R510, R512, R513, R517, R520) -/

section

variable {g : Cfg} {d : Dyn} {p : Path} {c : MCmd}

theorem mgmtCmd_stray (hstray : mctpStray g p = true) : mgmtCmd g p c d = bump .mgmtCmdCntRefused (leadOr0 d) 1 d := if_pos hstray

section

variable (hown : mctpStray g p = false)

include hown

theorem mgmtCmd_closed (hclosed : pathOpen g d p = false) : mgmtCmd g p c d = d :=
  (if_neg (by rw [hown]; decide)).trans (if_pos (by rw [hclosed]; rfl))

variable (hopen : pathOpen g d p = true)

include hopen

/-- An open path brings its command to the lead. -/
theorem mgmtCmd_open : mgmtCmd g p c d = if cmdWaits g (mgmtOn d) c then
    (if 32 ≤ (mgmtOn d).mgmt.held.length then cmdBusy p c (mgmtOn d) else holdCmd g p c (mgmtOn d)) else mgmtRun g p c (mgmtOn d) :=
  (if_neg (by rw [hown]; decide)).trans (if_neg (by rw [hopen]; decide))

theorem mgmtCmd_full (hwaits : cmdWaits g (mgmtOn d) c = true) (hfull : 32 ≤ d.mgmt.held.length) :
    mgmtCmd g p c d = mgmtReply p (opcode c) rcBusy 0 [] (mgmtOn d) := by
  have hheld : (mgmtOn d).mgmt.held.length = d.mgmt.held.length := by rw [mgmtOn, ungate_mgmt]
  rw [mgmtCmd_open hown hopen, if_pos hwaits, if_pos (by rw [hheld]; exact hfull)]
  rfl

theorem mgmtCmd_unsupported (hnow : cmdWaits g (mgmtOn d) c = false)
    (hno : sessOf d p < since c ∨ (isFcf p = true ∧ notOnFcf c = true)) :
    mgmtCmd g p c d = mgmtReply p (opcode c) rcUnsupported 0 [] (bump .mgmtCmdCntRefused (leadOr0 (mgmtOn d)) 1 (mgmtOn d)) := by
  rw [mgmtCmd_open hown hopen, if_neg (by rw [hnow]; decide)]
  refine if_pos ?_
  simpa only [sessOf_mgmtOn, Bool.or_eq_true, decide_eq_true_eq, Bool.and_eq_true] using hno

end

/-- During a handover a command without an address of its own waits (R10). -/
theorem cmdWaits_identify (hmoving : d.mgmt.moving = true) : cmdWaits g (mgmtOn d) .identify = true := by
  simp only [cmdWaits, mgmtOn, ungate_mgmt, hmoving, Bool.true_or]

theorem pathOpen_recovery (hrec : inRecovery d = true) : pathOpen g d p = false := by
  simp only [pathOpen, hrec, Bool.not_true, Bool.false_and]

end

section

variable {s : State} {p : Path} {d : Dyn}

theorem execIdentify_next (h : mgmtCmd s.cfg p .identify s.dyn = d) : execIdentify p s = .next (s.setDyn d) := nextDyn_setDyn h

theorem execCsrRead_next {a n : Nat} {peek : Bool} (h : mgmtCmd s.cfg p (.csrRead a n peek) s.dyn = d) :
    execCsrRead p a n peek s = .next (s.setDyn d) := nextDyn_setDyn h

end

/-- Settles O21: the path, the session's version and the queue select the branch that turns the command away. -/
theorem commandsTurnedAwayByAPath : Obligations.CommandsTurnedAwayByAPath := by
  unfold Obligations.CommandsTurnedAwayByAPath
  refine ⟨fun s p hstray => execIdentify_next (mgmtCmd_stray hstray), fun s p hown hclosed => execIdentify_next (mgmtCmd_closed hown hclosed),
    fun s p hown hopen hmoving hfull => execIdentify_next (mgmtCmd_full hown hopen (cmdWaits_identify hmoving) hfull),
    fun s p a n hown hopen hnow hsess => execCsrRead_next (mgmtCmd_unsupported hown hopen hnow (.inl ?_)),
    fun s h a n peek hopen hnow => execCsrRead_next (mgmtCmd_unsupported rfl hopen hnow (.inr ⟨rfl, rfl⟩)),
    fun s p hrec => pathOpen_recovery hrec⟩
  rw [hsess]
  exact Nat.one_lt_two

end Machine
end Sys2Proof
end

section
/-! PROOFS. Records on their way to flash, amendments, image transfer and activation (R447 to R463, R517, R518): O22. -/


namespace Sys2Proof
namespace Machine

/-! ## Records and amendments (R447, R456, R457) -/

section

variable {s : State}

theorem execNvmRecordWrite_commits {r : NvRec} {t : List NvRec} (hq : s.dyn.boot.nvq = r :: t) (hflash : (flashSource s.dyn).isNone = false)
    (hmay : s.dyn.boot.nvBegun = true ∨ nvHeld s.dyn = false) : execNvmRecordWrite s =
    .next (s.setDyn (nvBegin (nvCommit r { s.dyn with boot := { s.dyn.boot with nvq := t } }))) := by
  refine nextDyn_setDyn ?_
  simp only [hq, hflash, Bool.false_eq_true, if_false]
  exact if_neg (by rcases hmay with h | h <;> simp [h])

section

variable {p : Path} {d : Dyn}

/-- A background command starts on a path that runs none. -/
theorem bgStart_free (c : MCmd) (f : Dyn → Dyn) (hfree : d.mgmt.bg.contains p = false) : bgStart p c f d =
    f (mgmtReply p (opcode c) 1 0 [] { d with mgmt := { d.mgmt with bg := d.mgmt.bg ++ [p] } }) :=
  if_neg (by rw [hfree]; decide)

theorem execAmendSubmit_begins {a : Amendment} (hserved : served s p (.submit a) = true) (hd : d = mgmtOn s.dyn)
    (hsag : rd d .nvmSagStsSag 0 ≠ 1) (hroom : d.boot.amdq.length < 32) (hfree : d.mgmt.bg.contains p = false) :
    execAmendSubmit p a s = .next (s.setDyn (amdSubmit s.cfg a (.path p) (mgmtReply p 0xC030 1 0 []
      { d with mgmt := { d.mgmt with bg := d.mgmt.bg ++ [p] } }))) := by
  subst hd
  refine nextDyn_setDyn ((mgmtCmd_served hserved).trans ((if_neg ?_).trans (bgStart_free _ _ hfree)))
  exact not_or.mpr ⟨hsag, Nat.not_le.mpr hroom⟩

end

theorem execAmendmentApply_committed {r : AmdRun} {x : Cfg × Dyn} {d e : Dyn} (hamd : s.dyn.boot.amd = some r) (hphase : r.phase = 3)
    (hx : x = amdApply r.amd (s.cfg, s.dyn))
    (hd : d = amdAnswer x.1 r none (arbFree r.act (put .secAmdStsBusy 0 0 { x.2 with boot := { x.2.boot with amd := none } })))
    (he : e = amdNext x.1 (d.boot.amdq.length + 1) d) :
    execAmendmentApply s = .next { s with cfg := x.1, dyn := heldRun x.1 (serveGrants x.1 e) } := by
  subst he hd hx
  have hstay : ¬ r.phase ≠ 3 := fun hne => hne hphase
  simp only [execAmendmentApply, nextCfg, amdCommitted, hamd, if_neg hstay]

/-! ## Image transfer (R462, R517) -/

section

variable {p : Path} {d : Dyn}

theorem execImgXferStart_opens (hserved : served s p .xferStart = true) (hd : d = journalNote (mgmtOn s.dyn))
    (hflash : (flashSource d).isNone = false) (hfw : d.boot.fw = none) :
    execImgXferStart p s = .next (s.setDyn (cmdDone p 0xC040 [] (put .secFwStsStagedOk 0 0 (put .secFwStsState 0 0
      { d with boot := { d.boot with xfer := some ⟨otherSlot d, 0⟩, staged := none } })))) := by
  subst hd
  exact nextDyn_setDyn ((mgmtCmd_served hserved).trans (if_neg (by rw [hflash, hfw]; decide)))

section

variable {x : Xfer} (hd : d = journalNote (mgmtOn s.dyn)) (hsag : rd d .nvmSagStsSag 0 ≠ 1) (hxfer : d.boot.xfer = some x)

include hd hsag hxfer

theorem execImgXferData_written {off len k : Nat} {f : FlashIn} (hserved : served s p (.xferData off len) = true) (hlow : 1 ≤ len)
    (hhigh : len ≤ 4064) (hend : off + len ≤ 25165824) (hsrc : flashSource d = some k) (hflash : d.boot.flash[k]? = some f) :
    execImgXferData p off len s = .next (s.setDyn (cmdDone p 0xC041 [] (slotWrite x.slotB
      { slotImage f x.slotB with headerGood := false } { d with boot := { d.boot with
        xfer := some { x with upto := if off ≤ x.upto then max x.upto (off + len) else x.upto } } }))) := by
  subst hd
  have hbad : ¬ ((flashSource (journalNote (mgmtOn s.dyn))).isNone = true ∨ len = 0 ∨ 4064 < len ∨ 25165824 < off + len) := by
    rintro (hnone | hlen)
    · simp [hsrc] at hnone
    · omega
  refine nextDyn_setDyn ((mgmtCmd_served hserved).trans ((if_neg hsag).trans ?_))
  simp only [hxfer, if_neg hbad]
  refine congrArg (cmdDone p 0xC041 []) ?_
  have hsame : ∀ b : StartSt, flashSource { journalNote (mgmtOn s.dyn) with boot := b } = flashSource (journalNote (mgmtOn s.dyn)) :=
    fun _ => rfl
  simp only [hsame, hsrc, hflash]

theorem execImgXferEnd_stages {m : Image} {e : Dyn} (hserved : served s p (.xferEnd m) = true)
    (hfree : (mgmtOn s.dyn).mgmt.bg.contains p = false) (hflash : (flashSource d).isNone = false)
    (he : e = slotWrite x.slotB m { d with boot := { d.boot with xfer := none } }) (hwhole : m.bodyLen + 5361 ≤ x.upto)
    (hgood : imgGood e m = true) (hseq : rd e .secImgSeqSeq 0 < m.seq) :
    execImgXferEnd p m s = .next (s.setDyn (cmdDone p 0xC042 [] (put .secFwStsStagedOk 0 1 (put .secFwStsState 0 1
      { e with boot := { e.boot with staged := some (m, x.slotB) } })))) := by
  subst he hd
  refine nextDyn_setDyn ((mgmtCmd_served hserved).trans ((if_neg (by rw [hfree]; decide)).trans ((if_neg hsag).trans ?_)))
  simp only [hxfer, hflash, Bool.false_eq_true, if_false]
  exact if_pos (by simp [hwhole, hgood, hseq])

end

/-! ## Activation (R462, R463) -/

theorem execActivate_asks (hserved : served s p .activate = true) (hd : d = mgmtOn s.dyn) (hfw : d.boot.fw = none)
    (hfree : d.mgmt.bg.contains p = false) :
    execActivate p s = .next (s.setDyn (fwGranted (fwAsk s.cfg p (journalNote (mgmtReply p 0xC043 1 0 []
      { d with mgmt := { d.mgmt with bg := d.mgmt.bg ++ [p] } }))))) := by
  subst hd
  exact nextDyn_setDyn ((mgmtCmd_served hserved).trans ((if_neg (by rw [hfw]; decide)).trans (bgStart_free _ _ hfree)))

end

section

variable {f : FwRun} (hfw : s.dyn.boot.fw = some f)

include hfw

theorem execStandbyFwStart_loads {k : Nat} {d : Dyn} (hstep : f.step = 1) (hgo : fwPaused s.dyn = false)
    (hstandby : standbyDie s.dyn = some k) (hd : d = { s.dyn with mgmt := { s.dyn.mgmt with moving := true } }) :
    execStandbyFwStart s = .next (s.setDyn (fwSet (some { f with step := 2 }) (put .secFwStsState 0 3 (fwLoad k d)))) := by
  subst hd
  have hstay : ¬ (f.step ≠ 1 ∨ fwPaused s.dyn = true) := by rw [hgo]; simp [hstep]
  refine nextDyn_setDyn ?_
  simp only [fwStandby, hfw, if_neg hstay, hstandby]

theorem execLeadHandover_passes {k : Nat} {d e h : Dyn} (hstep : f.step = 2)
    (hd : d = { s.dyn with mgmt := { s.dyn.mgmt with moving := false } }) (hstandby : standbyDie d = some k)
    (he : e = put .secFwStsNewLead 0 k (put .secFwStsState 0 4 (setStandby s.cfg k (setLead k d))))
    (hh : h = { e with hlth := { e.hlth with hbLead := e.now, hbWord := e.now, hbAns := e.now } }) :
    execLeadHandover s = .next (s.setDyn (heldRun s.cfg (fwNext
      (fwSet (some { f with step := 3, todo := fwOthers h k (leadOr0 s.dyn) }) h)))) := by
  subst hh he hd
  have hstay : ¬ f.step ≠ 2 := fun hne => hne hstep
  refine nextDyn_setDyn (congrArg (heldRun s.cfg) ?_)
  simp only [fwHandover, hfw, if_neg hstay, hstandby]

/-- A die that is next to reload gives way to those behind it, and the last one ends the activation. -/
theorem execDieFwReload_next {k : Die} {t : List Nat} (hstep : f.step = 3) (hgo : fwPaused s.dyn = false) (htodo : f.todo = k.val :: t)
    {x : Cfg × Dyn} (hx : x = if t.isEmpty then fwEnd { f with todo := t } (s.cfg, fwLoad k s.dyn)
      else (s.cfg, fwNext (fwSet (some { f with todo := t }) (fwLoad k s.dyn)))) :
    execDieFwReload k s = .next { s with cfg := x.1, dyn := heldRun x.1 (serveGrants x.1 x.2) } := by
  subst hx
  have hstay : ¬ (f.step ≠ 3 ∨ fwPaused s.dyn = true ∨ (k.val :: t).head? ≠ some k.val) := by rw [hgo]; simp [hstep]
  simp only [execDieFwReload, nextCfg, fwReloaded, hfw, htodo, if_neg hstay, List.drop_succ_cons, List.drop_zero]

end

end

/-- Settles O22: what is stored, asked and running selects the branch that each command runs to. -/
theorem amendmentAndImageCommandsComplete : Obligations.AmendmentAndImageCommandsComplete := by
  unfold Obligations.AmendmentAndImageCommandsComplete
  exact ⟨fun s r t hq hflash hmay => execNvmRecordWrite_commits hq hflash hmay,
    fun s p a d hserved hd hsag hroom hfree => execAmendSubmit_begins hserved hd hsag hroom hfree,
    fun s r x d e hamd hphase hx hd he => execAmendmentApply_committed hamd hphase hx hd he,
    fun s p d hserved hd hflash hfw => execImgXferStart_opens hserved hd hflash hfw,
    fun s p off len k x f d hserved hd hsag hxfer hlow hhigh hend hsrc hflash =>
      execImgXferData_written hd hsag hxfer hserved hlow hhigh hend hsrc hflash,
    fun s p m x d e hserved hfree hd hsag hxfer hflash he hwhole hgood hseq =>
      execImgXferEnd_stages hd hsag hxfer hserved hfree hflash he hwhole hgood hseq,
    fun s p d hserved hd hfw hfree => execActivate_asks hserved hd hfw hfree,
    fun s f k d hfw hstep hgo hstandby hd => execStandbyFwStart_loads hfw hstep hgo hstandby hd,
    fun s f k d e h hfw hstep hd hstandby he hh => execLeadHandover_passes hfw hstep hd hstandby he hh,
    fun s f k j t d hfw hstep hgo htodo hd => hd ▸ execDieFwReload_next hfw hstep hgo htodo rfl,
    fun s f k x hfw hstep hgo htodo hx => hx ▸ execDieFwReload_next hfw hstep hgo htodo rfl⟩

end Machine
end Sys2Proof
end

section
/-! PROOFS. Ageing: re-planning cycles, adaptive voltage and re-equalisation (R413, R470 to R476): O35. -/


namespace Sys2Proof
namespace Machine

section

variable {s : State}

/-! ## Re-planning cycles (R470 to R473) -/

theorem execReplan_due {m : Monitors} {d e f : Dyn} {mine : List Nat} (hstage : rd s.dyn .secBootStsStage 0 = 8)
    (hclosed : s.dyn.hlth.planOpen = false) (hdue : s.dyn.hlth.planAt ≤ s.dyn.now)
    (hd : d = forAll (List.range 8) (noteAge s.cfg m) s.dyn) (he : e = planKick (planReeq s.cfg m (planBegin s.cfg m d)))
    (hf : f = (if cg s.cfg .hlthCtlAvEn 0 = 0 then e else forAll (List.range 8) (planAv s.cfg m) e))
    (hmine : mine = (List.range (f.hlth.nextAct - d.hlth.nextAct)).map (fun k => d.hlth.nextAct + k)) :
    execReplan m s = .next (s.setDyn (serveGrants s.cfg (nvPut (.plan ⟨m, (List.range 8).map (fun r => rd f .hlthVregVset r),
      ((f.hlth.running ++ f.hlth.waiting).filter fun a => mine.contains a.id).map Act.q⟩) { f with hlth := { f.hlth with planActs := mine } }))) := by
  have hact : ¬ (rd s.dyn .secBootStsStage 0 ≠ 8 ∨ s.dyn.hlth.planOpen = true ∨ s.dyn.now < s.dyn.hlth.planAt) := by
    simp [hstage, hclosed, hdue]
  refine nextDyn_setDyn ((if_neg hact).trans ?_)
  simp only [← hd, ← he, ← hf, ← hmine]

theorem execPlanDone_closes {d : Dyn} (hd : d = planKick s.dyn) (hopen : d.hlth.planOpen = true) (hswaps : d.hlth.planSwaps = [])
    (hacts : (d.hlth.planActs.any fun id => arbKnown d id) = false) : execPlanDone s = .next (s.setDyn
      (raise 0x0C01 (leadOr0 d) [] { d with hlth := { d.hlth with planOpen := false, planActs := [] } })) := by
  subst hd
  exact nextDyn_setDyn (if_neg (by rw [hopen, hswaps, hacts]; decide))

/-! ## Voltage steps (R413, R474, R475) -/

theorem execAvStep_granted {r : Region} {a : Act} {v : Nat}
    (hrun : s.dyn.hlth.running.find? (fun a => a.q.code == 2 && a.tag / 2 == r.val && !(s.dyn.hlth.avRun.any fun x => x.2.2 == a.id)) = some a)
    (hawake : regionSleeps s.cfg s.dyn r = false) (hv : v = rd s.dyn .hlthVregVset r) :
    execAvStep r s = .next (s.setDyn
      (if (if a.tag % 2 = 1 then decide (v + 5 ≤ vMax s.cfg r) else decide (vMin s.cfg r + 5 ≤ v)) then
        put .hlthVregVset r (if a.tag % 2 = 1 then v + 5 else v - 5)
          { s.dyn with hlth := { s.dyn.hlth with avRun := s.dyn.hlth.avRun ++ [(r.val, s.dyn.now, a.id)] } }
      else arbFree a.id (raise 0x0C02 (r / 2) [r.val] (put .hlthVregAtLimit r 1 s.dyn)))) := by
  subst hv
  refine nextDyn_setDyn ?_
  simp only [hrun]
  exact if_neg (by rw [hawake]; decide)

theorem execAvStepComplete_single {r : Region} {x : Nat × Nat × Nat} (slack : Fin 64)
    (hrun : s.dyn.hlth.avRun.find? (fun x => x.1 == r.val) = some x) (hdue : x.2.1 + 50000 ≤ s.dyn.now)
    (hother : s.dyn.hlth.planOpen = false ∨ s.dyn.hlth.planActs.contains x.2.2 = false) :
    execAvStepComplete r slack s = .next (s.setDyn (serveGrants s.cfg (arbFree x.2.2 (put .hlthAgeSlackPs r (min 255 (5 * slack))
      { s.dyn with hlth := { s.dyn.hlth with avRun := dropOne x s.dyn.hlth.avRun } })))) := by
  have hmine : (s.dyn.hlth.planOpen && s.dyn.hlth.planActs.contains x.2.2) = false := by
    rcases hother with hclosed | hforeign
    · rw [hclosed, Bool.false_and]
    · rw [hforeign, Bool.and_false]
  refine nextDyn_setDyn ?_
  simp only [hrun, if_neg (Nat.not_lt.mpr hdue), hmine, Bool.false_and, Bool.false_eq_true, if_false]

theorem execAvEmergency_asks {r : Region} {slack : Fin 64} {d : Dyn} (hstage : rd s.dyn .secBootStsStage 0 = 8)
    (hclosed : s.dyn.hlth.planOpen = false) (hen : cg s.cfg .hlthCtlAvEn 0 ≠ 0) (hlow : 5 * slack.val < cg s.cfg .hlthSlackEmergPs 0)
    (hnew : ((s.dyn.hlth.running ++ s.dyn.hlth.waiting).any fun a => a.q.emerg && a.tag / 2 == r.val) = false)
    (hd : d = put .hlthAgeSlackPs r (min 255 (5 * slack)) s.dyn) :
    execAvEmergency r slack s = .next (s.setDyn (avAsk s.cfg r true true
      (if rd d .hlthVregVset r + 5 ≤ vMax s.cfg r then raise 0x0C0D (r / 2) [r.val] d else d))) := by
  subst hd
  have hact : ¬ (rd s.dyn .secBootStsStage 0 ≠ 8 ∨ s.dyn.hlth.planOpen = true ∨ cg s.cfg .hlthCtlAvEn 0 = 0 ∨
      cg s.cfg .hlthSlackEmergPs 0 ≤ 5 * slack.val ∨
      ((s.dyn.hlth.running ++ s.dyn.hlth.waiting).any fun a => a.q.emerg && a.tag / 2 == r.val) = true) := by
    rw [hnew, hclosed]
    simp [hstage, hen, hlow]
  exact nextDyn_setDyn (if_neg hact)

/-! ## Re-equalisation (R476) -/

section

variable {lp : Lport}

theorem execReequalisation_leavesL0 {a : Act} (hrun : runningOf s.dyn 4 lp = some a)
    (hnew : (s.dyn.hlth.reeq.any fun x => x.1 == lp.val) = false) (hl0 : inL0 s.dyn lp = true) :
    execReequalisation lp s =
      .next (s.setDyn { s.dyn with hlth := { s.dyn.hlth with reeq := s.dyn.hlth.reeq ++ [(lp.val, s.dyn.now, a.id)] } }) := by
  refine nextDyn_setDyn ?_
  simp only [hrun]
  exact (if_neg (by rw [hnew]; decide)).trans (if_neg (by rw [hl0]; decide))

variable {x : Nat × Nat × Nat} (hfind : s.dyn.hlth.reeq.find? (fun x => x.1 == lp.val) = some x)

include hfind

theorem execReeqDone_inTime (hearly : s.dyn.now < x.2.1 + 2000000) (hup : lpLinkUp s.dyn lp = true) :
    execReeqDone lp s = .next (s.setDyn (serveGrants s.cfg (arbFree x.2.2 (raise 0x0C04 (lpDie lp) [lp.val]
      { s.dyn with hlth := { s.dyn.hlth with reeq := dropOne x s.dyn.hlth.reeq } })))) := by
  refine nextDyn_setDyn ?_
  simp only [hfind]
  exact if_neg (by simp [hup, hearly])

theorem execReeqTimeout_due {d : Dyn} (hdue : x.2.1 + 2000000 ≤ s.dyn.now)
    (hd : d = arbFree x.2.2 { s.dyn with hlth := { s.dyn.hlth with reeq := dropOne x s.dyn.hlth.reeq } }) :
    execReeqTimeout lp s = .next (s.setDyn (serveGrants s.cfg (if lpLinkUp d lp = false then d
      else if isUp s.cfg d lp = true then upLost s.cfg lp d else dpc s.cfg lp 1 false d))) := by
  subst hd
  refine nextDyn_setDyn ?_
  simp only [hfind, if_neg (Nat.not_lt.mpr hdue), Bool.not_eq_true']

end

end

/-- Settles O35: what the cycle, the grants and the clock say selects the branch that each command runs to. -/
theorem ageingCommandsComplete : Obligations.AgeingCommandsComplete := by
  unfold Obligations.AgeingCommandsComplete
  exact ⟨fun s m d e f mine hstage hclosed hdue hd he hf hmine => execReplan_due hstage hclosed hdue hd he hf hmine,
    fun s d hd hopen hswaps hacts => execPlanDone_closes hd hopen hswaps hacts,
    fun s r a v hrun hawake hv => execAvStep_granted hrun hawake hv,
    fun s r slack x hrun hdue hother => execAvStepComplete_single slack hrun hdue hother,
    fun s r slack hstage hclosed hen hlow hnew d hd => execAvEmergency_asks hstage hclosed hen hlow hnew hd,
    fun s lp a hrun hnew hl0 => execReequalisation_leavesL0 hrun hnew hl0,
    fun s lp x hfind hearly hup => execReeqDone_inTime hfind hearly hup,
    fun s lp x d hfind hdue hd => execReeqTimeout_due hfind hdue hd⟩

end Machine
end Sys2Proof
end

section
/-! PROOFS. The Ranger monitor and its debug unlock (R519 to R525): O37. -/


namespace Sys2Proof
namespace Machine

section

variable {s : State} {die : Die}

/-- A command of the Ranger does nothing unless the die's monitor runs it. -/
theorem nextDyn_rangerUp {inRec : Bool} {act : Cfg → Dyn → Dyn} {e : Dyn} (hup : rangerUp s.dyn die inRec = true) (he : act s.cfg s.dyn = e) :
    nextDyn s (fun g d => if !rangerUp d die inRec then d else act g d) = .next (s.setDyn e) :=
  nextDyn_setDyn ((if_neg (by rw [hup]; decide)).trans he)

/-! ## What the Ranger prints (Table 18.5) -/

section

variable (hup : rangerUp s.dyn die false = true)

include hup

theorem execHelp_prints (topic : Option (Fin 10)) : execHelp die topic s = .next (s.setDyn
    (emit (.ranger die "help id ports slot counters log margin rd wr trace" (topic.toList.map fun t => t.val)) s.dyn)) :=
  nextDyn_rangerUp hup rfl

theorem execPorts_prints (lp : Option Lport) : execPorts die lp s = .next (s.setDyn (emit (.ranger die "ports"
    (((List.range 192).filter fun k => k / 48 == die.val && lpExists s.cfg k && (lp.map fun x => x.val == k).getD true).flatMap fun k =>
      [k, lpRole s.cfg s.dyn k, lpBind s.cfg k] ++ peeks s.cfg die [0x800000 + 0x10000 * (k / 4 % 12) + 16 * (k % 4) + 0x100,
        0x800000 + 0x10000 * (k / 4 % 12) + 16 * (k % 4) + 0x104] s.dyn)) s.dyn)) :=
  nextDyn_rangerUp hup rfl

theorem execSlot_prints (ch : Option (Fin 12)) : execSlot die ch s = .next (s.setDyn (emit (.ranger die "slot"
    (((List.range 12).filter fun k => (ch.map fun x => x.val == k).getD true).flatMap fun k => k :: peeks s.cfg die
      [0x2000000 + 0x10000 * k + 0x10, 0x2000000 + 0x10000 * k + 0x14, 0x2000000 + 0x10000 * k + 0x18] s.dyn)) s.dyn)) :=
  nextDyn_rangerUp hup rfl

/-- The number of counters a COUNTERS prints: one without a count. -/
def countersAsked (n : Option (Fin 65)) : Nat :=
  match n with
  | some k => k.val
  | none => 1

theorem execCounters_prints {i : Fin 1024} {n : Option (Fin 65)} {r : List Nat × Dyn}
    (hr : r = ctrDump s.cfg die i (countersAsked n) s.dyn) :
    execCounters die i n s = .next (s.setDyn (emit (.ranger die "counters" r.1) r.2)) := by
  subst hr
  exact nextDyn_rangerUp hup rfl

theorem execMargin_prints {lp : Option Lport} {ep : Option Ep} {r : List Nat × Dyn}
    (hr : r = eyeWords s.cfg die (.ranger die) lp.isNone (ep.map Fin.val) s.dyn) :
    execMargin die lp ep s = .next (s.setDyn (emit (.ranger die "margin"
      (r.1 ++ lastMargin s.cfg s.dyn (lp.map Fin.val) (ep.map Fin.val))) r.2)) := by
  subst hr
  exact nextDyn_rangerUp hup rfl

end

theorem execId_prints (hup : rangerUp s.dyn die true = true) :
    execId die s = .next (s.setDyn (emit (.ranger die "id" (idWordsOf s.cfg s.dyn die)) s.dyn)) :=
  nextDyn_rangerUp hup rfl

theorem execLog_prints {n : Option Nat} {l : List Ev} (hup : rangerUp s.dyn die true = true) (hl : l = s.dyn.hlth.elog ++ s.dyn.ev) :
    execLog die n s = .next (s.setDyn (emit (.ranger die "log" ((l.drop (l.length - n.getD 16)).flatMap evWords)) s.dyn)) := by
  subst hl
  exact nextDyn_rangerUp hup rfl

/-! ## Registers, the trace and the debug unlock (R519, R521 to R525) -/

section

variable (hup : rangerUp s.dyn die false = true)

include hup

theorem execRd_prints {a : Nat} {n : Fin 65} (hready : accessWaits s.cfg s.dyn a = false) :
    execRd die a n s = .next (s.setDyn (emit (.ranger die "rd" (csrReads s.cfg (.ranger die) true a n s.dyn).1)
      (csrReads s.cfg (.ranger die) true a n s.dyn).2)) :=
  nextDyn_rangerUp hup (if_neg (by rw [hready, Bool.false_and]; decide))

section

variable {a : Nat} {vs : List Word} {ws as : List Nat} (hws : ws = (vs.take 64).map fun w => w.toNat)
  (has : as = (List.range ws.length).map fun k => a + 4 * k)

include hws has

theorem execWr_locked (hmay : (as.all fun x => mayWrite s.cfg s.dyn (.ranger die) x) = false) :
    execWr die a vs s = .next (s.setDyn (emit (.ranger die "locked" []) (bump .mgmtCmdCntRefused die 1 s.dyn))) := by
  subst has hws
  exact nextDyn_rangerUp hup (if_pos (by rw [hmay]; rfl))

theorem execWr_writes {d : Dyn} (hmay : (as.all fun x => mayWrite s.cfg s.dyn (.ranger die) x) = true)
    (hd : d = (if as.all unlockReg = true then s.dyn else raise 0x0E05 die [die.val, a, ws.headD 0] s.dyn))
    (hready : accessWaits s.cfg d a = false) :
    execWr die a vs s = .next (s.setDyn (emit (.ranger die "wr" []) (csrWrites s.cfg (.ranger die) a ws d))) := by
  subst hd has hws
  exact nextDyn_rangerUp hup ((if_neg (by rw [hmay]; decide)).trans (if_neg (by rw [hready, Bool.false_and]; decide)))

end

theorem execTrace_runs (op : TraceOp) : execTrace die op s = .next (s.setDyn
    (if mayTrace s.dyn (.ranger die) die = true then traceDo die op s.dyn
      else emit (.ranger die "locked" []) (bump .mgmtCmdCntRefused die 1 s.dyn))) :=
  nextDyn_rangerUp hup rfl

theorem execGo_checks (sigs : Bool) : execGo die sigs s = .next (s.setDyn (monGo die sigs s.dyn)) :=
  nextDyn_setDyn (if_pos hup)

theorem execLock_locks : execLock die s = .next (s.setDyn (monLock die s.dyn)) :=
  nextDyn_setDyn (if_pos hup)

end

theorem execUnlockExpiry_due (hdue : (aget mon0 s.dyn.mon die).until0 ≤ s.dyn.now) :
    execUnlockExpiry die s = .next (s.setDyn (monLock die s.dyn)) :=
  nextDyn_setDyn (if_pos hdue)

theorem execLockoutExpiry_due (hout : rd s.dyn .monDbgStsLockout die = 1) (hdue : (aget mon0 s.dyn.mon die).outEnd ≤ s.dyn.now) :
    execLockoutExpiry die s = .next (s.setDyn (put .monDbgStsLockout die 0 s.dyn)) :=
  nextDyn_setDyn (if_pos ⟨hout, hdue⟩)

end

/-- Settles O37: each command runs in a die whose monitor is up, and the unlock, the trace scope and the time select its branch. -/
theorem rangerCommandsComplete : Obligations.RangerCommandsComplete := by
  unfold Obligations.RangerCommandsComplete
  exact ⟨fun s die topic hup => execHelp_prints hup topic, fun s die hup => execId_prints hup,
    fun s die lp hup => execPorts_prints hup lp, fun s die ch hup => execSlot_prints hup ch,
    fun s die i n r hup hr => execCounters_prints hup hr, fun s die n l hup hl => execLog_prints hup hl,
    fun s die lp ep r hup hr => execMargin_prints hup hr, fun s die a n hup hready => execRd_prints hup hready,
    fun s die a vs ws as d hup hws has => ⟨fun hmay => execWr_locked hup hws has hmay,
      fun hmay hd hready => execWr_writes hup hws has hmay hd hready⟩,
    fun s die op hup => execTrace_runs hup op,
    fun s die sigs hup => ⟨execGo_checks hup sigs, execLock_locks hup⟩,
    fun s die hdue => execUnlockExpiry_due hdue, fun s die hout hdue => execLockoutExpiry_due hout hdue⟩

end Machine
end Sys2Proof
end
